-- ==== Sys2Proof/Word.lean ====
section
/-!
DEFINITION. The plainest data of the model: bytes, sparse arrays in one canonical form, and bit fields of numbers.
-/

namespace Sys2Proof

/-- A byte (R7). -/
abbrev Byte := BitVec 8

/-- A sparse array: pairs of an index and a value, indices strictly rising, no value equal to the default of its
index.  What an unlisted index reads as is given where the array is read. -/
abbrev FMap (α : Type) := List (Nat × α)

/-- The value at index `k`; `d` gives the value of an unlisted index. -/
def FMap.get {α : Type} (d : Nat → α) : FMap α → Nat → α
  | [], k => d k
  | (i, x) :: m, k => if k = i then x else FMap.get d m k

/-- Remove index `k`. -/
def FMap.erase {α : Type} : FMap α → Nat → FMap α
  | [], _ => []
  | (i, x) :: m, k => if k = i then FMap.erase m k else (i, x) :: FMap.erase m k

/-- List an index `k` that is not listed, keeping the indices rising. -/
def FMap.insert {α : Type} : FMap α → Nat → α → FMap α
  | [], k, v => [(k, v)]
  | (i, x) :: m, k, v => if k < i then (k, v) :: (i, x) :: m else (i, x) :: FMap.insert m k v

/-- Write `v` at index `k`: the entry goes when `v` is the default, so equal arrays are equal lists. -/
def FMap.set {α : Type} [DecidableEq α] (d : Nat → α) (m : FMap α) (k : Nat) (v : α) : FMap α :=
  if v = d k then FMap.erase m k else FMap.insert (FMap.erase m k) k v

/-- The canonical form: every listed index is above `lo`, indices rise, and no entry equals its default. -/
def FMap.wfFrom {α : Type} [DecidableEq α] (d : Nat → α) : Nat → FMap α → Bool
  | _, [] => true
  | lo, (i, x) :: m => decide (lo ≤ i) && decide (x ≠ d i) && FMap.wfFrom d (i + 1) m

/-- The canonical form of a sparse array. -/
def FMap.wf {α : Type} [DecidableEq α] (d : Nat → α) (m : FMap α) : Bool := FMap.wfFrom d 0 m

end Sys2Proof
end

