-- ==== Sys2Proof/Syntax.lean ====
section
/-!
DEFINITION. The commands of the block: one constructor for each row of spec/opcode_table.json.

A stall instruction names the issuing stall (its global number, R5) and the fields of its word (R104).
An internal step (a groom dispatch, an arrival at the MXA, the next flit of a port ...) names the unit that
takes it; where several messages or requests wait, an index says which of them is meant.  A step caused from
outside the module (a reading of a sensor, a flit on the wire, a doorbell write ...) carries what arrives.
-/

namespace Sys2Proof

/-- The commands of the module, one constructor a row of the table of operations and events. -/
inductive Instr where
  /-- ADD (R107): Scalar 64-bit add of ga and gb into gd, wrapping and setting OVF on signed overflow. -/
  | add (st : Nat) (d : BitVec 5) (a : BitVec 5) (b : BitVec 5)
  /-- SUB (R107): Scalar 64-bit subtract, wrapping, OVF on signed overflow. -/
  | sub (st : Nat) (d : BitVec 5) (a : BitVec 5) (b : BitVec 5)
  /-- MUL (R107): Scalar multiply giving the low 64 bits, OVF on signed overflow. -/
  | mul (st : Nat) (d : BitVec 5) (a : BitVec 5) (b : BitVec 5)
  /-- MULH (R107): High 64 bits of the signed 128-bit product. -/
  | mulh (st : Nat) (d : BitVec 5) (a : BitVec 5) (b : BitVec 5)
  /-- MULHU (R107): High 64 bits of the unsigned 128-bit product. -/
  | mulhu (st : Nat) (d : BitVec 5) (a : BitVec 5) (b : BitVec 5)
  /-- DIV (R107): Signed division with the edge cases of R57. -/
  | div (st : Nat) (d : BitVec 5) (a : BitVec 5) (b : BitVec 5)
  /-- DIVU (R107): Unsigned division; division by zero gives all ones and sets DZ. -/
  | divu (st : Nat) (d : BitVec 5) (a : BitVec 5) (b : BitVec 5)
  /-- REM (R107): Signed remainder with the edge cases of R57. -/
  | rem (st : Nat) (d : BitVec 5) (a : BitVec 5) (b : BitVec 5)
  /-- REMU (R107): Unsigned remainder with the edge cases of R57. -/
  | remu (st : Nat) (d : BitVec 5) (a : BitVec 5) (b : BitVec 5)
  /-- AND (R107): Bitwise AND of two g registers. -/
  | and (st : Nat) (d : BitVec 5) (a : BitVec 5) (b : BitVec 5)
  /-- OR (R107): Bitwise OR of two g registers. -/
  | or (st : Nat) (d : BitVec 5) (a : BitVec 5) (b : BitVec 5)
  /-- XOR (R107): Bitwise XOR of two g registers. -/
  | xor (st : Nat) (d : BitVec 5) (a : BitVec 5) (b : BitVec 5)
  /-- SHL (R107): Left shift by gb mod 64. -/
  | shl (st : Nat) (d : BitVec 5) (a : BitVec 5) (b : BitVec 5)
  /-- SHR (R107): Logical right shift by gb mod 64. -/
  | shr (st : Nat) (d : BitVec 5) (a : BitVec 5) (b : BitVec 5)
  /-- SRA (R107): Arithmetic right shift by gb mod 64. -/
  | sra (st : Nat) (d : BitVec 5) (a : BitVec 5) (b : BitVec 5)
  /-- SLT (R107): gd = 1 if ga < gb signed, else 0. -/
  | slt (st : Nat) (d : BitVec 5) (a : BitVec 5) (b : BitVec 5)
  /-- SLTU (R107): gd = 1 if ga < gb unsigned, else 0. -/
  | sltu (st : Nat) (d : BitVec 5) (a : BitVec 5) (b : BitVec 5)
  /-- NEG (R107): Negate ga, OVF for the most negative value. -/
  | neg (st : Nat) (d : BitVec 5) (a : BitVec 5)
  /-- ABS (R107): Absolute value of ga, OVF for the most negative value. -/
  | abs (st : Nat) (d : BitVec 5) (a : BitVec 5)
  /-- MIN (R107): Signed minimum of ga and gb. -/
  | min (st : Nat) (d : BitVec 5) (a : BitVec 5) (b : BitVec 5)
  /-- MAX (R107): Signed maximum of ga and gb. -/
  | max (st : Nat) (d : BitVec 5) (a : BitVec 5) (b : BitVec 5)
  /-- ADDW (R107): Word form of ADD on bits [31:0], sign-extended. -/
  | addw (st : Nat) (d : BitVec 5) (a : BitVec 5) (b : BitVec 5)
  /-- SUBW (R107): Word form of SUB. -/
  | subw (st : Nat) (d : BitVec 5) (a : BitVec 5) (b : BitVec 5)
  /-- MULW (R107): Word form of MUL. -/
  | mulw (st : Nat) (d : BitVec 5) (a : BitVec 5) (b : BitVec 5)
  /-- DIVW (R107): Word form of DIV. -/
  | divw (st : Nat) (d : BitVec 5) (a : BitVec 5) (b : BitVec 5)
  /-- DIVUW (R107): Word form of DIVU. -/
  | divuw (st : Nat) (d : BitVec 5) (a : BitVec 5) (b : BitVec 5)
  /-- REMW (R107): Word form of REM. -/
  | remw (st : Nat) (d : BitVec 5) (a : BitVec 5) (b : BitVec 5)
  /-- REMUW (R107): Word form of REMU. -/
  | remuw (st : Nat) (d : BitVec 5) (a : BitVec 5) (b : BitVec 5)
  /-- SHLW (R107): Word form of SHL, shift by n mod 32. -/
  | shlw (st : Nat) (d : BitVec 5) (a : BitVec 5) (b : BitVec 5)
  /-- SHRW (R107): Word form of SHR. -/
  | shrw (st : Nat) (d : BitVec 5) (a : BitVec 5) (b : BitVec 5)
  /-- SRAW (R107): Word form of SRA. -/
  | sraw (st : Nat) (d : BitVec 5) (a : BitVec 5) (b : BitVec 5)
  /-- NEGW (R107): Word form of NEG. -/
  | negw (st : Nat) (d : BitVec 5) (a : BitVec 5)
  /-- ABSW (R107): Word form of ABS. -/
  | absw (st : Nat) (d : BitVec 5) (a : BitVec 5)
  /-- ADDI (R107): Add a sign-extended immediate to ga. -/
  | addi (st : Nat) (d : BitVec 5) (a : BitVec 5) (imm : BitVec 15)
  /-- ADDIW (R107): Word form of ADDI. -/
  | addiw (st : Nat) (d : BitVec 5) (a : BitVec 5) (imm : BitVec 15)
  /-- ANDI (R107): AND with an immediate. -/
  | andi (st : Nat) (d : BitVec 5) (a : BitVec 5) (imm : BitVec 15)
  /-- ORI (R107): OR with an immediate. -/
  | ori (st : Nat) (d : BitVec 5) (a : BitVec 5) (imm : BitVec 15)
  /-- XORI (R107): XOR with an immediate. -/
  | xori (st : Nat) (d : BitVec 5) (a : BitVec 5) (imm : BitVec 15)
  /-- SLTI (R107): Signed set-less-than against an immediate. -/
  | slti (st : Nat) (d : BitVec 5) (a : BitVec 5) (imm : BitVec 15)
  /-- SHLI (R107): Left shift by IMM[5:0]. -/
  | shli (st : Nat) (d : BitVec 5) (a : BitVec 5) (imm : BitVec 15)
  /-- SHRI (R107): Logical right shift by IMM[5:0]. -/
  | shri (st : Nat) (d : BitVec 5) (a : BitVec 5) (imm : BitVec 15)
  /-- SRAI (R107): Arithmetic right shift by IMM[5:0]. -/
  | srai (st : Nat) (d : BitVec 5) (a : BitVec 5) (imm : BitVec 15)
  /-- LUI (R106): gd = OFF sign-extended and shifted left 12. -/
  | lui (st : Nat) (d : BitVec 5) (off : BitVec 20)
  /-- LD_B (R106): Load a byte at ga + IMM, sign-extended, under the address map and memory model. -/
  | ldB (st : Nat) (d : BitVec 5) (a : BitVec 5) (imm : BitVec 15)
  /-- LD_H (R106): Load a halfword, sign-extended. -/
  | ldH (st : Nat) (d : BitVec 5) (a : BitVec 5) (imm : BitVec 15)
  /-- LD_W (R106): Load a word, sign-extended. -/
  | ldW (st : Nat) (d : BitVec 5) (a : BitVec 5) (imm : BitVec 15)
  /-- LD_D (R106): Load a doubleword. -/
  | ldD (st : Nat) (d : BitVec 5) (a : BitVec 5) (imm : BitVec 15)
  /-- LD_BU (R106): Load a byte, zero-extended. -/
  | ldBu (st : Nat) (d : BitVec 5) (a : BitVec 5) (imm : BitVec 15)
  /-- LD_HU (R106): Load a halfword, zero-extended. -/
  | ldHu (st : Nat) (d : BitVec 5) (a : BitVec 5) (imm : BitVec 15)
  /-- LD_WU (R106): Load a word, zero-extended. -/
  | ldWu (st : Nat) (d : BitVec 5) (a : BitVec 5) (imm : BitVec 15)
  /-- ST_B (R106): Store the low byte of the D register at ga + IMM. -/
  | stB (st : Nat) (d : BitVec 5) (a : BitVec 5) (imm : BitVec 15)
  /-- ST_H (R106): Store a halfword. -/
  | stH (st : Nat) (d : BitVec 5) (a : BitVec 5) (imm : BitVec 15)
  /-- ST_W (R106): Store a word. -/
  | stW (st : Nat) (d : BitVec 5) (a : BitVec 5) (imm : BitVec 15)
  /-- ST_D (R106): Store a doubleword. -/
  | stD (st : Nat) (d : BitVec 5) (a : BitVec 5) (imm : BitVec 15)
  /-- VLD (R125): Load 128 bytes into a vector register, checked sector by sector. -/
  | vld (st : Nat) (d : BitVec 5) (a : BitVec 5) (imm : BitVec 15)
  /-- VST (R125): Store 128 bytes from a vector register, checked sector by sector. -/
  | vst (st : Nat) (d : BitVec 5) (a : BitVec 5) (imm : BitVec 15)
  /-- VSTP (R106): Store the bytes of vD whose predicate bit is 1 at ga + gb. -/
  | vstp (st : Nat) (d : BitVec 5) (a : BitVec 5) (b : BitVec 5) (p : BitVec 3)
  /-- BEQ (R106): Branch to pc + 4 × OFF if ga = gb. -/
  | beq (st : Nat) (a : BitVec 5) (b : BitVec 5) (off : BitVec 15)
  /-- BNE (R106): Branch if ga ≠ gb. -/
  | bne (st : Nat) (a : BitVec 5) (b : BitVec 5) (off : BitVec 15)
  /-- BLT (R106): Branch if ga < gb signed. -/
  | blt (st : Nat) (a : BitVec 5) (b : BitVec 5) (off : BitVec 15)
  /-- BGE (R106): Branch if ga ≥ gb signed. -/
  | bge (st : Nat) (a : BitVec 5) (b : BitVec 5) (off : BitVec 15)
  /-- BLTU (R106): Branch if ga < gb unsigned. -/
  | bltu (st : Nat) (a : BitVec 5) (b : BitVec 5) (off : BitVec 15)
  /-- BGEU (R106): Branch if ga ≥ gb unsigned. -/
  | bgeu (st : Nat) (a : BitVec 5) (b : BitVec 5) (off : BitVec 15)
  /-- JAL (R106): gd = pc + 4; jump to pc + 4 × OFF. -/
  | jal (st : Nat) (d : BitVec 5) (off : BitVec 20)
  /-- JALR (R106): gd = pc + 4; jump to ga + IMM with bits [1:0] cleared. -/
  | jalr (st : Nat) (d : BitVec 5) (a : BitVec 5) (imm : BitVec 15)
  /-- FENCE (R129): Order earlier loads and stores before later ones by the LL, LS, SL and SS mask, waiting as needed. -/
  | fence (st : Nat) (mask : BitVec 4)
  /-- SRD (R100): Read a special register into gd. -/
  | srd (st : Nat) (d : BitVec 5) (idx : BitVec 8)
  /-- SWR (R101): Write a special register according to its access class, E_ILLEGAL for RO ones. -/
  | swr (st : Nat) (a : BitVec 5) (idx : BitVec 8)
  /-- FADD (R108): Scalar FP32 add. -/
  | fadd (st : Nat) (d : BitVec 5) (a : BitVec 5) (b : BitVec 5)
  /-- FSUB (R108): Scalar FP32 subtract. -/
  | fsub (st : Nat) (d : BitVec 5) (a : BitVec 5) (b : BitVec 5)
  /-- FMUL (R108): Scalar FP32 multiply. -/
  | fmul (st : Nat) (d : BitVec 5) (a : BitVec 5) (b : BitVec 5)
  /-- FDIV (R114): Scalar FP32 divide, rounded once. -/
  | fdiv (st : Nat) (d : BitVec 5) (a : BitVec 5) (b : BitVec 5)
  /-- FSQRT (R114): Scalar FP32 square root with the special cases of R114. -/
  | fsqrt (st : Nat) (d : BitVec 5) (a : BitVec 5)
  /-- FMIN (R108): Scalar FP32 minimum under R48. -/
  | fmin (st : Nat) (d : BitVec 5) (a : BitVec 5) (b : BitVec 5)
  /-- FMAX (R108): Scalar FP32 maximum under R48. -/
  | fmax (st : Nat) (d : BitVec 5) (a : BitVec 5) (b : BitVec 5)
  /-- FEQ (R108): Scalar FP32 equality test. -/
  | feq (st : Nat) (d : BitVec 5) (a : BitVec 5) (b : BitVec 5)
  /-- FLT (R108): Scalar FP32 less-than test. -/
  | flt (st : Nat) (d : BitVec 5) (a : BitVec 5) (b : BitVec 5)
  /-- FLE (R108): Scalar FP32 less-or-equal test. -/
  | fle (st : Nat) (d : BitVec 5) (a : BitVec 5) (b : BitVec 5)
  /-- FCVT_F_I (R108): Convert signed 64-bit ga to FP32. -/
  | fcvtFI (st : Nat) (d : BitVec 5) (a : BitVec 5)
  /-- FCVT_I_F (R49): Convert FP32 ga to signed 64-bit with the saturation and INV rules. -/
  | fcvtIF (st : Nat) (d : BitVec 5) (a : BitVec 5)
  /-- FMADD (R108): Fused gd = ga × gb + gd. -/
  | fmadd (st : Nat) (d : BitVec 5) (a : BitVec 5) (b : BitVec 5)
  /-- AADD (R109): Issue a memory-side atomic add of gb at address ga. -/
  | aadd (st : Nat) (a : BitVec 5) (b : BitVec 5) (fn : BitVec 5)
  /-- ACAS (R109): Issue an atomic 64-bit compare and swap at the location's home. -/
  | acas (st : Nat) (d : BitVec 5) (a : BitVec 5) (b : BitVec 5) (c : BitVec 5)
  /-- GET_WORK (R117): Retire the current event and wait with the clock gated until the groom assigns an event. -/
  | getWork (st : Nat) (d : BitVec 5) (c : BitVec 5)
  /-- EVDONE (R118): Retire the current event under release order without waiting for work. -/
  | evdone (st : Nat)
  /-- EVPUSH (R109): Put a push of vb[255:0] as an event to a queue or pen into the control issue queue. -/
  | evpush (st : Nat) (a : BitVec 5) (b : BitVec 5)
  /-- SEND (R119): Put a message to a stall mailbox or a pen of stalls into the control issue queue. -/
  | send (st : Nat) (a : BitVec 5) (b : BitVec 5)
  /-- HPUSH (R150): Put a push of a 64-bit buffer handle into the control issue queue. -/
  | hpush (st : Nat) (a : BitVec 5) (b : BitVec 5)
  /-- FSET (R109): Put a SET of a flag or pen into the control issue queue. -/
  | fset (st : Nat) (a : BitVec 5)
  /-- FCLR (R109): Put a CLEAR of a flag or pen into the control issue queue. -/
  | fclr (st : Nat) (a : BitVec 5)
  /-- FTEST (R109): Put a TEST of a flag or pen into the control issue queue; gd receives the value with acquire order. -/
  | ftest (st : Nat) (d : BitVec 5) (a : BitVec 5)
  /-- WATCH (R109): Put a request to arm a one-shot watch into the control issue queue; gd receives its identifier. -/
  | watch (st : Nat) (d : BitVec 5) (a : BitVec 5) (b : BitVec 5) (c : BitVec 5) (fn : BitVec 5)
  /-- WCANCEL (R109): Put a CANCEL of a watch into the control issue queue; gd tells whether it was cancelled. -/
  | wcancel (st : Nat) (d : BitVec 5) (a : BitVec 5)
  /-- UCMD (R109): Put a descriptor of n × 32 bytes to a DMA engine, sampler or row engine into the control issue queue. -/
  | ucmd (st : Nat) (a : BitVec 5) (b : BitVec 5) (fn : BitVec 5)
  /-- MX_INSTRUCTION (R109): Put a 32-byte MXA command with OP from FN into the control issue queue. -/
  | mxInstruction (st : Nat) (a : BitVec 5) (b : BitVec 5) (fn : BitVec 5)
  /-- VADD (R110): Vector add of active elements. -/
  | vadd (st : Nat) (d : BitVec 5) (a : BitVec 5) (b : BitVec 5) (p : BitVec 3) (et : BitVec 3)
  /-- VSUB (R110): Vector subtract. -/
  | vsub (st : Nat) (d : BitVec 5) (a : BitVec 5) (b : BitVec 5) (p : BitVec 3) (et : BitVec 3)
  /-- VMUL (R110): Vector multiply. -/
  | vmul (st : Nat) (d : BitVec 5) (a : BitVec 5) (b : BitVec 5) (p : BitVec 3) (et : BitVec 3)
  /-- VMIN (R110): Vector minimum. -/
  | vmin (st : Nat) (d : BitVec 5) (a : BitVec 5) (b : BitVec 5) (p : BitVec 3) (et : BitVec 3)
  /-- VMAX (R110): Vector maximum. -/
  | vmax (st : Nat) (d : BitVec 5) (a : BitVec 5) (b : BitVec 5) (p : BitVec 3) (et : BitVec 3)
  /-- VABS (R110): Vector absolute value. -/
  | vabs (st : Nat) (d : BitVec 5) (a : BitVec 5) (p : BitVec 3) (et : BitVec 3)
  /-- VNEG (R110): Vector negate. -/
  | vneg (st : Nat) (d : BitVec 5) (a : BitVec 5) (p : BitVec 3) (et : BitVec 3)
  /-- VADDS (R58): Saturating vector integer add, setting SAT. -/
  | vadds (st : Nat) (d : BitVec 5) (a : BitVec 5) (b : BitVec 5) (p : BitVec 3) (et : BitVec 3)
  /-- VSUBS (R58): Saturating vector integer subtract. -/
  | vsubs (st : Nat) (d : BitVec 5) (a : BitVec 5) (b : BitVec 5) (p : BitVec 3) (et : BitVec 3)
  /-- VMULS (R58): Saturating vector integer multiply. -/
  | vmuls (st : Nat) (d : BitVec 5) (a : BitVec 5) (b : BitVec 5) (p : BitVec 3) (et : BitVec 3)
  /-- VABSS (R58): Saturating vector integer absolute value. -/
  | vabss (st : Nat) (d : BitVec 5) (a : BitVec 5) (p : BitVec 3) (et : BitVec 3)
  /-- VNEGS (R58): Saturating vector integer negate. -/
  | vnegs (st : Nat) (d : BitVec 5) (a : BitVec 5) (p : BitVec 3) (et : BitVec 3)
  /-- VAND (R110): Vector bitwise AND. -/
  | vand (st : Nat) (d : BitVec 5) (a : BitVec 5) (b : BitVec 5) (p : BitVec 3) (et : BitVec 3)
  /-- VOR (R110): Vector bitwise OR. -/
  | vor (st : Nat) (d : BitVec 5) (a : BitVec 5) (b : BitVec 5) (p : BitVec 3) (et : BitVec 3)
  /-- VXOR (R110): Vector bitwise XOR. -/
  | vxor (st : Nat) (d : BitVec 5) (a : BitVec 5) (b : BitVec 5) (p : BitVec 3) (et : BitVec 3)
  /-- VMOV (R110): Copy va into the active elements of vd. -/
  | vmov (st : Nat) (d : BitVec 5) (a : BitVec 5) (p : BitVec 3) (et : BitVec 3)
  /-- VSHL (R58): Vector left shift by per-element counts. -/
  | vshl (st : Nat) (d : BitVec 5) (a : BitVec 5) (b : BitVec 5) (p : BitVec 3) (et : BitVec 3)
  /-- VSHR (R58): Vector logical right shift by per-element counts. -/
  | vshr (st : Nat) (d : BitVec 5) (a : BitVec 5) (b : BitVec 5) (p : BitVec 3) (et : BitVec 3)
  /-- VSRA (R58): Vector arithmetic right shift by per-element counts. -/
  | vsra (st : Nat) (d : BitVec 5) (a : BitVec 5) (b : BitVec 5) (p : BitVec 3) (et : BitVec 3)
  /-- VDIV (R114): Vector divide, exact result rounded once. -/
  | vdiv (st : Nat) (d : BitVec 5) (a : BitVec 5) (b : BitVec 5) (p : BitVec 3) (et : BitVec 3)
  /-- VSQRT (R114): Vector square root with the special cases of R114. -/
  | vsqrt (st : Nat) (d : BitVec 5) (a : BitVec 5) (p : BitVec 3) (et : BitVec 3)
  /-- VRCP (R114): Vector reciprocal. -/
  | vrcp (st : Nat) (d : BitVec 5) (a : BitVec 5) (p : BitVec 3) (et : BitVec 3)
  /-- VRSQRT (R114): Vector reciprocal square root. -/
  | vrsqrt (st : Nat) (d : BitVec 5) (a : BitVec 5) (p : BitVec 3) (et : BitVec 3)
  /-- VEXP2 (R114): Vector 2 to the x. -/
  | vexp2 (st : Nat) (d : BitVec 5) (a : BitVec 5) (p : BitVec 3) (et : BitVec 3)
  /-- VEXPE (R114): Vector e to the x. -/
  | vexpe (st : Nat) (d : BitVec 5) (a : BitVec 5) (p : BitVec 3) (et : BitVec 3)
  /-- VLOG2 (R114): Vector base-2 logarithm. -/
  | vlog2 (st : Nat) (d : BitVec 5) (a : BitVec 5) (p : BitVec 3) (et : BitVec 3)
  /-- VLN (R114): Vector natural logarithm. -/
  | vln (st : Nat) (d : BitVec 5) (a : BitVec 5) (p : BitVec 3) (et : BitVec 3)
  /-- VEXPD (R114): Vector e^(va − vb) with the difference formed exactly. -/
  | vexpd (st : Nat) (d : BitVec 5) (a : BitVec 5) (b : BitVec 5) (p : BitVec 3) (et : BitVec 3)
  /-- VCMP_EQ (R110): Vector equality compare into a predicate register. -/
  | vcmpEq (st : Nat) (d : BitVec 5) (a : BitVec 5) (b : BitVec 5) (p : BitVec 3) (et : BitVec 3)
  /-- VCMP_NE (R110): Vector not-equal compare. -/
  | vcmpNe (st : Nat) (d : BitVec 5) (a : BitVec 5) (b : BitVec 5) (p : BitVec 3) (et : BitVec 3)
  /-- VCMP_LT (R110): Vector less-than compare. -/
  | vcmpLt (st : Nat) (d : BitVec 5) (a : BitVec 5) (b : BitVec 5) (p : BitVec 3) (et : BitVec 3)
  /-- VCMP_LE (R110): Vector less-or-equal compare. -/
  | vcmpLe (st : Nat) (d : BitVec 5) (a : BitVec 5) (b : BitVec 5) (p : BitVec 3) (et : BitVec 3)
  /-- VCMP_LTU (R110): Unsigned vector less-than compare. -/
  | vcmpLtu (st : Nat) (d : BitVec 5) (a : BitVec 5) (b : BitVec 5) (p : BitVec 3) (et : BitVec 3)
  /-- VCMP_LEU (R110): Unsigned vector less-or-equal compare. -/
  | vcmpLeu (st : Nat) (d : BitVec 5) (a : BitVec 5) (b : BitVec 5) (p : BitVec 3) (et : BitVec 3)
  /-- VCMP_ISNAN (R110): Vector test for NaN. -/
  | vcmpIsnan (st : Nat) (d : BitVec 5) (a : BitVec 5) (p : BitVec 3) (et : BitVec 3)
  /-- VCMP_ISINF (R110): Vector test for infinity. -/
  | vcmpIsinf (st : Nat) (d : BitVec 5) (a : BitVec 5) (p : BitVec 3) (et : BitVec 3)
  /-- VCVT (R115): Convert vector elements between formats, narrowing, widening or at the same width. -/
  | vcvt (st : Nat) (d : BitVec 5) (a : BitVec 5) (b : BitVec 5) (p : BitVec 3) (et : BitVec 3) (fn : BitVec 4)
  /-- VFMA (R106): Fused vd = va × vb + vc. -/
  | vfma (st : Nat) (d : BitVec 5) (a : BitVec 5) (b : BitVec 5) (c : BitVec 5) (p : BitVec 3) (ft : BitVec 2)
  /-- VFMS (R106): Fused vd = va × vb − vc. -/
  | vfms (st : Nat) (d : BitVec 5) (a : BitVec 5) (b : BitVec 5) (c : BitVec 5) (p : BitVec 3) (ft : BitVec 2)
  /-- VCLAMP (R106): vd = min(max(va, vb), vc). -/
  | vclamp (st : Nat) (d : BitVec 5) (a : BitVec 5) (b : BitVec 5) (c : BitVec 5) (p : BitVec 3) (ft : BitVec 2)
  /-- VRAND (R123): Compute 8 Philox blocks from RNG_CTR into vd and add 8 to RNG_CTR. -/
  | vrand (st : Nat) (d : BitVec 5) (fn : BitVec 4)
  /-- VRANDC (R123): Compute 8 Philox blocks from the counter in va, leaving RNG_CTR unchanged. -/
  | vrandc (st : Nat) (d : BitVec 5) (a : BitVec 5) (fn : BitVec 4)
  /-- VRED_RSUM (R113): Pairwise tree sum of active elements into a g register. -/
  | vredRsum (st : Nat) (d : BitVec 5) (a : BitVec 5) (p : BitVec 3) (et : BitVec 3)
  /-- VRED_RMAX (R113): Pairwise tree maximum of active elements. -/
  | vredRmax (st : Nat) (d : BitVec 5) (a : BitVec 5) (p : BitVec 3) (et : BitVec 3)
  /-- VRED_RMIN (R113): Pairwise tree minimum of active elements. -/
  | vredRmin (st : Nat) (d : BitVec 5) (a : BitVec 5) (p : BitVec 3) (et : BitVec 3)
  /-- VBCAST (R106): Broadcast the low bits of ga into every active element. -/
  | vbcast (st : Nat) (d : BitVec 5) (a : BitVec 5) (p : BitVec 3) (et : BitVec 3)
  /-- VPERM (R106): Permute the elements of va by the indices in vb. -/
  | vperm (st : Nat) (d : BitVec 5) (a : BitVec 5) (b : BitVec 5) (p : BitVec 3) (et : BitVec 3)
  /-- VCVTMX (R116): Convert 32 FP32 elements into one MX block placed in vb, with the scale in a g register. -/
  | vcvtmx (st : Nat) (d : BitVec 5) (a : BitVec 5) (b : BitVec 5) (fn : BitVec 5)
  /-- PAND (R111): Predicate AND. -/
  | pand (st : Nat) (d : BitVec 5) (a : BitVec 5) (b : BitVec 5)
  /-- POR (R111): Predicate OR. -/
  | por (st : Nat) (d : BitVec 5) (a : BitVec 5) (b : BitVec 5)
  /-- PXOR (R111): Predicate XOR. -/
  | pxor (st : Nat) (d : BitVec 5) (a : BitVec 5) (b : BitVec 5)
  /-- PNOT (R111): Predicate NOT. -/
  | pnot (st : Nat) (d : BitVec 5) (a : BitVec 5)
  /-- PCNT (R111): Make the first g elements active in a predicate. -/
  | pcnt (st : Nat) (d : BitVec 5) (a : BitVec 5) (et : BitVec 3)
  /-- VGET (R106): Extract element gb mod lanes of va into gd. -/
  | vget (st : Nat) (d : BitVec 5) (a : BitVec 5) (b : BitVec 5) (et : BitVec 3)
  /-- LOAD_VALUE_RETURN (R126): An outstanding load, store or atomic outside local memory completes and frees its tag. -/
  | loadValueReturn (st : Nat) (k : Nat)
  /-- CONTROL_ISSUE (R121): The head of a stall's control issue queue leaves once release order holds and its target accepts it. -/
  | controlIssue (st : Nat)
  /-- SET (R135): A SET is performed at the flag's home in its total order. -/
  | flagSet (k : Nat)
  /-- CLEAR (R135): A CLEAR is performed at the flag's home. -/
  | flagClear (k : Nat)
  /-- TEST (R135): A TEST reads the flag at its home and returns the value. -/
  | flagTest (k : Nat)
  /-- WATCH_ARM (R138): A WATCH takes a slot at the flag's home and fires at once if the flag holds the value. -/
  | watchArm (k : Nat)
  /-- CANCEL (R140): A CANCEL disarms an armed watch and frees its slot, or returns 0. -/
  | watchCancel (k : Nat)
  /-- PEN_OPERATION (R30): An operation addressed to a pen is expanded at its home shed and forwarded to each member in order. -/
  | penOperation (k : Nat)
  /-- PEN_SUBWATCH_REPORT (R143): A report reaches a pen sub-watch, which reports upward or fires the barrier once all members reported. -/
  | penSubwatchReport (k : Nat)
  /-- EVENT_PUSH (R149): A push is accepted by a queue with a free entry, or refused for a disabled or joined queue. -/
  | eventPush (k : Nat)
  /-- MAILBOX_DELIVERY (R119): A message is accepted into the target stall's mailbox when it has room. -/
  | mailboxDelivery (k : Nat)
  /-- DELAY_ENTRY_DUE (R155): A delay-list entry falls due at its tick and moves to its queue or mailbox when the target accepts. -/
  | delayEntryDue (sh : Nat) (k : Nat)
  /-- DISPATCH (R153): Each cycle the groom delivers at most one dispatchable event to the longest-waiting eligible stall. -/
  | dispatch (sh : Nat)
  /-- SHED_SLEEP (R32): A shed gates its stalls and engines after the idle conditions have held for 20 µs. -/
  | shedSleep (sh : Nat)
  /-- SHED_WAKE (R33): A sleeping shed wakes for a dispatchable event, an arriving command or 2 µs before a delay deadline. -/
  | shedWake (sh : Nat)
  /-- MX_LOADW (R75): An MX.LOADW command arrives at the MXA, passes its issue checks and enters the queue. -/
  | mxLoadw (k : Nat)
  /-- MX_STREAM (R76): An MX.STREAM command arrives at the MXA, passes its issue checks and enters the queue. -/
  | mxStream (k : Nat)
  /-- MX_SPSTREAM (R78): An MX.SPSTREAM command arrives at the MXA, passes its issue checks and enters the queue. -/
  | mxSpstream (k : Nat)
  /-- MX_DRAIN (R82): An MX.DRAIN command arrives at the MXA, passes its issue checks and enters the queue. -/
  | mxDrain (k : Nat)
  /-- MX_RESET (R85): An MX.RESET command arrives at the MXA and enters the queue, kept even behind a failure. -/
  | mxReset (k : Nat)
  /-- MXA_COMMAND_START (R86): A queued MXA command starts when its engine is free and its hazards clear, after its start checks. -/
  | mxaCommandStart (sh : Nat)
  /-- STREAM_ROW_FINAL (R86): A stream row becomes final 160 cycles after its last chunk entry, letting a waiting drain read it. -/
  | streamRowFinal (sh : Nat) (tileB : Bool)
  /-- MXA_COMMAND_COMPLETE (R73): An MXA command completes and performs its flag set or handle push once. -/
  | mxaCommandComplete (sh : Nat) (eng : Nat)
  /-- SAMPLE (R167): A SAMPLE descriptor arrives at the sampler, passes its issue checks and is queued, interrupting run-ahead. -/
  | sample (k : Nat)
  /-- SCORE (R178): A SCORE descriptor arrives at the sampler, passes its issue checks and is queued. -/
  | score (k : Nat)
  /-- SAMPLER_DESCRIPTOR_START (R169): The sampler starts its next foreground descriptor and captures its table versions. -/
  | samplerDescriptorStart (sh : Nat)
  /-- SAMPLER_DESCRIPTOR_COMPLETE (R182): A descriptor's outputs are checked against capacities, written, and its completion performed, or it fails. -/
  | samplerDescriptorComplete (sh : Nat)
  /-- RUNAHEAD_COMPUTE (R185): With its queue empty the sampler computes the template for the next steps into its staging slots. -/
  | runaheadCompute (sh : Nat)
  /-- PREFETCH_HINT (R221): A prefetch hint reaches a row engine and fills a line if the window has room, or is dropped. -/
  | prefetchHint (k : Nat)
  /-- GATHER (R205): A GATHER descriptor arrives at its coordinator row engine and is queued. -/
  | gather (k : Nat)
  /-- POOL (R206): A POOL descriptor arrives at its coordinator and is queued. -/
  | pool (k : Nat)
  /-- REPLAY (R207): A REPLAY descriptor arrives at its coordinator and is queued. -/
  | replay (k : Nat)
  /-- SCATTER (R208): A SCATTER descriptor arrives at its coordinator and is queued. -/
  | scatter (k : Nat)
  /-- FLUSH (R216): A FLUSH descriptor arrives to send touched replica gradient rows home. -/
  | flush (k : Nat)
  /-- APPLY_ORDERED (R209): An APPLY_ORDERED descriptor arrives to add the order buffer in key order. -/
  | applyOrdered (k : Nat)
  /-- OPT8 (R226): An OPT8 descriptor arrives at its coordinator and is queued. -/
  | opt8 (k : Nat)
  /-- TSWITCH (R199): A TSWITCH descriptor requests a table version switch and completes when the request is accepted. -/
  | tswitch (k : Nat)
  /-- REPLICATE (R214): A REPLICATE descriptor arrives to refresh every replica from its home. -/
  | replicate (k : Nat)
  /-- MIGRATE (R218): A MIGRATE descriptor arrives and waits for the next step boundary. -/
  | migrate (k : Nat)
  /-- ROW_DESCRIPTOR_START (R196): A coordinator starts a partition's next descriptor in queue order and captures its table versions. -/
  | rowDescriptorStart (e : Nat) (p : Nat)
  /-- ROW_DESCRIPTOR_COMPLETE (R196): A row-engine descriptor completes by signal on acknowledgement, or fails at an entry. -/
  | rowDescriptorComplete (e : Nat) (p : Nat)
  /-- MIGRATE_COPY (R218): At the boundary each listed row is copied to its destination slot and a forwarding entry installed. -/
  | migrateCopy (e : Nat) (p : Nat)
  /-- REQUEST_ENTER_WINDOW (R195): A sector request enters an engine's window, or waits while it is full. -/
  | requestEnterWindow (st : Nat) (k : Nat) (j : Nat)
  /-- SECTOR_ACCESS (R195): The channel performs one sector access chosen by the arbitration, with ECC decode. -/
  | sectorAccess (e : Nat) (k : Nat) (errs : List (Nat × BitVec 8))
  /-- ATOMIC_AT_HOME (R212): An AADD or ACAS is performed as a read-modify-write at the location's home. -/
  | atomicAtHome (st : Nat) (k : Nat)
  /-- HOT_ROWS_READ (R213): A read of HOT_ROWS returns the space-saving count and restarts it. -/
  | hotRowsRead
  /-- CACHE_COUNTER_HALVE (R220): Every 2²⁴ accesses to an engine halves every row-cache use counter. -/
  | cacheCounterHalve (e : Nat)
  /-- COPY (R224): A DMA COPY descriptor arrives at the shed's DMA engine and is queued. -/
  | copy (k : Nat)
  /-- COMPRESS (R225): A DMA COMPRESS descriptor arrives and is queued. -/
  | compress (k : Nat)
  /-- EXPAND (R225): A DMA EXPAND descriptor arrives and is queued. -/
  | expand (k : Nat)
  /-- DMA_DESCRIPTOR_START (R224): The DMA engine starts its next descriptor in order. -/
  | dmaDescriptorStart (sh : Nat)
  /-- DMA_DESCRIPTOR_COMPLETE (R145): A DMA descriptor completes and performs its signal after its writes are visible, or fails. -/
  | dmaDescriptorComplete (sh : Nat)
  /-- TABLE_DESC_PEND (R199): A write of PEND in TABLE_DESC requests or withdraws a table switch. -/
  | tableDescPend
  /-- REFRESH (R248): A per-bank refresh falls due and is issued, postponed or forced after 8 postponements. -/
  | refresh (k : Nat) (ch : Nat) (pc : Nat) (postpone : Bool)
  /-- STACK_TEMPERATURE_READ (R247): Every 1 ms the ostler reads a stack's sensor and sets its refresh mode, or enters Fault above 105 °C. -/
  | stackTemperatureRead (k : Nat) (reading : Int)
  /-- RECALIBRATION (R249): A due PHY recalibration runs in an idle gap or is forced after 100 ms. -/
  | recalibration (k : Nat) (ch : Nat)
  /-- PATROL_SCRUB (R250): Patrol scrub reads the next sector, corrects or poisons it and advances its position. -/
  | patrolScrub (k : Nat) (errs : List (Nat × BitVec 8))
  /-- FRAME_CLEARING (R240): A released frame is written with zeros and fresh checks, and becomes free or clears CLEARING when done. -/
  | frameClearing (y : Nat) (f : Nat)
  /-- HBM_LAYOUT_WRITE (R239): A write of HBM_LAYOUT takes or releases granules, or is refused if it breaks R237. -/
  | hbmLayoutWrite
  /-- FLIT_SEND (R255): A port sends the next 256-byte data, idle or control flit every 1.28 ns with ACK and credits. -/
  | flitSend (k : Nat)
  /-- FLIT_RECEIVE (R257): A flit is received, CRC and SEQ checked, accepted, discarded or answered with NAK or NRDY: the flit, and the codewords that the FEC corrected and lost. -/
  | flitReceive (k : Nat) (flit : BitVec 2048 × Nat × Nat)
  /-- REPLAY_TIMEOUT (R258): The oldest unacknowledged flit goes 2 µs without acknowledgement and the sender replays. -/
  | replayTimeout (k : Nat)
  /-- NRDY_RETRY (R261): After an NRDY answer the sender waits 100 µs and replays. -/
  | nrdyRetry (k : Nat)
  /-- TRAINING_ATTEMPT (R259): A training attempt runs after its backoff and brings the port up or fails. -/
  | trainingAttempt (k : Nat) (ok : Bool) (partner : Nat) (pport : Nat)
  /-- LINK_DOWN (R262): A port's link goes down, leaving queued packets in place. -/
  | linkDown (k : Nat)
  /-- FAILOVER (R275): After FAILOVER_MS down, each flow with no unacknowledged flit moves to the twin port. -/
  | failover (k : Nat)
  /-- FLOW_MOVE_BACK (R275): When a port comes up its flows move back under the same rule. -/
  | flowMoveBack (k : Nat)
  /-- WRITE (R267): A WRITE packet is applied at its destination's partition HBM. -/
  | pktWrite (k : Nat) (j : Nat)
  /-- FLAG_ON_LAST_TRAILER (R268): A trailer is applied once every byte of its transfer is written, or its push is deferred. -/
  | flagOnLastTrailer (k : Nat)
  /-- READ (R267): A READ packet of raw bytes or one table row is served by the home. -/
  | pktRead (k : Nat) (j : Nat)
  /-- READ_RESP (R267): A READ_RESP lands in the requester's space; the read completes when every byte is held. -/
  | pktReadResp (k : Nat) (j : Nat)
  /-- ROW_ATOMIC (R267): A ROW_ATOMIC row add is performed at its home engine. -/
  | pktRowAtomic (k : Nat) (j : Nat)
  /-- MESSAGE_EVPUSH (R267): A remote EVPUSH is pushed to its queue or pen at the destination. -/
  | messageEvpush (k : Nat) (j : Nat)
  /-- MESSAGE_HPUSH (R267): A remote handle push is pushed to its queue at the destination. -/
  | messageHpush (k : Nat) (j : Nat)
  /-- MESSAGE_SEND (R267): A remote SEND is delivered to its stall mailbox. -/
  | messageSend (k : Nat) (j : Nat)
  /-- MESSAGE_RESULT (R267): The result of a remote TEST, WATCH or CANCEL returns to the waiting stall. -/
  | messageResult (k : Nat) (j : Nat)
  /-- MESSAGE_ACK (R269): An ACK of a WRITE transfer or ROW_ATOMIC row frees its tag, and may defer a trailer push. -/
  | messageAck (k : Nat) (j : Nat)
  /-- MESSAGE_NACK (R271): A NACK reaches the issuer and fails its descriptor or raises an error event. -/
  | messageNack (k : Nat) (j : Nat)
  /-- FLAG_SET_PACKET (R137): A remote FLAG_SET packet of SUB SET, CLEAR, TEST, WATCH or CANCEL is performed at the flag's home. -/
  | flagSetPacket (k : Nat) (j : Nat)
  /-- TRANSACTION_TIMEOUT (R272): A transaction older than TXN_LIMIT_MS completes with E_TIMEOUT and frees its tag. -/
  | transactionTimeout (tag : Nat)
  /-- MGMT_REQUEST (R267): A MGMT request packet reaches the ostler and waits to be served if LLYN_MGMT is enabled. -/
  | mgmtRequest (k : Nat) (j : Nat)
  /-- TIME_EXCHANGE (R279): Every 1 ms a link measures its delay and the child steps or slews fabric time: when the flit was sent here, and when it came there and its answer was sent. -/
  | timeExchange (k : Nat) (sent : Nat) (far : Nat × Nat)
  /-- COLLECTIVE_START (R284): The collective engine finds START at 1, clears it and begins an instance. -/
  | collectiveStart (p : Nat) (n : Nat)
  /-- COLLECTIVE_CONTRIBUTION (R285): A contribution packet is added into ACC or written to OBUF at the owner. -/
  | collectiveContribution (k : Nat) (j : Nat)
  /-- COLLECTIVE_RESULT (R285): A result packet of a shard is written at a receiving rank. -/
  | collectiveResult (k : Nat) (j : Nat)
  /-- COLLECTIVE_CHAIN_SUM (R287): A chain-sum packet is added at the next rank or held in OBUF. -/
  | collectiveChainSum (k : Nat) (j : Nat)
  /-- COLLECTIVE_SIDECAR (R288): A sidecar packet is added exactly; the instance completes when all shards and sidecars are held. -/
  | collectiveSidecar (k : Nat) (j : Nat)
  /-- VSTART_DETECTED (R300): The verdict engine finds VSTART at 1, clears it and waits for the step's plans. -/
  | vstartDetected (p : Nat)
  /-- REGION_SCAN (R300): After the plans complete the engine scans the regions, forms c₀ and starts the tail instance. -/
  | regionScan (p : Nat)
  /-- VERDICT (R302): The tail instance completes and the verdict is formed, written, signalled and pushed. -/
  | verdict (p : Nat)
  /-- STEP_BOUNDARY (R297): With the verdict formed and APPLY_DONE set the step closes: counters, CUR flips and switches apply. -/
  | stepBoundary (p : Nat)
  /-- ALT_FREE_SET (R307): The engine sets ALT_FREE once no capture or mirror holds an alternate copy. -/
  | altFreeSet (p : Nat)
  /-- MIRROR_START (R314): A due mirror chooses its slot, zeroes COMMIT and writes header and data to the buddy. -/
  | mirrorStart (p : Nat)
  /-- MIRROR_COMMIT (R314): When every data write is acknowledged the mirror writes COMMIT and pushes TEV 0x3. -/
  | mirrorCommit (p : Nat)
  /-- MIRROR_FAILED (R314): A mirror that meets a refusal or timeout pushes TEV 0x4 and restarts. -/
  | mirrorFailed (p : Nat)
  /-- MIRROR_CTRL_NOW (R314): A set of NOW requests an unscheduled mirror into slot 2. -/
  | mirrorCtrlNow
  /-- OD_READ (R330): A READ message returns an object's whole value. -/
  | odRead
  /-- OD_WRITE (R330): A WRITE message writes an object's whole value after the checks of R400. -/
  | odWrite
  /-- BLOB_READ (R330): A BLOB_READ returns DLEN bytes at OFFSET. -/
  | blobRead
  /-- BLOB_WRITE (R330): A BLOB_WRITE writes DLEN bytes at OFFSET in one cycle. -/
  | blobWrite
  /-- ACQUIRE (R328): An ACQUIRE grants, renews or refuses a semaphore lease. -/
  | acquire
  /-- RENEW (R328): A RENEW by the holder restarts the lease's 10 s. -/
  | renew
  /-- RELEASE (R328): A RELEASE by the holder frees the semaphore. -/
  | release
  /-- LEASE_EXPIRY (R328): A lease runs out, the semaphore becomes free, LEASE_EXPIRED rises and a log entry is written. -/
  | leaseExpiry (m : Nat)
  /-- MGMT_DATAGRAM (R332): A UDP datagram reaches the management port and is queued, answered from the store, or discarded. -/
  | mgmtDatagram (src : Nat) (port : Nat) (data : List (BitVec 8))
  /-- MBOX_GO (R337): A set of GO in MBOX_CTRL submits the mailbox request for service. -/
  | mboxGo (fn : Nat)
  /-- SQ_TAIL (R339): A write of SQ_TAIL is accepted or ignored with DB_IGNORED and DB_DROP. -/
  | sqTail (p : Nat) (t : BitVec 32)
  /-- CQ_HEAD (R339): A write of CQ_HEAD is accepted or ignored and counted. -/
  | cqHead (p : Nat) (t : BitVec 32)
  /-- ENTRY_FETCH (R340): The I/O die fetches the next submission entry and turns it into an event or an entry completion. -/
  | entryFetch (p : Nat) (entry : BitVec 512)
  /-- COMPLETION_WRITE (R343): A pending device or software completion is written to the CQ when it has room. -/
  | completionWrite (p : Nat)
  /-- MSIX_RAISE (R344): An MSI-X interrupt is raised once COUNT completions are unsignalled or DELAY µs has passed. -/
  | msixRaise (p : Nat)
  /-- BAR4_ACCESS (R336): A host BAR4 read or write is performed through the row engines, or completes as Unsupported Request. -/
  | bar4Access (fn : Nat) (write : Bool) (off : Nat) (len : Nat) (data : List (BitVec 8))
  /-- MMIO_REGISTER_WRITE (R11): A host write to a BAR0 control register with no row of its own, ignoring reserved bits. -/
  | mmioRegisterWrite (fn : Nat) (off : Nat) (val : List (BitVec 8))
  /-- SHEDS_WRITE (R346): A write of SHEDS gives, changes or frees a partition's sheds. -/
  | shedsWrite
  /-- RING_CONFIG_WRITE (R346): A write of a ring base or size resets both of its counts to 0. -/
  | ringConfigWrite
  /-- START (R347): A set of START in PART_CTRL runs the loader or is refused. -/
  | start
  /-- STOP (R347): A set of STOP in PART_CTRL moves a running partition to stopping. -/
  | stop
  /-- LOAD_END (R351): The loader ends its checks and writes the image, or fails with LOAD_STATUS and LOAD_FAILED. -/
  | loadEnd (p : Nat)
  /-- PARTITION_STOPPED (R347): Once issued work has completed a stopping partition reaches STATE 1 with a device completion. -/
  | partitionStopped (p : Nat)
  /-- NAN_TRAP_REARM (R66): A set of REARM clears NAN_RECORD, keeping any event of the same cycle. -/
  | nanTrapRearm
  /-- STALL_FAULT_REARM (R132): A set of REARM in STALL_FAULT_CTRL clears STALL_FAULT. -/
  | stallFaultRearm
  /-- PERST_N (R357): Assertion of PERST_N resets the host port without changing seasons, partitions or objects. -/
  | perstN (asserted : Bool)
  /-- POWER_GOOD (R377): Input power becomes good: the ostler boots and takes an ON request or enters Winter. -/
  | powerGood (modEn : Bool) (recoveryN : Bool) (flashWpN : Bool)
  /-- VIN_LOW (R358): VIN below 38 V for 50 µs puts the module in Fault. -/
  | vinLow
  /-- POWER_LOSS (R358): Below 30 V the ostler stops and the module is off. -/
  | powerLoss
  /-- MOD_EN_EDGE (R372): A debounced MOD_EN rising or falling edge makes an ON or OFF request. -/
  | modEnEdge (rising : Bool)
  /-- ON (R373): A set of ON in SEASON_CTRL becomes the pending request. -/
  | seasonOn
  /-- OFF (R373): A set of OFF in SEASON_CTRL becomes the pending request. -/
  | seasonOff
  /-- FAULT_CLEAR (R375): A set of FAULT_CLEAR is held until conditions allow the move from Fault to Winter. -/
  | faultClear
  /-- SAFE_END (R372): A sub-step reaches a safe end, the pending request is examined and the next sub-step or state begins. -/
  | safeEnd (endOfStep : Bool) (ok : Bool) (mask : Nat)
  /-- FAULT_ENTER (R375): The module enters Fault at once, takes the rails down, asserts the pins and writes a fault record. -/
  | faultEnter (cause : Nat) (sensor : Nat) (reading : Int)
  /-- FAULT_EXIT (R375): With FAULT_CLEAR set and temperatures, VIN and regulators good the module enters Winter. -/
  | faultExit
  /-- RETRY_BACKOFF_EXPIRY (R378): A failed start step's backoff expires and the step is retried. -/
  | retryBackoffExpiry
  /-- BACKGROUND_RETRY (R378): A failed stack is retrained or a failed shed retested in the background. -/
  | backgroundRetry (stack : Bool) (k : Nat) (ok : Bool)
  /-- POWER_SAMPLE (R364): Every 100 µs the regulators report, the average and energy update and the cap loop acts. -/
  | powerSample (vin : Nat) (iin : Nat)
  /-- SENSOR_READ (R360): Every 100 µs the ostler reads die and regulator sensors and acts on thresholds. -/
  | sensorRead (yards : List Int) (other : Int) (regFault : Bool)
  /-- THERMAL_CEILING_UPDATE (R361): A yard's ceiling point falls each 1 ms while hot and rises each 10 ms while cool. -/
  | thermalCeilingUpdate (y : Nat)
  /-- DROOP (R367): A core-rail droop lowers the yard's shed clock by one step within 20 ns. -/
  | droop (y : Nat)
  /-- DROOP_RESTORE (R367): After 1 µs without droop the yard restores one frequency step. -/
  | droopRestore (y : Nat)
  /-- PWR_BRAKE (R368): PWR_BRAKE_N low forces point 0 and mt ≥ 8; release resumes the cap loop. -/
  | pwrBrake (low : Bool)
  /-- PERF_SEL_WRITE (R387): A write of PERF_SEL_n selects an event and sets COUNT to 0. -/
  | perfSelWrite
  /-- COMMIT (R383): A set of COMMIT in FW_CTRL checks FW_SLOT and writes its commit word, or logs FW_INVALID. -/
  | commit
  /-- RESTART (R383): A set of RESTART restarts the ostler once the module is in Winter or Fault. -/
  | restart
  /-- FW_SLOT_WRITE (R383): A write to FW_SLOT first clears its COMMIT, and is refused for the running slot. -/
  | fwSlotWrite
  /-- PERSIST_COMMIT (R384): 10 s after an unstored persistent write the ostler commits the other bank. -/
  | persistCommit
  /-- SHED_PARITY (R396): An uncorrectable error in shed state halts its partition and marks the shed failed. -/
  | shedParity (sh : Nat)
  /-- UNOWNED_STATE_ERROR (R396): An uncorrectable error in state no partition owns puts the module in Fault with HW_ERROR. -/
  | unownedStateError
  /-- INVALID_ENCODING (R105): A stall meets an instruction word with a reserved OPC or FN, or the word 0x0000_0000, and stops with E_ILLEGAL. -/
  | invalidEncoding (st : Nat) (w : BitVec 32)
  /-- FETCH_OUTSIDE_LOCAL_MEMORY (R131): A stall fetches at a pc outside its local memory and stops with E_FETCH. -/
  | fetchOutsideLocalMemory (st : Nat)
  /-- HOST_LINK_CHANGE (R357): The PCIe host link goes down or trains up again; fetching of entries and writing of completions pause and resume. -/
  | hostLinkChange (up : Bool)
  /-- MGMT_LINK_CHANGE (R377): 1000BASE-T auto-negotiation completes or the link is lost, which changes LINK.UP and whether datagrams are served. -/
  | mgmtLinkChange (up : Bool)
  /-- COUNTER_WRAP (R387): A cycle-driven 48-bit count, CYCLE or PERF_n, wraps to 0, sets its sticky WRAP bit and, with WRAP_LOG set, writes log entry 0x0D02. -/
  | counterWrap (kind : Nat) (k : Nat)
  /-- NUMVFS_WRITE (R334): The host writes NumVFs or the MSI-X enable in configuration space, which decides which VFs exist and where completion interrupts go: NumVFs, and the MSI-X enables with the sizes given to BAR4 of functions. -/
  | numvfsWrite (n : Nat) (cfg : Nat × List (Nat × Nat))
deriving DecidableEq, Repr

end Sys2Proof
end

