-- ==== Sys2Proof/Decode.lean ====
section
/-!
DEFINITION. Words.  The table gives no row any bits, so no word spells a command of the block (`decodeTableWord`).  The
stalls of the module have an encoding of their own (R104-R116): `decodeStallWord` spells a word of stall `st` as its
instruction, and finds the words that no instruction has (R105).
-/

namespace Sys2Proof

/-- The command a word spells by the table's bits: the table gives none. -/
def decodeTableWord (_nbits _w : Nat) : Option Instr := none

/-! ### Fields of a stall instruction (R104) -/

def opcF (w : BitVec 32) : Nat := (w.extractLsb' 25 7).toNat
def f20 (w : BitVec 32) : BitVec 5 := w.extractLsb' 20 5
def f15 (w : BitVec 32) : BitVec 5 := w.extractLsb' 15 5
def f10 (w : BitVec 32) : BitVec 5 := w.extractLsb' 10 5
def f5 (w : BitVec 32) : BitVec 5 := w.extractLsb' 5 5
def f0 (w : BitVec 32) : BitVec 5 := w.extractLsb' 0 5
def fnR (w : BitVec 32) : Nat := (w.extractLsb' 0 10).toNat
def immF (w : BitVec 32) : BitVec 15 := w.extractLsb' 0 15
def offF (w : BitVec 32) : BitVec 20 := w.extractLsb' 0 20
def pF (w : BitVec 32) : BitVec 3 := w.extractLsb' 7 3
def etF (w : BitVec 32) : BitVec 3 := w.extractLsb' 4 3
def fnV (w : BitVec 32) : BitVec 4 := w.extractLsb' 0 4
def pW (w : BitVec 32) : BitVec 3 := w.extractLsb' 2 3
def ftF (w : BitVec 32) : BitVec 2 := w.extractLsb' 0 2

/-- An instruction whose unused fields must be zero: none where `ok` fails (R105). -/
def whenZero (ok : Bool) (i : Instr) : Option Instr := if ok then some i else none

/-- Scalar integer group, OPC 0x01 (R107): FN[8] is the word form. -/
def decodeInt (st : Nat) (d a b : BitVec 5) (fn : Nat) : Option Instr :=
  match fn with
  | 0x000 => some (.add st d a b)
  | 0x001 => some (.sub st d a b)
  | 0x002 => some (.mul st d a b)
  | 0x003 => some (.mulh st d a b)
  | 0x004 => some (.mulhu st d a b)
  | 0x005 => some (.div st d a b)
  | 0x006 => some (.divu st d a b)
  | 0x007 => some (.rem st d a b)
  | 0x008 => some (.remu st d a b)
  | 0x009 => some (.and st d a b)
  | 0x00A => some (.or st d a b)
  | 0x00B => some (.xor st d a b)
  | 0x00C => some (.shl st d a b)
  | 0x00D => some (.shr st d a b)
  | 0x00E => some (.sra st d a b)
  | 0x00F => some (.slt st d a b)
  | 0x010 => some (.sltu st d a b)
  | 0x011 => whenZero (b = 0) (.neg st d a)
  | 0x012 => whenZero (b = 0) (.abs st d a)
  | 0x013 => some (.min st d a b)
  | 0x014 => some (.max st d a b)
  | 0x100 => some (.addw st d a b)
  | 0x101 => some (.subw st d a b)
  | 0x102 => some (.mulw st d a b)
  | 0x105 => some (.divw st d a b)
  | 0x106 => some (.divuw st d a b)
  | 0x107 => some (.remw st d a b)
  | 0x108 => some (.remuw st d a b)
  | 0x10C => some (.shlw st d a b)
  | 0x10D => some (.shrw st d a b)
  | 0x10E => some (.sraw st d a b)
  | 0x111 => whenZero (b = 0) (.negw st d a)
  | 0x112 => whenZero (b = 0) (.absw st d a)
  | _ => none

/-- Scalar FP32 group, OPC 0x2B (R108). -/
def decodeFp (st : Nat) (d a b : BitVec 5) (fn : Nat) : Option Instr :=
  match fn with
  | 0x0 => some (.fadd st d a b)
  | 0x1 => some (.fsub st d a b)
  | 0x2 => some (.fmul st d a b)
  | 0x3 => some (.fdiv st d a b)
  | 0x4 => whenZero (b = 0) (.fsqrt st d a)
  | 0x5 => some (.fmin st d a b)
  | 0x6 => some (.fmax st d a b)
  | 0x7 => some (.feq st d a b)
  | 0x8 => some (.flt st d a b)
  | 0x9 => some (.fle st d a b)
  | 0xA => whenZero (b = 0) (.fcvtFI st d a)
  | 0xB => whenZero (b = 0) (.fcvtIF st d a)
  | 0xC => some (.fmadd st d a b)
  | _ => none

/-- Vector arithmetic, OPC 0x40 (R110). -/
def decodeVa (st : Nat) (d a b : BitVec 5) (p et : BitVec 3) (fn : Nat) : Option Instr :=
  match fn with
  | 0x0 => some (.vadd st d a b p et)
  | 0x1 => some (.vsub st d a b p et)
  | 0x2 => some (.vmul st d a b p et)
  | 0x3 => some (.vmin st d a b p et)
  | 0x4 => some (.vmax st d a b p et)
  | 0x5 => whenZero (b = 0) (.vabs st d a p et)
  | 0x6 => whenZero (b = 0) (.vneg st d a p et)
  | 0x7 => some (.vadds st d a b p et)
  | 0x8 => some (.vsubs st d a b p et)
  | 0x9 => some (.vmuls st d a b p et)
  | 0xA => whenZero (b = 0) (.vabss st d a p et)
  | 0xB => whenZero (b = 0) (.vnegs st d a p et)
  | 0xC => some (.vand st d a b p et)
  | 0xD => some (.vor st d a b p et)
  | 0xE => some (.vxor st d a b p et)
  | _ => whenZero (b = 0) (.vmov st d a p et)

/-- Vector shifts, division and functions, OPC 0x41 (R110). -/
def decodeVb (st : Nat) (d a b : BitVec 5) (p et : BitVec 3) (fn : Nat) : Option Instr :=
  match fn with
  | 0x0 => some (.vshl st d a b p et)
  | 0x1 => some (.vshr st d a b p et)
  | 0x2 => some (.vsra st d a b p et)
  | 0x3 => some (.vdiv st d a b p et)
  | 0x4 => whenZero (b = 0) (.vsqrt st d a p et)
  | 0x5 => whenZero (b = 0) (.vrcp st d a p et)
  | 0x6 => whenZero (b = 0) (.vrsqrt st d a p et)
  | 0x7 => whenZero (b = 0) (.vexp2 st d a p et)
  | 0x8 => whenZero (b = 0) (.vexpe st d a p et)
  | 0x9 => whenZero (b = 0) (.vlog2 st d a p et)
  | 0xA => whenZero (b = 0) (.vln st d a p et)
  | 0xB => some (.vexpd st d a b p et)
  | _ => none

/-- VCMP, OPC 0x42 (R110). -/
def decodeVcmp (st : Nat) (d a b : BitVec 5) (p et : BitVec 3) (fn : Nat) : Option Instr :=
  match fn with
  | 0x0 => some (.vcmpEq st d a b p et)
  | 0x1 => some (.vcmpNe st d a b p et)
  | 0x2 => some (.vcmpLt st d a b p et)
  | 0x3 => some (.vcmpLe st d a b p et)
  | 0x4 => some (.vcmpLtu st d a b p et)
  | 0x5 => some (.vcmpLeu st d a b p et)
  | 0x6 => whenZero (b = 0) (.vcmpIsnan st d a p et)
  | 0x7 => whenZero (b = 0) (.vcmpIsinf st d a p et)
  | _ => none

/-- VRED, OPC 0x49 (R113). -/
def decodeVred (st : Nat) (d a b : BitVec 5) (p et : BitVec 3) (fn : Nat) : Option Instr :=
  match fn with
  | 0 => whenZero (b = 0) (.vredRsum st d a p et)
  | 1 => whenZero (b = 0) (.vredRmax st d a p et)
  | 2 => whenZero (b = 0) (.vredRmin st d a p et)
  | _ => none

/-- The predicate group, OPC 0x4D (R111): P is 0, and ET too but for PCNT. -/
def decodePred (st : Nat) (d a b : BitVec 5) (p et : BitVec 3) (fn : Nat) : Option Instr :=
  match fn with
  | 0 => whenZero (p = 0 ∧ et = 0) (.pand st d a b)
  | 1 => whenZero (p = 0 ∧ et = 0) (.por st d a b)
  | 2 => whenZero (p = 0 ∧ et = 0) (.pxor st d a b)
  | 3 => whenZero (p = 0 ∧ et = 0 ∧ b = 0) (.pnot st d a)
  | 4 => whenZero (p = 0 ∧ b = 0) (.pcnt st d a et)
  | _ => none

/-- Atomics, work, synchronisation and unit commands, OPC 0x2C-0x3B (R109). -/
def decodeUnit (st opc : Nat) (d a b c fn : BitVec 5) : Option Instr :=
  match opc with
  | 0x2C => whenZero (d = 0 ∧ c = 0 ∧ fn.toNat < 5) (.aadd st a b fn)
  | 0x2D => whenZero (fn = 0) (.acas st d a b c)
  | 0x30 => whenZero (a = 0 ∧ b = 0 ∧ fn = 0) (.getWork st d c)
  | 0x31 => whenZero (d = 0 ∧ a = 0 ∧ b = 0 ∧ c = 0 ∧ fn = 0) (.evdone st)
  | 0x32 => whenZero (d = 0 ∧ c = 0 ∧ fn = 0) (.evpush st a b)
  | 0x33 => whenZero (d = 0 ∧ c = 0 ∧ fn = 0) (.send st a b)
  | 0x34 => whenZero (d = 0 ∧ c = 0 ∧ fn = 0) (.hpush st a b)
  | 0x35 => whenZero (d = 0 ∧ b = 0 ∧ c = 0 ∧ fn = 0) (.fset st a)
  | 0x36 => whenZero (d = 0 ∧ b = 0 ∧ c = 0 ∧ fn = 0) (.fclr st a)
  | 0x37 => whenZero (b = 0 ∧ c = 0 ∧ fn = 0) (.ftest st d a)
  | 0x38 => whenZero (fn.toNat < 2) (.watch st d a b c fn)
  | 0x39 => whenZero (b = 0 ∧ c = 0 ∧ fn = 0) (.wcancel st d a)
  | 0x3A => whenZero (d = 0 ∧ c = 0 ∧ fn.toNat < 4) (.ucmd st a b fn)
  | 0x3B => whenZero (d = 0 ∧ c = 0 ∧ 0 < fn.toNat ∧ fn.toNat < 6) (.mxInstruction st a b fn)
  | _ => none

/-- OPC 0x02-0x2A: immediates, memory, branches, special registers (R106). -/
def decodeImm (st opc : Nat) (w : BitVec 32) : Option Instr :=
  let d := f20 w
  let a := f15 w
  let i := immF w
  match opc with
  | 0x02 => some (.addi st d a i)
  | 0x03 => some (.addiw st d a i)
  | 0x04 => some (.andi st d a i)
  | 0x05 => some (.ori st d a i)
  | 0x06 => some (.xori st d a i)
  | 0x07 => some (.slti st d a i)
  | 0x08 => whenZero (i.toNat < 64) (.shli st d a i)
  | 0x09 => whenZero (i.toNat < 64) (.shri st d a i)
  | 0x0A => whenZero (i.toNat < 64) (.srai st d a i)
  | 0x0B => some (.lui st d (offF w))
  | 0x10 => some (.ldB st d a i)
  | 0x11 => some (.ldH st d a i)
  | 0x12 => some (.ldW st d a i)
  | 0x13 => some (.ldD st d a i)
  | 0x14 => some (.ldBu st d a i)
  | 0x15 => some (.ldHu st d a i)
  | 0x16 => some (.ldWu st d a i)
  | 0x18 => some (.stB st d a i)
  | 0x19 => some (.stH st d a i)
  | 0x1A => some (.stW st d a i)
  | 0x1B => some (.stD st d a i)
  | 0x1C => some (.vld st d a i)
  | 0x1D => some (.vst st d a i)
  | 0x1E => whenZero (etF w = 0 ∧ fnV w = 0) (.vstp st d a (f10 w) (pF w))
  | 0x20 => some (.beq st d a i)
  | 0x21 => some (.bne st d a i)
  | 0x22 => some (.blt st d a i)
  | 0x23 => some (.bge st d a i)
  | 0x24 => some (.bltu st d a i)
  | 0x25 => some (.bgeu st d a i)
  | 0x26 => some (.jal st d (offF w))
  | 0x27 => some (.jalr st d a i)
  | 0x28 => whenZero (d = 0 ∧ a = 0 ∧ i.toNat < 16) (.fence st (i.setWidth 4))
  | 0x29 => whenZero (a = 0 ∧ i.toNat < 256) (.srd st d (i.setWidth 8))
  | 0x2A => whenZero (d = 0 ∧ i.toNat < 256) (.swr st a (i.setWidth 8))
  | _ => none

/-- OPC 0x40-0x4E: vectors and predicates (R106). -/
def decodeVec (st opc : Nat) (w : BitVec 32) : Option Instr :=
  let d := f20 w
  let a := f15 w
  let b := f10 w
  let p := pF w
  let et := etF w
  let fn := (fnV w).toNat
  match opc with
  | 0x40 => decodeVa st d a b p et fn
  | 0x41 => decodeVb st d a b p et fn
  | 0x42 => decodeVcmp st d a b p et fn
  | 0x43 => some (.vcvt st d a b p et (fnV w))
  | 0x44 => some (.vfma st d a b (f5 w) (pW w) (ftF w))
  | 0x45 => some (.vfms st d a b (f5 w) (pW w) (ftF w))
  | 0x46 => some (.vclamp st d a b (f5 w) (pW w) (ftF w))
  | 0x47 => whenZero (a = 0 ∧ b = 0 ∧ p = 0 ∧ et = 0 ∧ fn < 2) (.vrand st d (fnV w))
  | 0x48 => whenZero (b = 0 ∧ p = 0 ∧ et = 0 ∧ fn < 2) (.vrandc st d a (fnV w))
  | 0x49 => decodeVred st d a b p et fn
  | 0x4A => whenZero (b = 0 ∧ fn = 0) (.vbcast st d a p et)
  | 0x4B => whenZero (fn = 0) (.vperm st d a b p et)
  | 0x4C => whenZero (f5 w = 0) (.vcvtmx st d a b (f0 w))
  | 0x4D => decodePred st d a b p et fn
  | 0x4E => whenZero (p = 0 ∧ fn = 0) (.vget st d a b et)
  | _ => none

/-- The instruction of stall `st` that a word spells; none for a reserved OPC or FN, or an unused field that is not zero
(R104-R111).  Reserved element types and the other invalid combinations are found by the instruction itself. -/
def decodeStallWord (st : Nat) (w : BitVec 32) : Option Instr :=
  let opc := opcF w
  if opc = 0x01 then decodeInt st (f20 w) (f15 w) (f10 w) (fnR w)
  else if opc = 0x2B then decodeFp st (f20 w) (f15 w) (f10 w) (fnR w)
  else if opc < 0x2B then decodeImm st opc w
  else if opc < 0x40 then decodeUnit st opc (f20 w) (f15 w) (f10 w) (f5 w) (f0 w)
  else decodeVec st opc w

/-! ### Encoding (R104-R111)

The words of the stalls' instructions, written from the tables of the spec for the instruction's own fields. -/

/-- OPC, D and A of every format with three fields there (R104). -/
def encHead (op : Nat) (d a : BitVec 5) : Nat := op * 2 ^ 25 + d.toNat * 2 ^ 20 + a.toNat * 2 ^ 15
/-- Format R (R104). -/
def encR (op : Nat) (d a b : BitVec 5) (fn : Nat) : BitVec 32 :=
  BitVec.ofNat 32 (encHead op d a + b.toNat * 2 ^ 10 + fn)
/-- Formats I and B (R104): two registers and 15 bits. -/
def encI (op : Nat) (d a : BitVec 5) (imm : BitVec 15) : BitVec 32 := BitVec.ofNat 32 (encHead op d a + imm.toNat)
/-- Format J (R104). -/
def encJ (op : Nat) (d : BitVec 5) (off : BitVec 20) : BitVec 32 :=
  BitVec.ofNat 32 (op * 2 ^ 25 + d.toNat * 2 ^ 20 + off.toNat)
/-- Format V (R104). -/
def encX (op : Nat) (d a b : BitVec 5) (p et : BitVec 3) (fn : BitVec 4) : BitVec 32 :=
  BitVec.ofNat 32 (encHead op d a + b.toNat * 2 ^ 10 + p.toNat * 2 ^ 7 + et.toNat * 2 ^ 4 + fn.toNat)
/-- Format V with FN as a number. -/
def encV (op : Nat) (d a b : BitVec 5) (p et : BitVec 3) (fn : Nat) : BitVec 32 := encX op d a b p et (BitVec.ofNat 4 fn)
/-- Format W (R104). -/
def encW (op : Nat) (d a b c : BitVec 5) (p : BitVec 3) (ft : BitVec 2) : BitVec 32 :=
  BitVec.ofNat 32 (encHead op d a + b.toNat * 2 ^ 10 + c.toNat * 2 ^ 5 + p.toNat * 2 ^ 2 + ft.toNat)
/-- Format U (R104). -/
def encU (op : Nat) (d a b c fn : BitVec 5) : BitVec 32 :=
  BitVec.ofNat 32 (encHead op d a + b.toNat * 2 ^ 10 + c.toNat * 2 ^ 5 + fn.toNat)

/-- The stall and the word of an instruction (R104-R116); none for a command that is no stall instruction. -/
def encodeStall : Instr → Option (Nat × BitVec 32)
  | .add st d a b => some (st, encR 0x01 d a b 0x000)
  | .sub st d a b => some (st, encR 0x01 d a b 0x001)
  | .mul st d a b => some (st, encR 0x01 d a b 0x002)
  | .mulh st d a b => some (st, encR 0x01 d a b 0x003)
  | .mulhu st d a b => some (st, encR 0x01 d a b 0x004)
  | .div st d a b => some (st, encR 0x01 d a b 0x005)
  | .divu st d a b => some (st, encR 0x01 d a b 0x006)
  | .rem st d a b => some (st, encR 0x01 d a b 0x007)
  | .remu st d a b => some (st, encR 0x01 d a b 0x008)
  | .and st d a b => some (st, encR 0x01 d a b 0x009)
  | .or st d a b => some (st, encR 0x01 d a b 0x00A)
  | .xor st d a b => some (st, encR 0x01 d a b 0x00B)
  | .shl st d a b => some (st, encR 0x01 d a b 0x00C)
  | .shr st d a b => some (st, encR 0x01 d a b 0x00D)
  | .sra st d a b => some (st, encR 0x01 d a b 0x00E)
  | .slt st d a b => some (st, encR 0x01 d a b 0x00F)
  | .sltu st d a b => some (st, encR 0x01 d a b 0x010)
  | .min st d a b => some (st, encR 0x01 d a b 0x013)
  | .max st d a b => some (st, encR 0x01 d a b 0x014)
  | .addw st d a b => some (st, encR 0x01 d a b 0x100)
  | .subw st d a b => some (st, encR 0x01 d a b 0x101)
  | .mulw st d a b => some (st, encR 0x01 d a b 0x102)
  | .divw st d a b => some (st, encR 0x01 d a b 0x105)
  | .divuw st d a b => some (st, encR 0x01 d a b 0x106)
  | .remw st d a b => some (st, encR 0x01 d a b 0x107)
  | .remuw st d a b => some (st, encR 0x01 d a b 0x108)
  | .shlw st d a b => some (st, encR 0x01 d a b 0x10C)
  | .shrw st d a b => some (st, encR 0x01 d a b 0x10D)
  | .sraw st d a b => some (st, encR 0x01 d a b 0x10E)
  | .neg st d a => some (st, encR 0x01 d a 0 0x011)
  | .abs st d a => some (st, encR 0x01 d a 0 0x012)
  | .negw st d a => some (st, encR 0x01 d a 0 0x111)
  | .absw st d a => some (st, encR 0x01 d a 0 0x112)
  | .addi st d a imm => some (st, encI 0x02 d a imm)
  | .addiw st d a imm => some (st, encI 0x03 d a imm)
  | .andi st d a imm => some (st, encI 0x04 d a imm)
  | .ori st d a imm => some (st, encI 0x05 d a imm)
  | .xori st d a imm => some (st, encI 0x06 d a imm)
  | .slti st d a imm => some (st, encI 0x07 d a imm)
  | .shli st d a imm => some (st, encI 0x08 d a imm)
  | .shri st d a imm => some (st, encI 0x09 d a imm)
  | .srai st d a imm => some (st, encI 0x0A d a imm)
  | .lui st d off => some (st, encJ 0x0B d off)
  | .ldB st d a imm => some (st, encI 0x10 d a imm)
  | .ldH st d a imm => some (st, encI 0x11 d a imm)
  | .ldW st d a imm => some (st, encI 0x12 d a imm)
  | .ldD st d a imm => some (st, encI 0x13 d a imm)
  | .ldBu st d a imm => some (st, encI 0x14 d a imm)
  | .ldHu st d a imm => some (st, encI 0x15 d a imm)
  | .ldWu st d a imm => some (st, encI 0x16 d a imm)
  | .stB st d a imm => some (st, encI 0x18 d a imm)
  | .stH st d a imm => some (st, encI 0x19 d a imm)
  | .stW st d a imm => some (st, encI 0x1A d a imm)
  | .stD st d a imm => some (st, encI 0x1B d a imm)
  | .vld st d a imm => some (st, encI 0x1C d a imm)
  | .vst st d a imm => some (st, encI 0x1D d a imm)
  | .vstp st d a b p => some (st, encV 0x1E d a b p 0 0)
  | .beq st a b off => some (st, encI 0x20 a b off)
  | .bne st a b off => some (st, encI 0x21 a b off)
  | .blt st a b off => some (st, encI 0x22 a b off)
  | .bge st a b off => some (st, encI 0x23 a b off)
  | .bltu st a b off => some (st, encI 0x24 a b off)
  | .bgeu st a b off => some (st, encI 0x25 a b off)
  | .jal st d off => some (st, encJ 0x26 d off)
  | .jalr st d a imm => some (st, encI 0x27 d a imm)
  | .fence st mask => some (st, encI 0x28 0 0 (mask.setWidth 15))
  | .srd st d idx => some (st, encI 0x29 d 0 (idx.setWidth 15))
  | .swr st a idx => some (st, encI 0x2A 0 a (idx.setWidth 15))
  | .fadd st d a b => some (st, encR 0x2B d a b 0x0)
  | .fsub st d a b => some (st, encR 0x2B d a b 0x1)
  | .fmul st d a b => some (st, encR 0x2B d a b 0x2)
  | .fdiv st d a b => some (st, encR 0x2B d a b 0x3)
  | .fmin st d a b => some (st, encR 0x2B d a b 0x5)
  | .fmax st d a b => some (st, encR 0x2B d a b 0x6)
  | .feq st d a b => some (st, encR 0x2B d a b 0x7)
  | .flt st d a b => some (st, encR 0x2B d a b 0x8)
  | .fle st d a b => some (st, encR 0x2B d a b 0x9)
  | .fmadd st d a b => some (st, encR 0x2B d a b 0xC)
  | .fsqrt st d a => some (st, encR 0x2B d a 0 0x4)
  | .fcvtFI st d a => some (st, encR 0x2B d a 0 0xA)
  | .fcvtIF st d a => some (st, encR 0x2B d a 0 0xB)
  | .aadd st a b fn => some (st, encU 0x2C 0 a b 0 fn)
  | .acas st d a b c => some (st, encU 0x2D d a b c 0)
  | .getWork st d c => some (st, encU 0x30 d 0 0 c 0)
  | .evdone st => some (st, encU 0x31 0 0 0 0 0)
  | .evpush st a b => some (st, encU 0x32 0 a b 0 0)
  | .send st a b => some (st, encU 0x33 0 a b 0 0)
  | .hpush st a b => some (st, encU 0x34 0 a b 0 0)
  | .fset st a => some (st, encU 0x35 0 a 0 0 0)
  | .fclr st a => some (st, encU 0x36 0 a 0 0 0)
  | .ftest st d a => some (st, encU 0x37 d a 0 0 0)
  | .wcancel st d a => some (st, encU 0x39 d a 0 0 0)
  | .watch st d a b c fn => some (st, encU 0x38 d a b c fn)
  | .ucmd st a b fn => some (st, encU 0x3A 0 a b 0 fn)
  | .mxInstruction st a b fn => some (st, encU 0x3B 0 a b 0 fn)
  | .vadd st d a b p et => some (st, encV 0x40 d a b p et 0x0)
  | .vsub st d a b p et => some (st, encV 0x40 d a b p et 0x1)
  | .vmul st d a b p et => some (st, encV 0x40 d a b p et 0x2)
  | .vmin st d a b p et => some (st, encV 0x40 d a b p et 0x3)
  | .vmax st d a b p et => some (st, encV 0x40 d a b p et 0x4)
  | .vadds st d a b p et => some (st, encV 0x40 d a b p et 0x7)
  | .vsubs st d a b p et => some (st, encV 0x40 d a b p et 0x8)
  | .vmuls st d a b p et => some (st, encV 0x40 d a b p et 0x9)
  | .vand st d a b p et => some (st, encV 0x40 d a b p et 0xC)
  | .vor st d a b p et => some (st, encV 0x40 d a b p et 0xD)
  | .vxor st d a b p et => some (st, encV 0x40 d a b p et 0xE)
  | .vshl st d a b p et => some (st, encV 0x41 d a b p et 0x0)
  | .vshr st d a b p et => some (st, encV 0x41 d a b p et 0x1)
  | .vsra st d a b p et => some (st, encV 0x41 d a b p et 0x2)
  | .vdiv st d a b p et => some (st, encV 0x41 d a b p et 0x3)
  | .vexpd st d a b p et => some (st, encV 0x41 d a b p et 0xB)
  | .vcmpEq st d a b p et => some (st, encV 0x42 d a b p et 0x0)
  | .vcmpNe st d a b p et => some (st, encV 0x42 d a b p et 0x1)
  | .vcmpLt st d a b p et => some (st, encV 0x42 d a b p et 0x2)
  | .vcmpLe st d a b p et => some (st, encV 0x42 d a b p et 0x3)
  | .vcmpLtu st d a b p et => some (st, encV 0x42 d a b p et 0x4)
  | .vcmpLeu st d a b p et => some (st, encV 0x42 d a b p et 0x5)
  | .vperm st d a b p et => some (st, encV 0x4B d a b p et 0)
  | .vabs st d a p et => some (st, encV 0x40 d a 0 p et 0x5)
  | .vneg st d a p et => some (st, encV 0x40 d a 0 p et 0x6)
  | .vabss st d a p et => some (st, encV 0x40 d a 0 p et 0xA)
  | .vnegs st d a p et => some (st, encV 0x40 d a 0 p et 0xB)
  | .vmov st d a p et => some (st, encV 0x40 d a 0 p et 0xF)
  | .vsqrt st d a p et => some (st, encV 0x41 d a 0 p et 0x4)
  | .vrcp st d a p et => some (st, encV 0x41 d a 0 p et 0x5)
  | .vrsqrt st d a p et => some (st, encV 0x41 d a 0 p et 0x6)
  | .vexp2 st d a p et => some (st, encV 0x41 d a 0 p et 0x7)
  | .vexpe st d a p et => some (st, encV 0x41 d a 0 p et 0x8)
  | .vlog2 st d a p et => some (st, encV 0x41 d a 0 p et 0x9)
  | .vln st d a p et => some (st, encV 0x41 d a 0 p et 0xA)
  | .vcmpIsnan st d a p et => some (st, encV 0x42 d a 0 p et 0x6)
  | .vcmpIsinf st d a p et => some (st, encV 0x42 d a 0 p et 0x7)
  | .vredRsum st d a p et => some (st, encV 0x49 d a 0 p et 0)
  | .vredRmax st d a p et => some (st, encV 0x49 d a 0 p et 1)
  | .vredRmin st d a p et => some (st, encV 0x49 d a 0 p et 2)
  | .vbcast st d a p et => some (st, encV 0x4A d a 0 p et 0)
  | .vcvt st d a b p et fn => some (st, encX 0x43 d a b p et fn)
  | .vfma st d a b c p ft => some (st, encW 0x44 d a b c p ft)
  | .vfms st d a b c p ft => some (st, encW 0x45 d a b c p ft)
  | .vclamp st d a b c p ft => some (st, encW 0x46 d a b c p ft)
  | .vrand st d fn => some (st, encX 0x47 d 0 0 0 0 fn)
  | .vrandc st d a fn => some (st, encX 0x48 d a 0 0 0 fn)
  | .vcvtmx st d a b fn => some (st, encU 0x4C d a b 0 fn)
  | .pand st d a b => some (st, encV 0x4D d a b 0 0 0)
  | .por st d a b => some (st, encV 0x4D d a b 0 0 1)
  | .pxor st d a b => some (st, encV 0x4D d a b 0 0 2)
  | .pnot st d a => some (st, encV 0x4D d a 0 0 0 3)
  | .pcnt st d a et => some (st, encV 0x4D d a 0 0 et 4)
  | .vget st d a b et => some (st, encV 0x4E d a b 0 et 0)
  | .loadValueReturn _ _ | .controlIssue _ | .flagSet _ | .flagClear _ | .flagTest _ | .watchArm _
    | .watchCancel _ | .penOperation _ | .penSubwatchReport _ | .eventPush _ | .mailboxDelivery _
    | .delayEntryDue _ _ | .dispatch _ | .shedSleep _ | .shedWake _ | .mxLoadw _ | .mxStream _ | .mxSpstream _
    | .mxDrain _ | .mxReset _ | .mxaCommandStart _ | .streamRowFinal _ _ | .mxaCommandComplete _ _ | .sample _
    | .score _ | .samplerDescriptorStart _ | .samplerDescriptorComplete _ | .runaheadCompute _ | .prefetchHint _
    | .gather _ | .pool _ | .replay _ | .scatter _ | .flush _ | .applyOrdered _ | .opt8 _ | .tswitch _
    | .replicate _ | .migrate _ | .rowDescriptorStart _ _ | .rowDescriptorComplete _ _ | .migrateCopy _ _
    | .requestEnterWindow _ _ _ | .sectorAccess _ _ _ | .atomicAtHome _ _ | .hotRowsRead | .cacheCounterHalve _
    | .copy _ | .compress _ | .expand _ | .dmaDescriptorStart _ | .dmaDescriptorComplete _ | .tableDescPend
    | .refresh _ _ _ _ | .stackTemperatureRead _ _ | .recalibration _ _ | .patrolScrub _ _ | .frameClearing _ _
    | .hbmLayoutWrite | .flitSend _ | .flitReceive _ _ | .replayTimeout _ | .nrdyRetry _
    | .trainingAttempt _ _ _ _ | .linkDown _ | .failover _ | .flowMoveBack _ | .pktWrite _ _ | .pktRead _ _
    | .pktReadResp _ _ | .pktRowAtomic _ _ | .messageEvpush _ _ | .messageHpush _ _ | .messageSend _ _
    | .messageResult _ _ | .messageAck _ _ | .messageNack _ _ | .flagSetPacket _ _ | .mgmtRequest _ _
    | .flagOnLastTrailer _ | .transactionTimeout _ | .timeExchange _ _ _ | .collectiveStart _ _
    | .collectiveContribution _ _ | .collectiveResult _ _ | .collectiveChainSum _ _ | .collectiveSidecar _ _
    | .vstartDetected _ | .regionScan _ | .verdict _ | .stepBoundary _ | .altFreeSet _ | .mirrorStart _
    | .mirrorCommit _ | .mirrorFailed _ | .mirrorCtrlNow | .odRead | .odWrite | .blobRead | .blobWrite | .acquire
    | .renew | .release | .leaseExpiry _ | .mgmtDatagram _ _ _ | .mboxGo _ | .sqTail _ _ | .cqHead _ _
    | .entryFetch _ _ | .completionWrite _ | .msixRaise _ | .bar4Access _ _ _ _ _ | .mmioRegisterWrite _ _ _
    | .shedsWrite | .ringConfigWrite | .start | .stop | .loadEnd _ | .partitionStopped _ | .nanTrapRearm
    | .stallFaultRearm | .perstN _ | .powerGood _ _ _ | .vinLow | .powerLoss | .modEnEdge _ | .seasonOn
    | .seasonOff | .faultClear | .safeEnd _ _ _ | .faultEnter _ _ _ | .faultExit | .retryBackoffExpiry
    | .backgroundRetry _ _ _ | .powerSample _ _ | .sensorRead _ _ _ | .thermalCeilingUpdate _ | .droop _
    | .droopRestore _ | .pwrBrake _ | .perfSelWrite | .commit | .restart | .fwSlotWrite | .persistCommit
    | .shedParity _ | .unownedStateError | .invalidEncoding _ _ | .fetchOutsideLocalMemory _ | .hostLinkChange _
    | .mgmtLinkChange _ | .counterWrap _ _ | .numvfsWrite _ _ => none

end Sys2Proof
end

