-- ==== Sys2Proof/Config.lean ====
section
/-!
DEFINITION. What the spec leaves open: free values, as constants without a body, so nothing can be proved of them.

Each is applied to a plain counter of the state (`State.free`) or to the operands it depends on.
-/

namespace Sys2Proof

/-- A fresh free number, for the n-th free value drawn (assumption log 3).  Used where the spec names a value
without giving it: the LEASE_ID of a grant (R328), a watch identifier (R140). -/
opaque Config.freeNat : Nat → Nat

/-- Whether the n-th draw of a choice the spec leaves open is taken (assumption log 3): the outcome of a sector
with three or more symbols in error (R245). -/
opaque Config.freeBool : Nat → Bool

/-- The set of the row cache a sector belongs to: the spec gives 256 sets and no map (R220, assumption log 3). -/
opaque Config.cacheSet : Nat → Nat

/-- What a fused object holds: serial number, revisions, MAC address, firmware version (R325, R333); by object key. -/
opaque Config.fused : Nat → Nat

/-- What manufacture wrote at an offset of the flash directory and the golden slot (R379, assumption log 31). -/
opaque Config.factory : Nat → Nat

/-- Core rail and SRAM rail voltages of point k of a yard, fused at test (R363), in mV. -/
opaque Config.vfVoltage : Nat → Nat → Nat

/-- A figure the result of an exponential or logarithm falls back on when no tried precision decides its rounding
(R114, assumption log 9); never reached by an operand tried. -/
opaque Config.undecided : Nat → Nat

/-- The k-th number that a PIPELINE section spells: R350 names its contents (R319, R320) and gives no layout for them. -/
opaque Config.pipe : List (BitVec 8) → Nat → Nat

end Sys2Proof
end

