-- ==== Sys2Proof/Machine/Bits.lean ====
section
/-!
DEFINITION. Bit fields, byte order, checksums and small list operations that the meanings share.
-/

namespace Sys2Proof.Machine

/-- Bits [lo + len - 1 : lo] of a number (R6). -/
def bits (x lo len : Nat) : Nat := (x >>> lo) % 2 ^ len

/-- Bit `i` of a number. -/
def bit (x i : Nat) : Bool := x.testBit i

/-- `x` with bits [lo + len - 1 : lo] replaced by the low bits of `v`. -/
def setBits (x lo len v : Nat) : Nat :=
  x - (bits x lo len) * 2 ^ lo + (v % 2 ^ len) * 2 ^ lo

/-- `true` as 1 and `false` as 0. -/
def b2n (b : Bool) : Nat := if b then 1 else 0

/-- A two's complement reading of the low `w` bits of `x` (R42). -/
def toInt (w x : Nat) : Int :=
  let y := x % 2 ^ w
  if 2 * y < 2 ^ w then (y : Int) else (y : Int) - (2 ^ w : Nat)

/-- The low `w` bits of an integer. -/
def ofInt (w : Nat) (i : Int) : Nat := (i % ((2 ^ w : Nat) : Int)).toNat

/-- The bytes of a number, lowest first (R7). -/
def toBytes : Nat → Nat → List Byte
  | 0, _ => []
  | n + 1, x => BitVec.ofNat 8 x :: toBytes n (x / 256)

/-- The number that bytes spell, lowest first (R7). -/
def ofBytes : List Byte → Nat
  | [] => 0
  | b :: bs => b.toNat + 256 * ofBytes bs

/-- `n` zero bytes. -/
def zeros (n : Nat) : List Byte := List.replicate n 0

/-- `k` bytes from byte offset `i`, short lists read as zero. -/
def slice (bs : List Byte) (i k : Nat) : List Byte :=
  let t := (bs.drop i).take k
  t ++ zeros (k - t.length)

/-- The number in `k` bytes from byte offset `i`. -/
def field (bs : List Byte) (i k : Nat) : Nat := ofBytes (slice bs i k)

/-- `bs` with the bytes from offset `i` replaced by `new`. -/
def splice (bs : List Byte) (i : Nat) (new : List Byte) : List Byte :=
  bs.take i ++ new ++ bs.drop (i + new.length)

/-- The smallest multiple of `k` at or above `n`. -/
def roundUp (n k : Nat) : Nat := (n + k - 1) / k * k

/-- `n` divided by `k`, rounded up. -/
def ceilDiv (n k : Nat) : Nat := (n + k - 1) / k

/-- Increment of a 32-bit counter that saturates (R348). -/
def sat32 (n k : Nat) : Nat := min (n + k) 0xFFFFFFFF

/-- One step of a reflected CRC over a byte. -/
def crcByte (poly : Nat) (crc : Nat) (b : Byte) : Nat :=
  (List.range 8).foldl (fun c _ => if c % 2 = 1 then (c / 2) ^^^ poly else c / 2) (crc ^^^ b.toNat)

/-- CRC-32C (Castagnoli), as images, records and mirrors use it (R313, R349). -/
def crc32c (bs : List Byte) : Nat :=
  (bs.foldl (crcByte 0x82F63B78) 0xFFFFFFFF) ^^^ 0xFFFFFFFF

/-- CRC-64/XZ over a flit's bytes 0 to 247 (R255). -/
def crc64 (bs : List Byte) : Nat :=
  (bs.foldl (crcByte 0xC96C5795D7870F42) 0xFFFFFFFFFFFFFFFF) ^^^ 0xFFFFFFFFFFFFFFFF

/-- Insert into a list kept in rising order of a Boolean order, after equal elements. -/
def insertBy {α : Type} (le : α → α → Bool) (x : α) : List α → List α
  | [] => [x]
  | y :: ys => if le y x then y :: insertBy le x ys else x :: y :: ys

/-- A stable sort by a Boolean order. -/
def sortBy {α : Type} (le : α → α → Bool) (l : List α) : List α :=
  l.foldl (fun acc x => insertBy le x acc) []

/-- Keep one of each run of equal neighbours. -/
def dedup {α : Type} [DecidableEq α] : List α → List α
  | [] => []
  | x :: xs => match dedup xs with
    | [] => [x]
    | y :: ys => if x = y then y :: ys else x :: y :: ys

/-- Remove element `k` of a list. -/
def removeAt {α : Type} (l : List α) (k : Nat) : List α := l.take k ++ l.drop (k + 1)

/-- Whether a list of numbers rises strictly. -/
def rising : List Nat → Bool
  | [] => true
  | [_] => true
  | x :: y :: r => decide (x < y) && rising (y :: r)

/-- The position of the first element that satisfies `p`. -/
def indexOf? {α : Type} (p : α → Bool) : List α → Option Nat
  | [] => none
  | x :: xs => if p x then some 0 else (indexOf? p xs).map (· + 1)

/-- Update element `k` of a list. -/
def modifyAt {α : Type} (l : List α) (k : Nat) (f : α → α) : List α :=
  match l, k with
  | [], _ => []
  | x :: xs, 0 => f x :: xs
  | x :: xs, k + 1 => x :: modifyAt xs k f

end Sys2Proof.Machine
end

