-- ==== Sys2Proof/Machine/Float.lean ====
section
/-!
DEFINITION. The floating-point formats of R37 and their exact arithmetic: a value is a NaN, a signed infinity or a
signed dyadic number, every operation forms the exact value, and one function rounds it (R38, R39, R46, R47).
-/

namespace Sys2Proof.Machine

/-- A floating-point format: exponent and mantissa widths, bias, whether it has infinities and NaNs, and whether
subnormals are flushed (R37, R38). -/
structure Fmt where
  ebits : Nat
  mbits : Nat
  bias  : Nat
  ieee  : Bool      -- exponent all ones holds infinity and NaN
  e4m3  : Bool      -- only the all-ones code is NaN
  flush : Bool
  deriving DecidableEq, Repr

def fp32 : Fmt := ⟨8, 23, 127, true, false, true⟩
def bf16 : Fmt := ⟨8, 7, 127, true, false, false⟩
def fp16 : Fmt := ⟨5, 10, 15, true, false, false⟩
def e4m3 : Fmt := ⟨4, 3, 7, false, true, false⟩
def e5m2 : Fmt := ⟨5, 2, 15, true, false, false⟩
def e2m3 : Fmt := ⟨2, 3, 1, false, false, false⟩
def e3m2 : Fmt := ⟨3, 2, 3, false, false, false⟩
def e2m1 : Fmt := ⟨2, 1, 1, false, false, false⟩

/-- Width of a format in bits. -/
def Fmt.width (f : Fmt) : Nat := 1 + f.ebits + f.mbits

/-- The canonical NaN (R39). -/
def Fmt.nanCode (f : Fmt) : Nat :=
  if f.e4m3 then 0x7F else (2 ^ f.ebits - 1) * 2 ^ f.mbits + 2 ^ (f.mbits - 1)

/-- The magnitude code of the largest finite value (R37). -/
def Fmt.maxFin (f : Fmt) : Nat :=
  if f.ieee then (2 ^ f.ebits - 1) * 2 ^ f.mbits - 1
  else if f.e4m3 then 0x7E else 2 ^ (f.ebits + f.mbits) - 1

/-- The code of an infinity. -/
def Fmt.infCode (f : Fmt) (neg : Bool) : Nat :=
  (2 ^ f.ebits - 1) * 2 ^ f.mbits + (if neg then 2 ^ (f.ebits + f.mbits) else 0)

/-- A floating-point value: NaN, infinity, or ±m × 2^e, zero keeping its sign. -/
inductive FVal where
  | nan
  | inf (neg : Bool)
  | fin (neg : Bool) (m : Nat) (e : Int)
  deriving DecidableEq, Repr

/-- The value of a code (R37); a flushed format reads a subnormal as zero of its sign (R38). -/
def Fmt.decode (f : Fmt) (x : Nat) : FVal :=
  let neg := bit x (f.ebits + f.mbits)
  let e := bits x f.mbits f.ebits
  let m := bits x 0 f.mbits
  if f.ieee ∧ e = 2 ^ f.ebits - 1 then (if m = 0 then .inf neg else .nan)
  else if f.e4m3 ∧ e = 15 ∧ m = 7 then .nan
  else if e = 0 then
    if f.flush then .fin neg 0 0 else .fin neg m (1 - (f.bias : Int) - f.mbits)
  else .fin neg (2 ^ f.mbits + m) ((e : Int) - f.bias - f.mbits)

/-- `m × 2^e` divided by 2^l, rounded to the nearest integer with ties to even (R46). -/
def rne (m : Nat) (e l : Int) : Nat :=
  if l ≤ e then m <<< (e - l).toNat
  else
    let sh := (l - e).toNat
    let q := m >>> sh
    let r := m - q <<< sh
    let h := 1 <<< (sh - 1)
    if r > h ∨ (r = h ∧ q % 2 = 1) then q + 1 else q

/-- The magnitude code of m × 2^e rounded to nearest even (R38, R46), with the exponent range unbounded above: a code
above `maxFin` has overflowed.  A flushed format rounds to its precision first and then flushes. -/
def Fmt.roundMag (f : Fmt) (m : Nat) (e : Int) : Nat :=
  if m = 0 then 0 else
  let top : Int := (Nat.log2 m : Int) + e                 -- m × 2^e lies in [2^top, 2^(top+1))
  let lmin : Int := 1 - (f.bias : Int) - f.mbits
  let l : Int := if f.flush then top - f.mbits else max (top - f.mbits) lmin
  let r := rne m e l
  -- r × 2^l, r at most 2^(mbits+1)
  let (r, l) := if r ≥ 2 ^ (f.mbits + 1) then (r / 2, l + 1) else (r, l)
  if r < 2 ^ f.mbits then r                                -- subnormal
  else
    let ef : Int := l + f.mbits + f.bias
    if ef < 1 then 0 else ef.toNat * 2 ^ f.mbits + (r - 2 ^ f.mbits)

/-- A rounded result and whether it overflowed the format's finite range. -/
def Fmt.round (f : Fmt) (neg : Bool) (m : Nat) (e : Int) : Nat × Bool :=
  let c := f.roundMag m e
  if c > f.maxFin then
    if f.ieee then (f.infCode neg, true)
    else if f.e4m3 then (f.nanCode, true)
    else (f.maxFin + (if neg then 2 ^ (f.ebits + f.mbits) else 0), true)
  else (c + (if neg then 2 ^ (f.ebits + f.mbits) else 0), false)

/-- The code of a value: rounded once, NaN canonical (R39), overflow to infinity, for E4M3 to NaN (R49), for an MX
element saturating (R41). -/
def Fmt.encode (f : Fmt) : FVal → Nat
  | .nan => f.nanCode
  | .inf neg => if f.ieee then f.infCode neg else if f.e4m3 then f.nanCode
                else f.maxFin + (if neg then 2 ^ (f.ebits + f.mbits) else 0)
  | .fin neg m e => (f.round neg m e).1

/-- Whether encoding a number (not a NaN) gives NaN in E4M3 (R49, cause "overflow to NaN"). -/
def Fmt.overNaN (f : Fmt) : FVal → Bool
  | .nan => false
  | .inf _ => f.e4m3
  | .fin neg m e => f.e4m3 && (f.round neg m e).2

/-- A dyadic number m × 2^e with a signed mantissa. -/
structure Dy where
  m : Int
  e : Int
  deriving DecidableEq, Repr

/-- The mantissa of a dyadic number at a smaller or equal exponent. -/
def Dy.at (d : Dy) (e : Int) : Int := d.m * ((2 ^ (d.e - e).toNat : Nat) : Int)

/-- The exact sum. -/
def Dy.add (a b : Dy) : Dy :=
  let e := min a.e b.e
  ⟨a.at e + b.at e, e⟩

/-- The exact product. -/
def Dy.mul (a b : Dy) : Dy := ⟨a.m * b.m, a.e + b.e⟩

/-- Whether a < b. -/
def Dy.lt (a b : Dy) : Bool :=
  let e := min a.e b.e
  decide (a.at e < b.at e)

/-- The number ±m × 2^e. -/
def dyOf (neg : Bool) (m : Nat) (e : Int) : Dy := ⟨if neg then -(m : Int) else m, e⟩

/-- A dyadic number as a value; zero takes the sign given. -/
def Dy.toF (d : Dy) (zneg : Bool) : FVal :=
  if d.m = 0 then .fin zneg 0 0 else .fin (decide (d.m < 0)) d.m.natAbs d.e

/-- A value's sign. -/
def FVal.neg : FVal → Bool
  | .nan => false
  | .inf n => n
  | .fin n _ _ => n

/-- The value with its sign turned. -/
def FVal.negate : FVal → FVal
  | .nan => .nan
  | .inf n => .inf (!n)
  | .fin n m e => .fin (!n) m e

/-- The magnitude. -/
def FVal.abs : FVal → FVal
  | .nan => .nan
  | .inf _ => .inf false
  | .fin _ m e => .fin false m e

def FVal.isNaN : FVal → Bool
  | .nan => true
  | _ => false

def FVal.isInf : FVal → Bool
  | .inf _ => true
  | _ => false

def FVal.isFin : FVal → Bool
  | .fin _ _ _ => true
  | _ => false

def FVal.isZero : FVal → Bool
  | .fin _ m _ => decide (m = 0)
  | _ => false

/-- The number of a finite value. -/
def FVal.dy : FVal → Dy
  | .fin n m e => dyOf n m e
  | _ => ⟨0, 0⟩

/-- The exact sum (R47): opposite infinities give NaN, x + (−x) is +0 and (−0) + (−0) is −0. -/
def FVal.add : FVal → FVal → FVal
  | .nan, _ => .nan
  | _, .nan => .nan
  | .inf a, .inf b => if a = b then .inf a else .nan
  | .inf a, _ => .inf a
  | _, .inf b => .inf b
  | .fin n m e, .fin n' m' e' => ((dyOf n m e).add (dyOf n' m' e')).toF (n && n' && decide (m = 0) && decide (m' = 0))

def FVal.sub (a b : FVal) : FVal := a.add b.negate

/-- The exact product (R47): infinity times zero gives NaN. -/
def FVal.mul : FVal → FVal → FVal
  | .nan, _ => .nan
  | _, .nan => .nan
  | .inf a, .inf b => .inf (a != b)
  | .inf a, .fin n m _ => if m = 0 then .nan else .inf (a != n)
  | .fin n m _, .inf b => if m = 0 then .nan else .inf (n != b)
  | .fin n m e, .fin n' m' e' => .fin (n != n') (m * m') (e + e')

/-- a × b + c, exact. -/
def FVal.fma (a b c : FVal) : FVal := (a.mul b).add c

/-- The quotient to at least 80 significant bits, with a last bit that says whether anything was cut off, so that
rounding it once to any format rounds the exact quotient (R47, R114). -/
def FVal.div : FVal → FVal → FVal
  | .nan, _ => .nan
  | _, .nan => .nan
  | .inf _, .inf _ => .nan
  | .inf a, .fin n _ _ => .inf (a != n)
  | .fin n _ _, .inf b => .fin (n != b) 0 0
  | .fin n m e, .fin n' m' e' =>
    if m' = 0 then (if m = 0 then .nan else .inf (n != n'))
    else if m = 0 then .fin (n != n') 0 0
    else
      let k := 80 + Nat.log2 m'
      let q := (m <<< k) / m'
      let st := if (m <<< k) % m' = 0 then 0 else 1
      .fin (n != n') (2 * q + st) (e - e' - k - 1)

/-- The integer square root, bit by bit from bit `k` down. -/
def isqrtFrom : Nat → Nat → Nat → Nat
  | 0, _, r => r
  | k + 1, n, r =>
    let t := r + 2 ^ k
    isqrtFrom k n (if t * t ≤ n then t else r)

/-- The integer square root. -/
def isqrt (n : Nat) : Nat := isqrtFrom (Nat.log2 n / 2 + 1) n 0

/-- The square root of m × 2^e to at least 80 bits, with a sticky last bit. -/
def sqrtDy (m : Nat) (e : Int) : FVal :=
  if m = 0 then .fin false 0 0 else
  let k := 160 + (if (e - 160) % 2 = 0 then 0 else 1)
  let n := m <<< k
  let r := isqrt n
  let st := if r * r = n then 0 else 1
  .fin false (2 * r + st) ((e - k) / 2 - 1)

/-- The square root (R47, R114): NaN below zero, −0 of −0. -/
def FVal.sqrt : FVal → FVal
  | .nan => .nan
  | .inf true => .nan
  | .inf false => .inf false
  | .fin n m e => if m = 0 then .fin n 0 0 else if n then .nan else sqrtDy m e

/-- The reciprocal square root (R114): −inf of −0, +inf of +0, +0 of +inf. -/
def FVal.rsqrt : FVal → FVal
  | .nan => .nan
  | .inf true => .nan
  | .inf false => .fin false 0 0
  | .fin n m e =>
    if m = 0 then .inf n else if n then .nan
    else
      -- 1/sqrt(m 2^e) = sqrt(2^-e / m): square root of a long quotient, both cuts kept as sticky bits
      let k := 400 + 2 * Nat.log2 m + (if e % 2 = 0 then 0 else 1)
      let q := (1 <<< k) / m
      let r := isqrt q
      let st := if r * r * m = 1 <<< k then 0 else 1
      .fin false (2 * r + st) ((-(e : Int) - k) / 2 - 1)

/-- The reciprocal (R114). -/
def FVal.recip (x : FVal) : FVal := FVal.div (.fin false 1 0) x

/-- Equality; unordered with NaN, −0 equals +0 (R48). -/
def FVal.eq : FVal → FVal → Bool
  | .nan, _ => false
  | _, .nan => false
  | .inf a, .inf b => a == b
  | .inf _, .fin _ _ _ => false
  | .fin _ _ _, .inf _ => false
  | .fin n m e, .fin n' m' e' => !((dyOf n m e).lt (dyOf n' m' e')) && !((dyOf n' m' e').lt (dyOf n m e))

/-- Less-than; false with NaN (R48). -/
def FVal.lt : FVal → FVal → Bool
  | .nan, _ => false
  | _, .nan => false
  | .inf a, .inf b => a && !b
  | .inf a, .fin _ _ _ => a
  | .fin _ _ _, .inf b => !b
  | .fin n m e, .fin n' m' e' => (dyOf n m e).lt (dyOf n' m' e')

def FVal.le (a b : FVal) : Bool := a.lt b || a.eq b

/-- MIN under R48: NaN with a NaN, −0 below +0. -/
def FVal.min (a b : FVal) : FVal :=
  if a.isNaN || b.isNaN then .nan
  else if a.lt b then a else if b.lt a then b else if a.neg then a else b

/-- MAX under R48. -/
def FVal.max (a b : FVal) : FVal :=
  if a.isNaN || b.isNaN then .nan
  else if a.lt b then b else if b.lt a then a else if a.neg then b else a

/-- A finite value rounded once to an integer (R46, R49). -/
def FVal.toIntR : FVal → Int
  | .fin n m e => let r := rne m e 0; if n then -(r : Int) else r
  | _ => 0

/-- Conversion to an integer in [lo, hi], and whether it is invalid (R49). -/
def FVal.toRange (x : FVal) (lo hi : Int) : Int × Bool :=
  match x with
  | .nan => (0, true)
  | .inf n => (if n then lo else hi, true)
  | .fin _ _ _ =>
    let i := x.toIntR
    if i < lo then (lo, true) else if hi < i then (hi, true) else (i, false)

/-- An integer as a value. -/
def fOfInt (i : Int) : FVal := .fin (decide (i < 0)) i.natAbs 0

/-- FP32 addition of codes, one rounding (R46, R53). -/
def f32add (a b : Nat) : Nat := fp32.encode ((fp32.decode a).add (fp32.decode b))
def f32sub (a b : Nat) : Nat := fp32.encode ((fp32.decode a).sub (fp32.decode b))
def f32mul (a b : Nat) : Nat := fp32.encode ((fp32.decode a).mul (fp32.decode b))
def f32div (a b : Nat) : Nat := fp32.encode ((fp32.decode a).div (fp32.decode b))
def f32sqrt (a : Nat) : Nat := fp32.encode (fp32.decode a).sqrt
/-- a × b + c on FP32 codes, fused (R56). -/
def f32fma (a b c : Nat) : Nat := fp32.encode (FVal.fma (fp32.decode a) (fp32.decode b) (fp32.decode c))
def f32neg (a : Nat) : Nat := fp32.encode (fp32.decode a).negate
/-- Whether an FP32 code is neither NaN nor infinite. -/
def f32fin (a : Nat) : Bool := (fp32.decode a).isFin
def f32nan (a : Nat) : Bool := (fp32.decode a).isNaN

end Sys2Proof.Machine
end

