-- ==== Sys2Proof/Machine/Transc.lean ====
section
/-!
DEFINITION. The exponentials and logarithms of R114: the exact real result rounded once.

The result is enclosed between two dyadic numbers, computed in fixed point with `P` bits and a margin of 2^24 units in
the last place.  When both ends round to one code, that code is the rounding of the exact result; otherwise a
greater `P` is tried (assumption log 9).
-/

namespace Sys2Proof.Machine

/-- 2 × (z + z^3/3 + z^5/5 + ...) in fixed point, `n` terms, `t` the current odd power of z, `z2` = z squared. -/
def atanhSum (P z2 : Nat) : Nat → Nat → Nat → Nat → Nat
  | 0, _, _, acc => 2 * acc
  | n + 1, k, t, acc => atanhSum P z2 n (k + 2) ((t * z2) >>> P) (acc + t / k)

/-- ln((1 + z)/(1 − z)) in fixed point, for z at most 1/3. -/
def lnRatio (P z : Nat) : Nat := atanhSum P ((z * z) >>> P) (P / 3 + 2) 1 z 0

/-- ln 2 in fixed point. -/
def ln2 (P : Nat) : Nat := lnRatio P (2 ^ P / 3)

/-- Σ r^k/k! in fixed point, by `n` terms. -/
def expSum (P r : Nat) : Nat → Nat → Nat → Nat → Nat
  | 0, _, _, acc => acc
  | n + 1, k, t, acc => let t' := ((t * r) >>> P) / k; expSum P r n (k + 1) t' (acc + t')

/-- Square `n` times in fixed point. -/
def sqN (P : Nat) : Nat → Nat → Nat
  | 0, y => y
  | n + 1, y => sqN P n ((y * y) >>> P)

/-- e^r in fixed point, for r in [0, 1): the argument is halved 8 times. -/
def expFix (P r : Nat) : Nat := sqN P 8 (expSum P (r >>> 8) (P / 8 + 4) 1 (2 ^ P) (2 ^ P))

/-- An enclosure: the number lies strictly between `lo` × 2^e and `hi` × 2^e. -/
structure Encl where
  lo : Int
  hi : Int
  e  : Int

/-- The margin of every enclosure, in units in the last place. -/
def margin : Int := 2 ^ 24

/-- A dyadic number in fixed point, rounded down. -/
def fixOf (P : Nat) (d : Dy) : Int :=
  let s : Int := d.e + P
  if 0 ≤ s then d.m * ((2 ^ s.toNat : Nat) : Int) else d.m / ((2 ^ (-s).toNat : Nat) : Int)

/-- Encloses 2^d or e^d. -/
def exEncl (base2 : Bool) (d : Dy) (P : Nat) : Encl :=
  let x := fixOf P d
  let l : Int := (ln2 P : Nat)
  let one : Int := ((2 ^ P : Nat) : Int)
  let n := if base2 then x / one else x / l
  let r := if base2 then ((x - n * one) * l) / one else x - n * l
  let y : Int := (expFix P r.toNat : Nat)
  ⟨y - margin, y + margin, n - P⟩

/-- Encloses log₂ or ln of m × 2^e, for m > 0. -/
def logEncl (base2 : Bool) (m : Nat) (e : Int) (P : Nat) : Encl :=
  let k : Int := (Nat.log2 m : Int) + e
  let f := if Nat.log2 m ≤ P then m <<< (P - Nat.log2 m) else m >>> (Nat.log2 m - P)
  let one := 2 ^ P
  let z := ((f - one) <<< P) / (f + one)
  let lf : Int := (lnRatio P z : Nat)
  let l2 : Int := (ln2 P : Nat)
  let y := if base2 then k * (one : Int) + (lf * (one : Int)) / l2 else k * l2 + lf
  ⟨y - margin, y + margin, -(P : Int)⟩

/-- The code both ends of an enclosure round to, if they agree. -/
def Encl.code? (f : Fmt) (c : Encl) : Option Nat :=
  let a := f.encode ((Dy.mk c.lo c.e).toF false)
  let b := f.encode ((Dy.mk c.hi c.e).toF false)
  if a = b then some a else none

/-- The rounding of the enclosed number, trying the precisions in turn. -/
def decideCode (f : Fmt) (encl : Nat → Encl) : List Nat → Option Nat
  | [] => none
  | P :: Ps => match (encl P).code? f with
    | some c => some c
    | none => decideCode f encl Ps

/-- The precisions tried. -/
def precisions : List Nat := [192, 384, 768, 1536, 3072]

/-- 2^x or e^x of a dyadic number, rounded once (R114).  Beyond ±2^12 the result has left every format's range. -/
def expCode (f : Fmt) (base2 : Bool) (d : Dy) : Nat :=
  if d.m = 0 then f.encode (.fin false 1 0)
  else if (Dy.mk 4096 0).lt d then f.encode (.inf false)
  else if d.lt (Dy.mk (-4096) 0) then 0
  else if base2 ∧ fixOf 0 d * ((2 ^ 64 : Nat) : Int) = fixOf 64 d ∧ (-(64 : Int)) ≤ d.e then
    f.encode (.fin false 1 (fixOf 0 d))
  else (decideCode f (exEncl base2 d) precisions).getD (Config.undecided (ofInt 64 d.m))

/-- VEXP2 or VEXPE of a value (R114). -/
def fExp (f : Fmt) (base2 : Bool) : FVal → Nat
  | .nan => f.nanCode
  | .inf true => 0
  | .inf false => f.encode (.inf false)
  | .fin n m e => expCode f base2 (dyOf n m e)

/-- VLOG2 or VLN of a value (R114). -/
def fLog (f : Fmt) (base2 : Bool) : FVal → Nat
  | .nan => f.nanCode
  | .inf true => f.nanCode
  | .inf false => f.encode (.inf false)
  | .fin n m e =>
    if m = 0 then f.encode (.inf true)
    else if n then f.nanCode
    else if m = 2 ^ Nat.log2 m ∧ (base2 ∨ (Nat.log2 m : Int) + e = 0) then
      f.encode (fOfInt ((Nat.log2 m : Int) + e))
    else (decideCode f (logEncl base2 m e) precisions).getD (Config.undecided m)

/-- VEXPD: e^(a − b) with the difference formed exactly (R114). -/
def fExpD (f : Fmt) (a b : FVal) : Nat := fExp f false (a.sub b)

end Sys2Proof.Machine
end

