-- ==== Sys2Proof/Machine/Arith.lean ====
section
/-!
DEFINITION. Arithmetic that several units share: causes of first-NaN events, chunks, runs and totals, MX blocks,
moment blocks, coded rows, and the Philox generator (R40-R56, R60, R122).
-/

namespace Sys2Proof.Machine

/-- Causes of a first-NaN event (R61). -/
def causeConsumed : Nat := 1
def causeInvalid : Nat := 2
def causeOverflow : Nat := 3
def causeMxBlock : Nat := 4
def causeMxScale : Nat := 5
def causeCoded : Nat := 6

/-- The cause of a NaN result of an operation on `args` (R60), 0 when the result is no NaN. -/
def nanCause (args : List FVal) (r : FVal) : Nat :=
  if r.isNaN then (if args.any FVal.isNaN then causeConsumed else causeInvalid) else 0

/-- Place of a cause in the order of R60: MX scale, NaN consumed, invalid operation, overflow to NaN. -/
def causeRank (c : Nat) : Nat :=
  match c with
  | 5 => 0
  | 1 => 1
  | 2 => 2
  | 3 => 3
  | _ => 4

/-- The cause of a NaN result element to which two causes apply, 0 for none (R60). -/
def firstCause (a b : Nat) : Nat := if causeRank b < causeRank a then b else a

/-! ### Chunks, runs and totals -/

/-- One product of a chunk (R51, R52): the two inputs as values. -/
abbrev Prod2 := FVal × FVal

/-- The exponent of the leading bit of a non-zero product. -/
def topExp (m : Nat) (e : Int) : Int := (Nat.log2 m : Int) + e

/-- A product aligned to weight 2^lsb, truncated in magnitude, and whether bits were cut (R51 steps 3, 4). -/
def alignTo (lsb : Int) (n : Bool) (m : Nat) (e : Int) : Int × Bool :=
  let (a, cut) :=
    if lsb ≤ e then (m <<< (e - lsb).toNat, false)
    else let s := (lsb - e).toNat; (m >>> s, decide (m % 2 ^ s ≠ 0))
  (if n then -(a : Int) else a, cut)

/-- The FP32 code of a chunk of products, and the cause of its first-NaN event (R51, R52); 0 for none. -/
def chunk (ps : List Prod2) : Nat × Nat :=
  let anyNaN := ps.any (fun p => p.1.isNaN || p.2.isNaN)
  let prods := ps.map (fun p => p.1.mul p.2)
  let posInf := prods.any (fun p => p == .inf false)
  let negInf := prods.any (fun p => p == .inf true)
  if anyNaN then (fp32.nanCode, causeConsumed)
  else if prods.any FVal.isNaN || (posInf && negInf) then (fp32.nanCode, causeInvalid)
  else if posInf then (fp32.infCode false, 0)
  else if negInf then (fp32.infCode true, 0)
  else
    let nz := prods.filter (fun p => !p.isZero)
    match nz with
    | [] =>
      -- R51 step 8: −0 only when every product is −0
      ((if prods ≠ [] ∧ prods.all FVal.neg then fp32.encode (.fin true 0 0) else 0), 0)
    | p0 :: _ =>
      let tops := nz.map (fun p => match p with | .fin _ m e => topExp m e | _ => 0)
      let e0 := match p0 with | .fin _ m e => topExp m e | _ => 0
      let emax := tops.foldl max e0
      let lsb := emax - 48
      let al := nz.map (fun p => match p with | .fin n m e => alignTo lsb n m e | _ => (0, false))
      let sum := al.foldl (fun acc a => acc + a.1) (0 : Int)
      let sticky := al.any (fun a => a.2)
      if sum = 0 then (0, 0)
      else
        -- R51 step 6: the sticky bit counts only below a round bit, the one after the 24th significant bit
        let low := b2n (sticky && decide (2 ^ 24 ≤ sum.natAbs))
        (fp32.encode (.fin (decide (sum < 0)) (2 * sum.natAbs + low) (lsb - 1)), 0)

/-- Promotion of a run into a double-FP32 total (R54): the new hi and lo. -/
def promote (hi lo run : Nat) : Nat × Nat :=
  if !(f32fin hi) || !(f32fin run) then (f32add hi run, 0)
  else
    let s := f32add hi run
    if !(f32fin s) then (s, 0)
    else
      let bv := f32sub s hi
      let e := f32add (f32sub hi (f32sub s bv)) (f32sub run bv)
      let t := f32add lo e
      let h := f32add s t
      if !(f32fin h) then (h, 0) else (h, f32sub t (f32sub h s))

/-- The value hi + lo of a double-FP32 total, exact, with the special values of R47 (R49, R54). -/
def totalVal (hi lo : Nat) : FVal := (fp32.decode hi).add (fp32.decode lo)

/-- Bounds of INT64. -/
def int64Min : Int := -(2 ^ 63)
def int64Max : Int := 2 ^ 63 - 1

/-- Addition into an INT64 total: saturates and says so (R55). -/
def addSat64 (a b : Int) : Int × Bool :=
  let s := a + b
  if s < int64Min then (int64Min, true) else if int64Max < s then (int64Max, true) else (s, false)

/-! ### MX blocks -/

/-- The value of an E8M0 scale: a NaN for 0xFF (R40). -/
def e8m0 (c : Nat) : FVal := if c = 0xFF then .nan else .fin false 1 ((c : Int) - 127)

/-- Element formats of R116: their format when floating-point, `none` for MXINT8. -/
def mxFmt : Nat → Option Fmt
  | 0 => some Sys2Proof.Machine.e4m3
  | 1 => some e5m2
  | 2 => some e2m3
  | 3 => some e3m2
  | 4 => some e2m1
  | _ => none

/-- Width of an MX element of R116 in bits. -/
def mxBits : Nat → Nat
  | 2 => 6
  | 3 => 6
  | 4 => 4
  | _ => 8

/-- emax of R41 step 4. -/
def mxEmax : Nat → Int
  | 0 => 8
  | 1 => 15
  | 2 => 2
  | 3 => 4
  | 4 => 2
  | _ => 0

/-- The value of an MX element code (R40). -/
def mxElem (k code : Nat) : FVal :=
  match mxFmt k with
  | some f => f.decode code
  | none => let i := toInt 8 code; .fin (decide (i < 0)) i.natAbs (-6)

/-- ⌊log₂⌋ of the largest magnitude of a list of finite values, if one is not zero. -/
def amaxExp (xs : List FVal) : Option Int :=
  xs.foldl (fun acc x => match x with
    | .fin _ m e => if m = 0 then acc else
        (match acc with | none => some (topExp m e) | some a => some (max a (topExp m e)))
    | _ => acc) none

/-- Element conversion inside an MX block: round x ÷ 2^s, saturating with the input's sign (R41 step 5). -/
def mxConvElem (k : Nat) (s : Int) (x : FVal) : Nat :=
  match x with
  | .fin n m e =>
    (match mxFmt k with
     | some f =>
       let c := min (f.roundMag m (e - s)) f.maxFin
       c + (if n then 2 ^ (f.ebits + f.mbits) else 0)
     | none =>
       let c := min (rne m (e - s + 6) 0) 127
       ofInt 8 (if n then -(c : Int) else c))
  | _ => 0

/-- Conversion of 32 FP32 codes into an MX block: scale, element codes, and whether a first-NaN event is raised (R41). -/
def mxBlock (k : Nat) (xs : List Nat) : Nat × List Nat × Bool :=
  let vs := xs.map fp32.decode
  if vs.any (fun v => !v.isFin) then (0xFF, xs.map (fun _ => 0), true)
  else match amaxExp vs with
    | none => (0x7F, xs.map (fun _ => 0), false)
    | some a =>
      let s := max (-127) (min 127 (a - mxEmax k))
      (ofInt 8 (s + 127), vs.map (mxConvElem k s), false)

/-! ### Moment blocks and coded rows -/

/-- Decode a first-moment code (R44). -/
def momDec1 (s1 c : Nat) : Nat :=
  let i := toInt 8 c
  let i := if i = -128 then -127 else i
  match fp16.decode s1 with
  | .nan => fp32.nanCode
  | v => fp32.encode ((v.mul (fOfInt i)).div (fOfInt 127))

/-- Decode a second-moment code (R44). -/
def momDec2 (s2 c : Nat) : Nat :=
  match fp16.decode s2 with
  | .nan => fp32.nanCode
  | v => let p := v.mul (fOfInt c); fp32.encode ((p.mul p).div (fOfInt 65025))

/-- The largest magnitude among FP32 codes. -/
def maxAbs (xs : List Nat) : FVal :=
  xs.foldl (fun acc x => let a := (fp32.decode x).abs; if acc.lt a then a else acc) (.fin false 0 0)

/-- FP16 rounding that saturates to 65,504 (R44). -/
def fp16Sat (v : FVal) : Nat :=
  match v with
  | .fin n m e => let c := min (fp16.roundMag m e) fp16.maxFin; c + (if n then 2 ^ 15 else 0)
  | _ => fp16.maxFin

/-- A finite quotient rounded to an integer, ties to even (R44, R45). -/
def roundQuot (a b : FVal) : Int := (a.div b).toIntR

/-- Encode first moments: scale, codes, and whether an input is not finite (R44). -/
def momEnc1 (ms : List Nat) : Nat × List Nat × Bool :=
  if ms.any (fun m => !(f32fin m)) then (0x7E00, ms.map (fun _ => 0), true)
  else
    let s1 := fp16Sat (maxAbs ms)
    let s := fp16.decode s1
    if s.isZero then (s1, ms.map (fun _ => 0), false)
    else (s1, ms.map (fun m =>
      ofInt 8 (max (-127) (min 127 (roundQuot ((fp32.decode m).mul (fOfInt 127)) s)))), false)

/-- √v × 255 ÷ s rounded to an integer: the square of the exact quotient is compared with halves; the square root of a value
below zero is NaN and gives 0 (R44, R47, R49). -/
def sqrtQuot (v s : FVal) : Int :=
  -- √(v × 255² ÷ s²), formed as the square root of a quotient with 80 bits
  match (v.mul (fOfInt 65025)).div (s.mul s) with
  | .fin neg m e => if m = 0 ∨ neg then 0 else (sqrtDy m e).toIntR
  | _ => 255

/-- The largest of a list of FP32 codes (R48). -/
def maxVal (xs : List Nat) : FVal :=
  (xs.map fp32.decode).foldl FVal.max (fp32.decode (xs.headD 0))

/-- Encode second moments (R44).  A block whose every input is below zero has a NaN scale: it is written as one of a
non-finite input (the model's choice, log 53). -/
def momEnc2 (vs : List Nat) : Nat × List Nat × Bool :=
  let r := (maxVal vs).sqrt
  if vs.any (fun v => !(f32fin v)) ∨ r.isNaN then (0x7E00, vs.map (fun _ => 0), true)
  else
    let s2 := fp16Sat r
    let s := fp16.decode s2
    if s.isZero then (s2, vs.map (fun _ => 0), false)
    else (s2, vs.map (fun v => (max 0 (min 255 (sqrtQuot (fp32.decode v) s))).toNat), false)

/-- The value of code `c` of a coded row with scale `s` and offset `o`, exact (R45). -/
def rowDec (s o c : Nat) : FVal := (fp16.decode o).add ((fp16.decode s).mul (fOfInt c))

/-- Code `i` of a coded row of `b`-bit codes (R45). -/
def rowCode (bs : List Byte) (b i : Nat) : Nat :=
  if b = 8 then field bs (4 + i) 1
  else bits (field bs (4 + i / 2) 1) (4 * (i % 2)) 4

/-- Encode a row of FP32 codes with `b`-bit codes: scale, offset, codes (R45). -/
def rowEnc (b : Nat) (xs : List Nat) : Nat × Nat × List Nat :=
  let vs := xs.map fp32.decode
  let lo := vs.foldl FVal.min (vs.headD (.fin false 0 0))
  let hi := vs.foldl FVal.max (vs.headD (.fin false 0 0))
  let top : Int := ((2 ^ b : Nat) : Int) - 1
  let o := fp16.encode lo
  let s := fp16.encode ((hi.sub lo).div (fOfInt top))
  let sv := fp16.decode s
  (s, o, vs.map (fun x =>
    if sv.isZero then 0 else (max 0 (min top (roundQuot (x.sub (fp16.decode o)) sv))).toNat))

/-! ### Philox-4×32-10 -/

/-- One round of R122 on counter words x0-x3 under key words k0, k1. -/
def philoxRound (x : Nat × Nat × Nat × Nat) (k0 k1 : Nat) : Nat × Nat × Nat × Nat :=
  let (x0, x1, x2, x3) := x
  let p0 := 0xD2511F53 * x0
  let p1 := 0xCD9E8D57 * x2
  ((p1 >>> 32) ^^^ x1 ^^^ k0, p1 % 2 ^ 32, (p0 >>> 32) ^^^ x3 ^^^ k1, p0 % 2 ^ 32)

/-- `n` rounds; the key steps after each but the last. -/
def philoxRounds : Nat → Nat → Nat → Nat × Nat × Nat × Nat → Nat × Nat × Nat × Nat
  | 0, _, _, x => x
  | n + 1, k0, k1, x =>
    philoxRounds n ((k0 + 0x9E3779B9) % 2 ^ 32) ((k1 + 0xBB67AE85) % 2 ^ 32) (philoxRound x k0 k1)

/-- The four words of the block of a 64-bit key and a 128-bit counter (R122). -/
def philox (key ctr : Nat) : List Nat :=
  let (a, b, c, d) := philoxRounds 10 (bits key 0 32) (bits key 32 32)
    (bits ctr 0 32, bits ctr 32 32, bits ctr 64 32, bits ctr 96 32)
  [a, b, c, d]

end Sys2Proof.Machine
end

