-- ==== Sys2Proof/Machine/Flags.lean ====
section
/-!
DEFINITION. Results of stall arithmetic with the status bits they set: scalar integers (R57), vector integers (R58),
floating point (R46-R49, R60, R114) and conversions (R115).  Status bits are those of ASTAT (R102).
-/

namespace Sys2Proof.Machine

/-- Status bits (R102). -/
def fOVF : BitVec 4 := 1
def fDZ : BitVec 4 := 2
def fINV : BitVec 4 := 4
def fSAT : BitVec 4 := 8

/-- A result code, the status bits it sets and the cause of its first-NaN event, 0 for none. -/
structure ERes where
  code  : Nat
  flags : BitVec 4
  cause : Nat
  deriving DecidableEq, Repr

/-! ### Scalar integers -/

/-- A scalar result and its status. -/
abbrev GRes := BitVec 64 × BitVec 4

/-- An exact signed result reduced to `w` bits and sign-extended; OVF when it does not fit (R57, R107). -/
def wrapInt (w : Nat) (r : Int) : GRes :=
  let v := ofInt w r
  (BitVec.ofInt 64 (toInt w v), if toInt w v = r then 0 else fOVF)

/-- Signed operands of `w` bits. -/
def sgn (w : Nat) (a : BitVec 64) : Int := toInt w a.toNat
/-- Unsigned operands of `w` bits. -/
def uns (w : Nat) (a : BitVec 64) : Nat := a.toNat % 2 ^ w
/-- A `w`-bit number sign-extended (R107). -/
def sext (w n : Nat) : BitVec 64 := BitVec.ofInt 64 (toInt w n)

def aluAdd (w : Nat) (a b : BitVec 64) : GRes := wrapInt w (sgn w a + sgn w b)
def aluSub (w : Nat) (a b : BitVec 64) : GRes := wrapInt w (sgn w a - sgn w b)
def aluMul (w : Nat) (a b : BitVec 64) : GRes := wrapInt w (sgn w a * sgn w b)
def aluMulh (a b : BitVec 64) : GRes := (BitVec.ofInt 64 (a.toInt * b.toInt / 2 ^ 64), 0)
def aluMulhu (a b : BitVec 64) : GRes := (BitVec.ofNat 64 (a.toNat * b.toNat / 2 ^ 64), 0)

/-- Signed quotient (R57): −1 and DZ by zero, the dividend and OVF of the most negative value by −1. -/
def aluDiv (w : Nat) (a b : BitVec 64) : GRes :=
  if sgn w b = 0 then (BitVec.ofInt 64 (-1), fDZ) else wrapInt w (Int.tdiv (sgn w a) (sgn w b))
/-- Signed remainder (R57). -/
def aluRem (w : Nat) (a b : BitVec 64) : GRes :=
  if sgn w b = 0 then (BitVec.ofInt 64 (sgn w a), fDZ)
  else (BitVec.ofInt 64 (Int.tmod (sgn w a) (sgn w b)),
        if sgn w a = -(2 ^ (w - 1)) ∧ sgn w b = -1 then fOVF else 0)
/-- Unsigned quotient (R57). -/
def aluDivu (w : Nat) (a b : BitVec 64) : GRes :=
  if uns w b = 0 then (BitVec.ofInt 64 (-1), fDZ) else (sext w (uns w a / uns w b), 0)
/-- Unsigned remainder (R57). -/
def aluRemu (w : Nat) (a b : BitVec 64) : GRes :=
  if uns w b = 0 then (sext w (uns w a), fDZ) else (sext w (uns w a % uns w b), 0)

def aluAnd (a b : BitVec 64) : GRes := (a &&& b, 0)
def aluOr (a b : BitVec 64) : GRes := (a ||| b, 0)
def aluXor (a b : BitVec 64) : GRes := (a ^^^ b, 0)
/-- Shifts by n mod 64, or mod 32 in word forms (R57). -/
def aluShl (w : Nat) (a b : BitVec 64) : GRes := (sext w (uns w a <<< (b.toNat % w)), 0)
def aluShr (w : Nat) (a b : BitVec 64) : GRes := (sext w (uns w a >>> (b.toNat % w)), 0)
def aluSra (w : Nat) (a b : BitVec 64) : GRes := (BitVec.ofInt 64 (sgn w a / 2 ^ (b.toNat % w)), 0)
def aluSlt (a b : BitVec 64) : GRes := (if a.toInt < b.toInt then 1 else 0, 0)
def aluSltu (a b : BitVec 64) : GRes := (if a.toNat < b.toNat then 1 else 0, 0)
def aluNeg (w : Nat) (a : BitVec 64) : GRes := wrapInt w (-(sgn w a))
def aluAbs (w : Nat) (a : BitVec 64) : GRes := wrapInt w (sgn w a).natAbs
def aluMin (a b : BitVec 64) : GRes := (if a.toInt ≤ b.toInt then a else b, 0)
def aluMax (a b : BitVec 64) : GRes := (if a.toInt ≤ b.toInt then b else a, 0)

/-! ### Floating point -/

/-- The result of a floating-point operation on `args` (R46, R47, R59, R60): an invalid operation sets INV; `strict`
operations, those of R114, set it for every NaN result. -/
def fRes (f : Fmt) (strict : Bool) (args : List FVal) (r : FVal) : ERes :=
  let c := nanCause args r
  { code := f.encode r, flags := if c = causeInvalid ∨ (strict ∧ c ≠ 0) then fINV else 0, cause := c }

/-- The same for a result already rounded (R114). -/
def cRes (f : Fmt) (args : List FVal) (code : Nat) : ERes :=
  let c := if (f.decode code).isNaN then (if args.any FVal.isNaN then causeConsumed else causeInvalid) else 0
  { code := code, flags := if c ≠ 0 then fINV else 0, cause := c }

/-- A result without status. -/
def plain (n : Nat) : ERes := { code := n, flags := 0, cause := 0 }

/-- The format of a float ET or FT code (R104). -/
def fmtOf : Nat → Option Fmt
  | 0 => some fp32
  | 1 => some bf16
  | 2 => some fp16
  | _ => none

/-- Width in bits of an ET code (R104). -/
def etWidth : Nat → Nat
  | 0 => 32
  | 1 => 16
  | 2 => 16
  | 3 => 8
  | 4 => 16
  | 5 => 32
  | _ => 64

/-- Whether an ET code is an integer type. -/
def etInt (et : Nat) : Bool := decide (3 ≤ et ∧ et ≤ 6)

/-! ### Vector integers -/

def intMin (w : Nat) : Int := -(2 ^ (w - 1))
def intMax (w : Nat) : Int := 2 ^ (w - 1) - 1

/-- A wrapping vector result: no status (R110). -/
def vWrap (w : Nat) (r : Int) : ERes := plain (ofInt w r)
/-- A saturating vector result (R58). -/
def vSat (w : Nat) (r : Int) : ERes :=
  if r < intMin w then { code := ofInt w (intMin w), flags := fSAT, cause := 0 }
  else if intMax w < r then { code := ofInt w (intMax w), flags := fSAT, cause := 0 }
  else plain (ofInt w r)

/-- A binary vector operation on element codes: `g` on floats, `h` on integers (R110). -/
def vBin (et : Nat) (g : Fmt → FVal → FVal → ERes) (h : Nat → Int → Int → ERes) (a b : Nat) : ERes :=
  match fmtOf et with
  | some f => g f (f.decode a) (f.decode b)
  | none => h (etWidth et) (toInt (etWidth et) a) (toInt (etWidth et) b)

def vAdd (et : Nat) : Nat → Nat → ERes :=
  vBin et (fun f a b => fRes f false [a, b] (a.add b)) (fun w a b => vWrap w (a + b))
def vSub (et : Nat) : Nat → Nat → ERes :=
  vBin et (fun f a b => fRes f false [a, b] (a.sub b)) (fun w a b => vWrap w (a - b))
def vMul (et : Nat) : Nat → Nat → ERes :=
  vBin et (fun f a b => fRes f false [a, b] (a.mul b)) (fun w a b => vWrap w (a * b))
def vMin (et : Nat) : Nat → Nat → ERes :=
  vBin et (fun f a b => fRes f false [a, b] (a.min b)) (fun w a b => vWrap w (min a b))
def vMax (et : Nat) : Nat → Nat → ERes :=
  vBin et (fun f a b => fRes f false [a, b] (a.max b)) (fun w a b => vWrap w (max a b))
def vAdds (et a b : Nat) : ERes := vSat (etWidth et) (toInt (etWidth et) a + toInt (etWidth et) b)
def vSubs (et a b : Nat) : ERes := vSat (etWidth et) (toInt (etWidth et) a - toInt (etWidth et) b)
def vMuls (et a b : Nat) : ERes := vSat (etWidth et) (toInt (etWidth et) a * toInt (etWidth et) b)
def vAbs (et a : Nat) : ERes :=
  match fmtOf et with
  | some f => fRes f false [f.decode a] (f.decode a).abs
  | none => vWrap (etWidth et) (toInt (etWidth et) a).natAbs
def vNeg (et a : Nat) : ERes :=
  match fmtOf et with
  | some f => fRes f false [f.decode a] (f.decode a).negate
  | none => vWrap (etWidth et) (-(toInt (etWidth et) a))
def vAbss (et a : Nat) : ERes := vSat (etWidth et) (toInt (etWidth et) a).natAbs
def vNegs (et a : Nat) : ERes := vSat (etWidth et) (-(toInt (etWidth et) a))
def vAnd (_ a b : Nat) : ERes := plain (a &&& b)
def vOr (_ a b : Nat) : ERes := plain (a ||| b)
def vXor (_ a b : Nat) : ERes := plain (a ^^^ b)
def vMov (_ a : Nat) : ERes := plain a
/-- Shifts by the element width or more give 0, or the sign (R58). -/
def vShl (et a b : Nat) : ERes := plain (if etWidth et ≤ b then 0 else (a <<< b) % 2 ^ etWidth et)
def vShr (et a b : Nat) : ERes := plain (if etWidth et ≤ b then 0 else a >>> b)
def vSra (et a b : Nat) : ERes :=
  plain (ofInt (etWidth et) (toInt (etWidth et) a / 2 ^ min b (etWidth et)))

/-- A float-only operation on one element (R114); integer types do not reach it. -/
def vF1 (et : Nat) (g : Fmt → FVal → ERes) (a : Nat) : ERes :=
  match fmtOf et with
  | some f => g f (f.decode a)
  | none => plain 0
def vF2 (et : Nat) (g : Fmt → FVal → FVal → ERes) (a b : Nat) : ERes :=
  match fmtOf et with
  | some f => g f (f.decode a) (f.decode b)
  | none => plain 0

def vDiv (et : Nat) : Nat → Nat → ERes := vF2 et (fun f a b => fRes f true [a, b] (a.div b))
def vSqrt (et : Nat) : Nat → ERes := vF1 et (fun f a => fRes f true [a] a.sqrt)
def vRcp (et : Nat) : Nat → ERes := vF1 et (fun f a => fRes f true [a] a.recip)
def vRsqrt (et : Nat) : Nat → ERes := vF1 et (fun f a => fRes f true [a] a.rsqrt)
def vExp2 (et : Nat) : Nat → ERes := vF1 et (fun f a => cRes f [a] (fExp f true a))
def vExpe (et : Nat) : Nat → ERes := vF1 et (fun f a => cRes f [a] (fExp f false a))
def vLog2 (et : Nat) : Nat → ERes := vF1 et (fun f a => cRes f [a] (fLog f true a))
def vLn (et : Nat) : Nat → ERes := vF1 et (fun f a => cRes f [a] (fLog f false a))
def vExpd (et : Nat) : Nat → Nat → ERes := vF2 et (fun f a b => cRes f [a, b] (fExpD f a b))

/-- Comparisons (R48, R110). -/
def vCmp (et : Nat) (g : FVal → FVal → Bool) (h : Int → Int → Bool) (a b : Nat) : Bool :=
  match fmtOf et with
  | some f => g (f.decode a) (f.decode b)
  | none => h (toInt (etWidth et) a) (toInt (etWidth et) b)

/-! ### Fused operations -/

def vFma (f : Fmt) (a b c : Nat) : ERes :=
  let (x, y, z) := (f.decode a, f.decode b, f.decode c)
  fRes f false [x, y, z] (FVal.fma x y z)
def vFms (f : Fmt) (a b c : Nat) : ERes :=
  let (x, y, z) := (f.decode a, f.decode b, f.decode c)
  fRes f false [x, y, z] (FVal.fma x y z.negate)
def vClamp (f : Fmt) (a b c : Nat) : ERes :=
  let (x, y, z) := (f.decode a, f.decode b, f.decode c)
  fRes f false [x, y, z] ((x.max y).min z)

/-! ### Conversions -/

/-- A number type of VCVT: a float format or an integer width (R115). -/
inductive NumTy where
  | flt (f : Fmt)
  | int (w : Nat)
  deriving DecidableEq, Repr

/-- The type of a destination code of R115. -/
def cvtTy (k : Nat) : Option NumTy :=
  if k = 8 then some (.flt e4m3) else if k = 9 then some (.flt e5m2)
  else if 7 ≤ k then none
  else match fmtOf k with
    | some f => some (.flt f)
    | none => some (.int (etWidth k))

def NumTy.width : NumTy → Nat
  | .flt f => f.width
  | .int w => w

def NumTy.isInt : NumTy → Bool
  | .flt _ => false
  | .int _ => true

/-- A float value into a float format, with the NaN causes of R49. -/
def toFmt (f : Fmt) (v : FVal) : ERes :=
  { code := f.encode v, flags := 0,
    cause := if v.isNaN then causeConsumed else if f.overNaN v then causeOverflow else 0 }

/-- A float value into a signed integer (R49). -/
def toIntTy (w : Nat) (v : FVal) : ERes :=
  let r := v.toRange (intMin w) (intMax w)
  { code := ofInt w r.1, flags := if r.2 then fINV else 0, cause := 0 }

/-- One element conversion (R49, R58, R115). -/
def convert (src dst : NumTy) (sat : Bool) (x : Nat) : ERes :=
  match src, dst with
  | .flt f, .flt g => toFmt g (f.decode x)
  | .flt f, .int w => toIntTy w (f.decode x)
  | .int v, .flt g => toFmt g (fOfInt (toInt v x))
  | .int v, .int w => if sat then vSat w (toInt v x) else plain (ofInt w (toInt v x))

end Sys2Proof.Machine
end

