-- ==== Sys2Proof/Machine/Objects.lean ====
section
/-!
DEFINITION. Keys and reset values of the objects of the dictionary that are held as plain values (R323, R324).

An object is keyed by 256 × index + subindex.  Objects that only show what another part of the state holds
(PART_STATE, MXA_STATUS, STACK_STATE ...) are formed when they are read (Machine/Dictionary.lean).
-/

namespace Sys2Proof.Machine

/-- The key of an object (R323). -/
def objKey (idx sub : Nat) : Nat := 256 * idx + sub

/-- An object of partition p at 0x2000 + p. -/
def pkey (p sub : Nat) : Nat := objKey (0x2000 + p) sub

/-- A training object of partition p at 0x2400 + p (R295). -/
def tkey (p sub : Nat) : Nat := objKey (0x2400 + p) sub

/-- The keys the units use by name. -/
def kStep (p : Nat) : Nat := tkey p 0x04
def kOptStep (p : Nat) : Nat := tkey p 0x05
def kNanRecord (p : Nat) : Nat := pkey p 0x30
def kNanCount (p : Nat) : Nat := pkey p 0x31
def kNanTrap (p : Nat) : Nat := pkey p 0x32
def kStallFault (p : Nat) : Nat := pkey p 0x60
def kStallFaultCount (p : Nat) : Nat := pkey p 0x61
def kStallFaultCtrl (p : Nat) : Nat := pkey p 0x62
def kWeights (p : Nat) : Nat := pkey p 0x03
def kImage (p : Nat) : Nat := pkey p 0x04
def kLoadStatus (p : Nat) : Nat := pkey p 0x05
def kDeterminism (p : Nat) : Nat := pkey p 0x06
def kSqBase (p : Nat) : Nat := pkey p 0x08
def kSqSize (p : Nat) : Nat := pkey p 0x09
def kCqBase (p : Nat) : Nat := pkey p 0x0A
def kCqSize (p : Nat) : Nat := pkey p 0x0B
def kIntrCtrl (p : Nat) : Nat := pkey p 0x0C
def kDbIgnored (p : Nat) : Nat := pkey p 0x0D
def kRunahead (p : Nat) : Nat := pkey p 0xB0
def kRaGranules (p : Nat) : Nat := pkey p 0xB1
def kRaAdopted (p : Nat) : Nat := pkey p 0xB2
def kRaDiscarded (p : Nat) : Nat := pkey p 0xB3
def kCompress (p : Nat) : Nat := pkey p 0xC0
def kCacheCtrl (p : Nat) : Nat := pkey p 0xC1
def kReStatus (p : Nat) : Nat := pkey p 0xC2
def kHbmLayout (p : Nat) : Nat := pkey p 0xD0
def kVerdictCfg (p : Nat) : Nat := tkey p 0x00
def kClipNorm (p : Nat) : Nat := tkey p 0x01
def kLossScale (p : Nat) : Nat := tkey p 0x02
def kLsCtrl (p : Nat) : Nat := tkey p 0x03
def kVerdict (p : Nat) : Nat := tkey p 0x06
def kSkipCount (p : Nat) : Nat := tkey p 0x08
def kClipCount (p : Nat) : Nat := tkey p 0x09
def kNoiseCfg (p : Nat) : Nat := tkey p 0x0A
def kNoise (p : Nat) : Nat := tkey p 0x0B
def kNoiseStep (p : Nat) : Nat := tkey p 0x0C
def kGroup (p g : Nat) : Nat := tkey p (0x10 + g)
def kMirrorCfg (p : Nat) : Nat := tkey p 0x40
def kMirrorStep (p : Nat) : Nat := tkey p 0x43
def kMirrorExtra (p : Nat) : Nat := tkey p 0x44
def kPipe (p : Nat) : Nat := tkey p 0x50
def kPeer (p i : Nat) : Nat := objKey (0x2140 + p) i
def kDataVl (p : Nat) : Nat := objKey (0x2140 + p) 0x10
def kPlan (p n : Nat) : Nat := objKey (0x2160 + p) n
def kTable (p t : Nat) : Nat := objKey (0x2300 + p) t
def kTableLoad (p t : Nat) : Nat := objKey (0x2320 + p) t
def kStackLoad (k p : Nat) : Nat := objKey (0x2340 + k) p
def kPort (k sub : Nat) : Nat := objKey (0x2100 + k) sub
def kStack (k sub : Nat) : Nat := objKey (0x2200 + k) sub
def kDeviceId : Nat := objKey 0x2110 0
def kTopology : Nat := objKey 0x2110 1
def kPortDir : Nat := objKey 0x2110 2
def kFailoverMs : Nat := objKey 0x2110 4
def kTxnLimit : Nat := objKey 0x2110 5
def kTimeCtrl : Nat := objKey 0x2110 6
def kStray : Nat := objKey 0x2110 9
def kLlynMgmt : Nat := objKey 0x2110 0xA
def kScrubCtrl : Nat := objKey 0x22F0 0
def kLeaseExpired : Nat := objKey 0x1100 0x21
def kMgmtPort : Nat := objKey 0x1110 0
def kNetCtrl : Nat := objKey 0x1110 1
def kMgmtDropped : Nat := objKey 0x1110 8
def kSeasonCfg : Nat := objKey 0x1200 2
def kAttempts (n : Nat) : Nat := objKey 0x1201 n
def kPowerCap : Nat := objKey 0x1202 0
def kMaxPoint (y : Nat) : Nat := objKey (0x1204 + y) 1
def kDroopCount (y : Nat) : Nat := objKey (0x1204 + y) 3
def kPowerGoodCount : Nat := objKey 0x1300 3
def kPerfSel (n : Nat) : Nat := objKey 0x1311 n
def kMlogCtrl : Nat := objKey 0x3000 3
def kFlogSelect : Nat := objKey 0x3200 1
def kFwBoot : Nat := objKey 0x4000 0
def kPartStore (p : Nat) : Nat := objKey (0x4010 + p) 0

/-- Reset value of VERDICT_CFG: VSTART, VFLAG, APPLY_DONE and ALT_FREE are none (R299). -/
def verdictCfgReset : Nat := setBits (setBits (setBits (setBits 0 32 32 0xFFFFFFFF) 64 32 0xFFFFFFFF)
  96 32 0xFFFFFFFF) 128 32 0xFFFFFFFF

/-- Reset value of an object held as a plain value; 0 where no chapter gives another (R346, R64, R184, R222, R225,
R278, R252, R292, R294, R299-R312, R333, R369, R370, R376, R392). -/
def objReset (k : Nat) : Nat :=
  let idx := k / 256
  let sub := k % 256
  if 0x2000 ≤ idx ∧ idx ≤ 0x201F then
    (if sub = 0x03 then 0x00101010 else if sub = 0x0C then 0x101 else if sub = 0x32 then 1
     else if sub = 0xB0 then 6 else if sub = 0xC0 then 40 else if sub = 0xC1 then 0xF0 else 0)
  else if 0x2400 ≤ idx ∧ idx ≤ 0x241F then
    (if sub = 0x00 then verdictCfgReset else if sub = 0x01 then 0x7F800000 else if sub = 0x02 then 0x3F800000
     else if sub = 0x03 then 0x18000000 else if sub = 0x0A then 0x3D4CCCCD
     else if 0x10 ≤ sub ∧ sub ≤ 0x2F then 0xFFFF00 else 0)
  else if 0x2140 ≤ idx ∧ idx ≤ 0x215F then
    (if sub = 0x10 then 2 + 2 * ((idx - 0x2140) % 7) else 0)
  else if 0x2100 ≤ idx ∧ idx ≤ 0x210B then
    (if sub = 0x02 then 1 else if sub = 0x0A then 1024 else 0)
  else if idx = 0x2110 then
    (if sub = 2 then 0x531420531420 else if sub = 4 then 50 else 0)
  else if 0x2200 ≤ idx ∧ idx ≤ 0x220B then (if sub = 5 then 4096 else 0)
  else if k = objKey 0x22F0 0 then 24
  else if idx = 0x1110 then
    (if sub = 0 then 4720 else if sub = 1 then 3 else if sub = 3 then 24 else if sub = 5 then 64 else 0)
  else if k = objKey 0x1200 2 then 0x03E80005
  else if k = objKey 0x1202 0 then 1800
  else if 0x1204 ≤ idx ∧ idx ≤ 0x1207 then (if sub = 1 then 15 else 0)
  else if k = objKey 0x3000 3 then 1
  else 0

end Sys2Proof.Machine
end

