-- ==== Sys2Proof/Machine/State.lean ====
section
/-!
DEFINITION. The state of the module, as plain data, and its value after reset.

Every structure's fields carry the rule of spec/ that names them.  Sparse arrays (`FMap`) list only what differs
from the reset value of a unit, so a state with nothing listed is the module after reset.
Memory is one sparse array over the physical keys of Machine/Ops.lean (stall memories, lofts, HBM).
-/

namespace Sys2Proof.Machine

/-- Why a step stops the model.  Safe: the model stops where no unit of the module takes the command. -/
inductive Fault where
  /-- The command names a unit beyond the ranges of R5 or R25, which the module does not have.  Safe: no such unit
  exists to act.  Raised by every meaning that takes a unit number. -/
  | noSuchUnit
  deriving DecidableEq, Repr

/-- Why a command has no meaning. -/
inductive Refusal where
  /-- A row without a meaning yet; raised only by an arm of Dispatch.  Safe. -/
  | notModelled (mnemonic : String)
  deriving DecidableEq, Repr

/-! ### Control mesh -/

/-- Who waits for the result of an operation on the control mesh (R120, R137, R142). -/
inductive Reply where
  | none
  | stall (t seq : Nat)
  | agg (id : Nat)
  | remote (dev part tag home : Nat) (target : BitVec 64)  -- home: the partition here that answers; target: echoed
  | slot (sh id : Nat)           -- a fired watch whose slot is freed (R139)
  | ingress (port stamp : Nat)   -- a push from another module, which keeps its place at the port till then (R149)
  deriving DecidableEq, Repr

/-- The operations that travel on the control mesh (R16, R121, R143); `undo` disarms the sub-watches of a WATCH on a pen
that was refused (R144). -/
inductive MOp where
  | set | clear | test | watch | cancel | evpush | hpush | send | mx | ucmd | report | undo
  deriving DecidableEq, Repr

/-- One operation on its way over the control mesh (R16). -/
structure Mesh where
  op     : MOp
  target : BitVec 64        -- unit address (R24)
  a2     : BitVec 64        -- WATCH: the queue; HPUSH: the handle; CANCEL: the identifier
  data   : BitVec 1024      -- event, command or descriptor
  n      : Nat              -- UCMD: 32-byte units; WATCH: the value; EVPUSH: KIND at dispatch
  stall  : Nat              -- issuing stall, 1,024 for none (R160)
  pc     : BitVec 32        -- address of the issuing instruction (R61)
  part   : Nat              -- issuing partition
  dev    : Option Nat       -- issuing module of a remote operation
  depth  : Nat              -- pen depth reached (R29)
  reply  : Reply
  tagId  : Option Nat := none  -- UCMD: the identity under which its descriptors hold a tag (R126)
  deriving DecidableEq, Repr

/-- One operation to all members of a pen that is not complete (R30, R142). -/
structure PenOp where
  id    : Nat
  left  : Nat               -- leaf or member operations not yet performed
  acc   : Bool              -- TEST: every leaf so far read 1; WATCH: every sub-watch so far was armed
  wid   : Nat               -- WATCH: the identifier it returns
  isWatch : Bool
  reply : Reply
  full  : Bool := false      -- WATCH: a sub-watch found no slot (R144)
  gives : Option Nat := none -- CANCEL: what it returns, whatever the members answer (R142)
  part  : Nat := 0           -- WATCH: issuing partition and stall, and the pen addressed
  stall : Nat := 1024
  target : BitVec 64 := 0
  deriving DecidableEq, Repr

/-- A push that waits for its queue to accept it (R139, R149). -/
structure Push where
  queue : Nat               -- INDEX of the queue (R25)
  kind  : BitVec 4          -- KIND at dispatch (R147)
  ev    : BitVec 256        -- the event as pushed, or the handle in bits [63:0] when kind is 2
  stall : Nat
  part  : Nat
  reply : Reply
  dev   : Option Nat := none -- issuing module of a remote push
  deriving DecidableEq, Repr

/-- An event accepted by a queue or mailbox (R147). -/
structure Event where
  prio  : BitVec 3
  key   : BitVec 16
  kind  : BitVec 4
  h     : BitVec 192        -- payload, bits [255:64]
  stamp : Nat               -- order of acceptance (R153)
  deriving DecidableEq, Repr

/-! ### Stall -/

/-- Kinds of an access outside the stall's own memory (R126). -/
inductive AccKind where
  | load | store | aadd | acas
  deriving DecidableEq, Repr

/-- Where an access's part stands (R126, R195). -/
inductive Stage where
  | issued | windowed | done
  deriving DecidableEq, Repr

/-- A part of an access that lies in one aligned 32-byte sector. -/
structure APart where
  phys  : Nat               -- physical key of its first byte
  len   : Nat
  off   : Nat               -- first byte's place in the access
  stage : Stage
  data  : List (BitVec 8)   -- bytes read
  deriving DecidableEq, Repr

/-- The registers of a stall that a later instruction may change, as they were before an instruction (R132). -/
structure Ctx where
  g      : FMap (BitVec 64)
  v      : FMap (BitVec 1024)
  p      : FMap (BitVec 128)
  astat  : BitVec 4
  wrap   : Bool
  rngKey : BitVec 64
  rngLo  : BitVec 64
  rngHi  : BitVec 64
  deriving DecidableEq, Repr

/-- No register yet. -/
def Ctx.empty : Ctx := { g := [], v := [], p := [], astat := 0, wrap := false, rngKey := 0, rngLo := 0, rngHi := 0 }

/-- An outstanding load, store or atomic, which holds one tag (R126). -/
structure Access where
  seq    : Nat              -- place in program order
  kind   : AccKind
  dst    : Option Nat       -- 0-31: g register; 32-63: v register; none once superseded
  signed : Bool
  size   : Nat
  addr   : BitVec 64
  parts  : List APart
  value  : BitVec 1024      -- bytes stored, or the value added or swapped in
  mask   : BitVec 128       -- bytes stored
  fmt    : Nat              -- AADD: format of R109
  expect : BitVec 64        -- ACAS
  poison : Bool             -- a sector read was poisoned (R246)
  pc     : BitVec 32
  ctx    : Ctx := Ctx.empty -- a load or ACAS: the registers before it (R132)
  was    : Option (Nat × Nat) := none  -- the register it had as destination, and the place at which it was superseded
  deriving DecidableEq, Repr

/-- An entry of the control issue queue (R121). -/
structure CtlOp where
  seq : Nat
  msg : Mesh
  deriving DecidableEq, Repr

/-- A register that waits for the result of FTEST, WATCH or WCANCEL (R120). -/
structure Wait where
  seq     : Nat
  dst     : Option Nat
  acquire : Bool            -- FTEST, WCANCEL and a remote WATCH hold later accesses back (R128 rule 5, R137)
  was     : Option (Nat × Nat) := none  -- as that of an access
  deriving DecidableEq, Repr

/-- What a stall is doing (R31, R117, R132, R350). -/
inductive StallMode where
  | parked                  -- no STALL_START in the image
  | running
  | getWork (d c : Nat) (since : Nat)
  | faulted
  deriving DecidableEq, Repr

/-- One stall (R99, R100, R103, R119, R121, R126). -/
structure Stall where
  g      : FMap (BitVec 64)      -- g0-g30 (R99)
  v      : FMap (BitVec 1024)    -- v0-v31 (R99)
  p      : FMap (BitVec 128)     -- p1-p7 (R99)
  pc     : BitVec 32             -- R99
  astat  : BitVec 4              -- OVF, DZ, INV, SAT (R102)
  wrap   : Bool                  -- CYCLE.WRAP (R100)
  wraps  : Nat                   -- wraps of CYCLE already taken (R387)
  rngKey : BitVec 64             -- R100
  rngLo  : BitVec 64
  rngHi  : BitVec 64
  mode   : StallMode
  cur    : Option (Nat × Nat)    -- current event: queue (0x400 the mailbox) and order key (R117, R152)
  retire : Option Nat            -- EVDONE: the current event retires once stores before this place are visible (R103, R118)
  acc    : List Access           -- outstanding accesses, oldest first (R126)
  ctl    : List CtlOp            -- control issue queue, 16 entries (R121)
  waits  : List Wait             -- results not yet returned (R120)
  seq    : Nat                   -- place in program order of the next access or control operation
  descs  : Nat                   -- tags held by UCMD descriptors (R126)
  mail   : List Event            -- mailbox, 16 events (R119)
  deriving DecidableEq, Repr

/-- A stall after reset: every register at zero (R103), parked. -/
def Stall.reset : Stall :=
  { g := [], v := [], p := [], pc := 0, astat := 0, wrap := false, wraps := 0, rngKey := 0, rngLo := 0, rngHi := 0,
    mode := .parked, cur := none, retire := none, acc := [], ctl := [], waits := [], seq := 0, descs := 0, mail := [] }

/-! ### Descriptors -/

/-- A command or descriptor held by a unit: its bits, its length in 32-byte units, and who sent it (R72, R167, R203, R224). -/
structure Desc where
  bits  : BitVec 1024
  n     : Nat
  stall : Nat
  pc    : BitVec 32
  part  : Nat
  tagId : Option Nat := none -- the identity under which it holds a tag of the stall (R126)
  deriving DecidableEq, Repr

/-! ### Matrix array -/

/-- A loaded weight slot (R67, R75). -/
structure Slot where
  wfmt  : Nat
  kRows : Nat
  nCols : Nat
  axis  : Bool
  idx   : List Nat          -- index of each K row or column
  w     : List Nat          -- element codes, row by row
  sc    : List Nat          -- E8M0 scales, block row by block row
  deriving DecidableEq, Repr

/-- A bound accumulator tile (R67, R77). -/
structure Tile where
  rows     : Nat
  nCols    : Nat
  isInt    : Bool
  tot      : Nat
  totPitch : Nat
  p        : Nat
  totInit  : Bool
  runs     : FMap Nat       -- FP32 or INT32 bits of run (i, n) at 512 i + n
  touched  : FMap Bool
  chunks   : Nat            -- chunks since the last promotion
  first    : Bool           -- no promotion of this binding yet
  cols     : List Nat       -- column indices of the slot that last streamed (R84)
  final    : Nat            -- rows of the latest stream that are final (R86)
  totals   : FMap Int       -- INT64 totals an INT32 run was added to early (R55), not yet in the loft
  deriving DecidableEq, Repr

/-- A command on an MXA engine (R68). -/
structure MxRun where
  cmd  : Desc
  size : Nat                -- size of the pushed handle (R73)
  sat  : Bool               -- the drain saturated (R83)
  deriving DecidableEq, Repr

/-- One matrix array (R67, R68, R93, R94). -/
structure Mxa where
  slot0  : Option Slot
  slot1  : Option Slot
  tileA  : Option Tile
  tileB  : Option Tile
  queue  : List Desc             -- 32 entries (R67)
  load   : Option MxRun          -- weight loader
  stream : Option MxRun          -- streamer
  drain  : Option MxRun          -- drainer
  ctrl   : Option MxRun          -- control engine
  halted : Bool
  errCode  : Nat
  errOp    : Nat
  errStall : Nat
  intSat : Bool
  held   : List Nat              -- engines whose completion push waits (R149)
  deriving DecidableEq, Repr

/-- An MXA after reset: slots unloaded, tiles empty (R94). -/
def Mxa.reset : Mxa :=
  { slot0 := none, slot1 := none, tileA := none, tileB := none, queue := [], load := none, stream := none,
    drain := none, ctrl := none, halted := false, errCode := 0, errOp := 0, errStall := 0, intSat := false,
    held := [] }

/-! ### Sampler and DMA engine -/

/-- What a SAMPLE or SCORE computed: the bytes for its outputs, and what is raised when it completes (R170-R182). -/
structure SRes where
  writes : List (Nat × Nat × List (BitVec 8))   -- which output, offset in it, bytes
  nUniq  : Nat
  nTrail : Nat                            -- bytes of the trail, or of OUT_IDX
  nHalo  : Nat
  status : Nat                            -- bits of R172
  nans   : List (Nat × Nat × Nat)         -- OP, ELEMENT and CAUSE of each first-NaN event
  feats  : List Nat                       -- local vertices, for prefetch (R189)
  deriving DecidableEq, Repr

/-- A descriptor in execution with its captured table versions (R169, R200). -/
structure SCur where
  desc : Desc
  caps : List (Nat × Nat)
  res  : SRes
  deriving DecidableEq, Repr

/-- A run-ahead result in a staging slot (R185). -/
structure Ahead where
  step : Nat
  caps : List (Nat × Nat)
  res  : SRes
  deriving DecidableEq, Repr

/-- One sampler (R167, R185, R191). -/
structure Sampler where
  queue : List Desc              -- 16 descriptors
  cur   : Option SCur
  tmpl  : Option Desc            -- template of run-ahead (R185)
  held  : List Ahead             -- completed run-ahead results, at most 3
  adjMiss  : Bool
  trunc    : Bool
  nanScore : Bool
  errCode  : Nat
  errStall : Nat
  deriving DecidableEq, Repr

/-- A sampler after reset (R191). -/
def Sampler.reset : Sampler :=
  { queue := [], cur := none, tmpl := none, held := [], adjMiss := false, trunc := false, nanScore := false,
    errCode := 0, errStall := 0 }

/-- A packet (R266, R268). -/
structure Packet where
  hdr     : BitVec 256
  pay     : List (BitVec 8)
  trailer : Option (BitVec 256)
  deriving DecidableEq, Repr

/-- A row-engine or DMA descriptor in execution (R196, R224). -/
structure RCur where
  desc  : Desc
  caps  : List (Nat × Nat)                 -- table, captured version
  bases : List (Nat × Nat)                 -- table, captured base
  err   : Nat                              -- code of R228, 0 for none
  errIdx : Nat                             -- index of the failing entry
  fcode : Nat                              -- fabric code of a remote refusal (R271)
  tags  : List Nat                         -- transactions not yet answered (R269)
  todo  : List (Nat × List Packet)         -- transactions not yet sent, with the index of their entry
  reads : List ((Nat × Nat) × List (BitVec 8))  -- rows read from other modules: table and row, bytes
  ready : Bool                             -- the work is performed; only acknowledgements are missing
  bound : Bool                             -- MIGRATE: a step boundary has passed (R218)
  next  : Nat                              -- MIGRATE: the next entry
  size  : Nat                              -- size for a pushed handle
  deriving DecidableEq, Repr

/-- One DMA engine (R224). -/
structure Dma where
  queue : List Desc              -- 32 descriptors
  cur   : Option RCur
  deriving DecidableEq, Repr

/-! ### Shed: groom and sync unit -/

/-- Where a sub-watch reports (R143). -/
structure UpRef where
  dev   : Option Nat             -- another module, or this one
  part  : Nat                    -- its partition there
  index : Nat                    -- pen INDEX (R25) of the pen sub-watch above
  id    : Nat                    -- identity of that sub-watch
  deriving DecidableEq, Repr

/-- What a watch slot watches (R138, R143). -/
inductive WatchKind where
  | plain (flag : Nat)
  | group (wait : List Nat) (more : Nat) (up : UpRef)   -- flags of the shed that have not yet held the value, and how many
                                           -- more another module has announced (R143)
  | pen (idx wait : Nat) (up : UpRef)      -- pen INDEX; members that have not yet reported
  | top (idx wait : Nat)
  deriving DecidableEq, Repr

/-- A watch slot that is held (R138, R139). -/
structure Watch where
  id     : Nat                   -- identity in the shed's order of arming
  wid    : BitVec 64             -- identifier given to software (R140)
  part   : Nat                   -- arming partition; 32 (device + 1) + partition when it is on another module
  value  : Bool
  queue  : BitVec 64             -- queue or pen of queues
  event  : BitVec 256
  kind   : WatchKind
  fired  : Bool                  -- its event waits for the target groom (R139)
  stall  : Nat
  deriving DecidableEq, Repr

/-- One hardware queue: its descriptor (R148) and its events, oldest first. -/
structure Queue where
  desc  : BitVec 128
  items : List Event
  deriving DecidableEq, Repr

/-- A queue after reset: unused, HPRIO 7 (R148). -/
def Queue.reset : Queue := { desc := 0x1C000, items := [] }

/-- Target of a delayed event: a queue of the shed, or a stall's mailbox (R155). -/
inductive DTarget where
  | queue (q : Nat)
  | mail (t : Nat)
  deriving DecidableEq, Repr

/-- A delay-list entry (R155). -/
structure Delayed where
  deadline : BitVec 32
  target   : DTarget
  kind     : BitVec 4
  ev       : BitVec 256
  stall    : Nat
  part     : Nat
  deriving DecidableEq, Repr

/-- One shed's groom, sync unit, MXA, sampler and DMA engine (R4, R19). -/
structure Shed where
  flags   : FMap Bool            -- 4,096 flags (R134)
  watches : List Watch           -- held watch slots, at most 2,048 (R141)
  pens    : FMap (List (BitVec 64))  -- pen entries: member addresses (R27)
  queues  : FMap Queue           -- 1,024 queues (R148)
  delay   : List Delayed         -- delay list, at most 4,096 (R156)
  qfull   : Bool                 -- GROOM_STATUS.QFULL (R161)
  dlfull  : Bool                 -- GROOM_STATUS.DLFULL
  fqLost  : Bool                 -- GROOM_STATUS.FAULTQ_LOST
  asleep  : Bool                 -- R32
  busyAt  : Nat                  -- time the conditions of R32 last failed
  mxa     : Mxa
  sampler : Sampler
  dma     : Dma
  layout  : List (Nat × Nat)     -- loft buffers of the image: start and size (R350)
  deriving DecidableEq, Repr

/-- A shed after reset: flags 0, no watch, queues unused (R148, R161). -/
def Shed.reset : Shed :=
  { flags := [], watches := [], pens := [], queues := [], delay := [], qfull := false, dlfull := false,
    fqLost := false, asleep := false, busyAt := 0, mxa := Mxa.reset, sampler := Sampler.reset,
    dma := { queue := [], cur := none }, layout := [] }

/-! ### Row engines and HBM -/

/-- A sector request in a row engine's window (R195). -/
structure WinReq where
  stall  : Nat
  seq    : Nat                   -- the access
  part   : Nat                   -- its part
  sector : Nat                   -- physical key / 32
  write  : Bool
  since  : Nat                   -- fabric time of entry
  deriving DecidableEq, Repr

/-- A line of the row cache (R220). -/
structure Line where
  set    : Nat
  sector : Nat
  part   : Nat
  uses   : Nat
  stamp  : Nat                   -- order of filling
  deriving DecidableEq, Repr

/-- One row engine (R195, R196, R220, R231). -/
structure Engine where
  window : List WinReq           -- 256 requests, in order of entry
  queues : FMap (List Desc)      -- descriptors of each partition, at most 4
  cur    : FMap (Option RCur)    -- descriptor in execution of each partition
  cache  : List Line             -- at most 4,096 lines
  fills  : Nat
  turns  : Nat                   -- cycles in which a request came to the window, modulo 16 (R366)
  accesses : Nat                 -- since the last halving (R220)
  hints  : Nat                   -- HINTS_DROPPED, 48 bits (R231)
  wrap   : Bool
  emptyAt : Nat                  -- time at which the window was last seen in use (R249)
  scrubSlots : FMap Nat          -- access slots of a pseudo-channel since the waiting patrol scrub had one (R251)
  backSlots  : FMap Nat          -- the same of row migration, replication and frame clearing (R251)
  deriving DecidableEq, Repr

/-- A row engine after reset (R231). -/
def Engine.reset : Engine :=
  { window := [], queues := [], cur := [], cache := [], fills := 0, turns := 0, accesses := 0, hints := 0, wrap := false,
    emptyAt := 0, scrubSlots := [], backSlots := [] }

/-- STATE of a stack (R252). -/
inductive StackPhase where
  | off | training | ready | failed
  deriving DecidableEq, Repr

/-- One HBM stack (R247-R252). -/
structure Stack where
  phase   : StackPhase
  refresh : Nat                  -- 0 normal, 1 doubled, 2 quadrupled
  hot     : Bool
  temp    : Int                  -- 0.0625 °C
  debt    : FMap Nat             -- 8 + refreshes postponed, per pseudo-channel (R248)
  calAt   : FMap Nat             -- time of each channel's last recalibration (R249)
  calTemp : FMap Int             -- reading at that recalibration
  calDue  : FMap Nat             -- 1 + the time each channel fell due through its temperature, 0 while not (R249)
  scrub   : Nat                  -- sector reached: (channel * 3906250 + block) * 16 + sector (R250)
  passes  : Nat                  -- SCRUB_PASSES
  lastUe  : BitVec 128           -- LAST_UE
  deriving DecidableEq, Repr

/-- A stack after reset: off (R252). -/
def Stack.reset : Stack :=
  { phase := .off, refresh := 0, hot := false, temp := 0, debt := [], calAt := [], calTemp := [], calDue := [],
    scrub := 0, passes := 0, lastUe := 0 }

/-- A frame of a yard (R240): free, being cleared, taken. -/
structure Frame where
  taken    : Option Nat          -- partition
  clearing : Bool
  deriving DecidableEq, Repr

/-- A granule: its yard and frame in each quarter (R236, R241). -/
structure Granule where
  near   : Option Nat            -- the yard of a near granule
  frames : List (Nat × Nat)      -- yard and frame of quarters 0 to 3
  deriving DecidableEq, Repr

/-- One yard's clock and thermal state (R361, R365, R367, R370). -/
structure Yard where
  point   : Nat
  ceil    : Nat
  droop   : Nat
  temp    : Int
  hotAt   : Nat                  -- time of the last fall of the ceiling
  coolAt  : Nat                  -- time since which every sensor was below 97 °C, or of the last rise
  cool    : Bool
  droopAt : Nat
  cycles  : Nat                  -- shed-clock cycles since power good
  deriving DecidableEq, Repr

/-- A yard after reset (R370). -/
def Yard.reset : Yard :=
  { point := 0, ceil := 0, droop := 0, temp := 0, hotAt := 0, coolAt := 0, cool := true, droopAt := 0, cycles := 0 }

/-! ### Llyn -/

/-- STATE of a port (R293). -/
inductive PortPhase where
  | disabled | training | up | notReady | waiting
  deriving DecidableEq, Repr

/-- The packets of one flow: source device, destination device, lane (R265). -/
abbrev Flow := Nat × Nat × Nat

/-- A packet received and not yet applied. -/
structure Arrived where
  pkt   : Packet
  stamp : Nat                    -- order of arrival (R265)
  code  : Nat                    -- why it is not admitted, 0 if it is: peer entries as they stood on arrival (R277)
  busy  : Bool                   -- performed, and keeping its place until its pushes are accepted (R149)
  deriving DecidableEq, Repr

/-- A packet queued at a port, and the port it came in by when it only passes through: it keeps its space there (R260,
R262). -/
structure Queued where
  pkt  : Packet
  came : Option Nat
  deriving DecidableEq, Repr

/-- A data flit in the replay buffer (R256, R258): its SEQ, its packet stream, when it was last sent, and whose bytes it
holds. -/
structure Sent where
  seq   : BitVec 16
  area  : List (BitVec 8)
  time  : Nat
  flows : List Flow
  deriving DecidableEq, Repr

/-- One Llyn port (R255-R262, R275, R292, R293). -/
structure Port where
  phase   : PortPhase
  moved   : Bool
  downSeen : Bool
  partner : Nat                  -- PARTNER object (R292)
  trained : Bool                 -- has trained since Spring
  txSeq   : BitVec 16            -- next data SEQ
  rxSeq   : BitVec 16            -- next expected SEQ
  lastAck : BitVec 16            -- ACK: SEQ of the last data flit received in order (R256)
  replay  : List Sent            -- unacknowledged data flits, oldest first
  resend  : Nat                  -- flits of the replay buffer still to send again
  resume  : Bool                 -- a control flit with the expected SEQ is to be sent (R259)
  await   : Bool                 -- the partner's control flit has not come yet
  nak     : Bool                 -- a NAK is to be sent
  nrdy    : Bool                 -- ... with NRDY
  skipping : Bool                -- discarding data flits until the replay arrives
  count   : Nat                  -- consecutive replays
  start   : BitVec 16            -- SEQ at which the last replay began
  nrdyAt  : Nat                  -- time of the last NRDY answer
  backoff : Nat                  -- wait before the next training attempt, ns
  nextTry : Nat                  -- time of the next attempt
  downAt  : Nat                  -- time the port went down
  credits : FMap Nat             -- credits held per lane, 16 for VL0 responses
  ret     : FMap Nat             -- credits to return per lane
  txq     : List Queued          -- packets queued, in order of each flow
  tx      : List (Flow × List (BitVec 8))  -- rest of the packets being sent
  rx      : List (BitVec 8)      -- packet stream received, not yet a whole packet
  ing     : List Arrived         -- packets received and not yet applied
  txBytes : Nat                  -- 48 bits
  rxBytes : Nat
  txWrap  : Bool
  rxWrap  : Bool
  slot    : Nat                  -- flit slots so far, modulo 16 (R366)
  delay   : Nat                  -- one-way delay of the link as last measured, ns (R279)
  timedAt : Option Nat           -- time of that measurement
  out     : List (BitVec 2048)   -- flits put on the wire
  deriving DecidableEq, Repr

/-- A port after reset: disabled, no credit (R292, R293). -/
def Port.reset : Port :=
  { phase := .disabled, moved := false, downSeen := false, partner := 0, trained := false, txSeq := 0, rxSeq := 0, lastAck := 0,
    replay := [], resend := 0, resume := false, await := false, nak := false, nrdy := false, skipping := false, count := 0, start := 0,
    nrdyAt := 0, backoff := 0, nextTry := 0, downAt := 0, credits := [], ret := [], txq := [], tx := [], rx := [],
    ing := [], txBytes := 0, rxBytes := 0, txWrap := false, rxWrap := false, slot := 0, delay := 0, timedAt := none, out := [] }

/-- What a fabric transaction is for (R269). -/
inductive TagUse where
  | flag (reply : Reply) (watch : Option Nat)  -- address of a WATCH
  | row (e p : Nat) (table row len idx : Nat) -- READ of one table row for entry idx of a coordinator's list
  | write (e p idx : Nat)                     -- row add or MIGRATE write of a coordinator
  | dma (sh : Nat) (trailer : Option (BitVec 256))
  | mirror (p : Nat)
  deriving DecidableEq, Repr

/-- A transaction tag that is held (R269, R272). -/
structure Tag where
  tag  : Nat
  part : Nat
  use  : TagUse
  since : Nat
  got  : List (Nat × List (BitVec 8))          -- READ_RESP payloads: offset and bytes
  deriving DecidableEq, Repr

/-- A flag-on-last trailer whose transfer is not yet complete (R268). -/
structure Trailer where
  dev   : Nat
  part  : Nat
  tag   : Nat
  bytes : Nat                                  -- bytes of the transfer written so far
  total : Option Nat                           -- transfer bytes, known from the LAST packet
  trailer : Option (BitVec 256)
  addr  : BitVec 64                            -- ADDR echoed in the ACK
  dpart : Nat
  vl    : Nat                                  -- lane of the transfer
  bad   : Bool                                 -- a packet of the transfer was refused
  deriving DecidableEq, Repr

/-! ### Partitions -/

/-- STATE of a partition (R346). -/
inductive PartPhase where
  | free | stopped | loading | running | stopping
  deriving DecidableEq, Repr

/-- The exact totals of one instance of a plan (R288). -/
structure PlanTot where
  inst   : Nat
  sqn    : Nat                   -- in units of 2^-149
  mb     : List Nat              -- MB[0..3], in the same units
  nonfin : Bool
  sqnInf : Bool
  mbInf  : Nat
  deriving DecidableEq, Repr

/-- Totals before the first sidecar. -/
def PlanTot.zero : PlanTot := { inst := 0, sqn := 0, mb := [0, 0, 0, 0], nonfin := false, sqnInf := false, mbInf := 0 }

/-- A contribution or chain-sum packet whose elements wait in OBUF (R286, R287): the elements it lists, and how many it stands
for. -/
structure Buffered where
  hdr   : BitVec 256
  els   : List Nat
  count : Nat
  deriving DecidableEq, Repr

/-- A collective plan's engine state (R284-R289). -/
structure PlanSt where
  busy   : Bool                  -- an instance is in progress
  inst   : Nat                   -- instances begun
  zeroed : Nat                   -- instance whose shard ACC now collects
  got    : List (Nat × Nat)      -- rank and elements received of its contribution to that instance
  buffered : List Buffered       -- contributions and chain sums whose elements are in OBUF until their turn
  early  : List Packet           -- sidecars held until their instance begins
  nfIn   : Bool                  -- NF bits of contributions received
  src    : List (BitVec 8)       -- SRC as read when the instance began
  side   : List Nat              -- SIDE_IN as read then
  held   : Nat                   -- result elements received
  sides  : Nat                   -- sidecars received
  tot    : PlanTot               -- totals so far
  hist   : List PlanTot          -- completed instances no step has counted, for plans of VPLANS (R300)
  deriving DecidableEq, Repr

/-- A plan with no instance begun (R284). -/
def PlanSt.reset : PlanSt :=
  { busy := false, inst := 0, zeroed := 0, got := [], buffered := [], early := [], nfIn := false, src := [], side := [], held := 0,
    sides := 0, tot := PlanTot.zero, hist := [] }

/-- The verdict engine (R299-R311, R321). -/
structure Train where
  state   : Nat                  -- STATE of TRAIN_STATUS
  nonfinSeen : Bool
  clipSeen   : Bool
  lsFloor    : Bool
  finiteRun  : Nat
  first   : Bool                 -- no finite verdict yet (R311)
  formed  : Bool                 -- the verdict of the open step is formed
  nonfin  : Bool                 -- ... and is non-finite
  clipped : Bool                 -- ... and is clipped
  regionErr : Bool               -- the open step's scan reported E_REGION
  deriving DecidableEq, Repr

/-- A mirror that is due, as its boundary left it (R314): STEP, the places it reads, the copies of groups among them, and
header and data as they stood. -/
structure DueMirror where
  step   : Nat
  srcs   : List (Nat × Nat)      -- stall address and bytes
  copies : List (Nat × Nat)      -- group and copy
  snap   : List (BitVec 8)
  deriving DecidableEq, Repr

/-- The mirror engine (R314, R316). -/
structure Mirror where
  phase : Nat                    -- 0 idle, 1 COMMIT being zeroed, 2 data, 3 COMMIT being written
  slot  : Nat
  sched : Bool                   -- the running mirror is scheduled
  step  : Nat                    -- STEP of its snapshot
  snap  : List (BitVec 8)        -- header and data
  copies : List (Nat × Nat)      -- copies of groups it reads (R307)
  tags  : List Nat
  fail  : Bool                   -- a refusal or timeout was met
  waitSched : List DueMirror     -- scheduled mirrors that wait
  waitNow   : Option DueMirror   -- an unscheduled mirror that waits
  now   : Bool                   -- NOW of MIRROR_CTRL
  slotOk : Bool                  -- VALID
  lastSlot : Nat                 -- SLOT
  failed : Bool
  skipped : Bool
  extra  : Bool                  -- EXTRA_VALID
  deriving DecidableEq, Repr

/-- The host rings of a partition (R338-R343). -/
structure Rings where
  sqTail : BitVec 32
  cqHead : BitVec 32
  sqHead : BitVec 32
  cqTail : BitVec 32
  fetched : BitVec 32            -- entries fetched
  dbDrop : Bool
  heldEntry : Option (BitVec 512)  -- an entry whose queue is full (R340)
  pendEntry : Option (BitVec 128)  -- pending entry completion, without PHASE (R343)
  pendState : Option (BitVec 128)  -- pending state completion
  unsig  : Nat                   -- completions not yet signalled (R344)
  unsigAt : Nat                  -- time of the first of them
  deriving DecidableEq, Repr

/-- One partition (R19, R23, R346). -/
structure Part where
  phase   : PartPhase
  halted  : Bool                 -- HALTED, sticky
  detLost : Bool
  loadFailed : Bool
  stopReq : Bool                 -- STOP held while loading (R347)
  halting : Bool                 -- stopping because of a halt (R65)
  sheds   : BitVec 32            -- SHEDS
  grans   : List Granule         -- addressable granules, in order (R239)
  stage   : List Granule         -- staging granules (R238)
  entryQ  : Nat                  -- ENTRY_Q (R349)
  faultQ  : Nat
  cmplQ   : Nat
  base    : FMap Nat             -- each yard's cycle count when the partition started (R100)
  orders  : FMap Nat             -- entries in each table's order buffer (R209)
  spilled : List Nat             -- tables that spilled in this step
  hot     : FMap (List (Nat × Nat × Nat))  -- HOT_ROWS of each table: row, count, its error (R213)
  plans   : FMap PlanSt
  train   : Train
  mirror  : Mirror
  rings   : Rings
  deriving DecidableEq, Repr

/-- A partition after reset: free (R346). -/
def Part.reset : Part :=
  { phase := .free, halted := false, detLost := false, loadFailed := false, stopReq := false, halting := false,
    sheds := 0, grans := [], stage := [], entryQ := 0, faultQ := 0, cmplQ := 0xFFFFFFFF, base := [], orders := [],
    spilled := [], hot := [], plans := [],
    train := { state := 0, nonfinSeen := false, clipSeen := false, lsFloor := false, finiteRun := 0, first := true,
               formed := false, nonfin := false, clipped := false, regionErr := false },
    mirror := { phase := 0, slot := 0, sched := false, step := 0, snap := [], copies := [], tags := [], fail := false,
                waitSched := [], waitNow := none, now := false, slotOk := false, lastSlot := 0, failed := false,
                skipped := false, extra := false },
    rings := { sqTail := 0, cqHead := 0, sqHead := 0, cqTail := 0, fetched := 0, dbDrop := false, heldEntry := none,
               pendEntry := none, pendState := none, unsig := 0, unsigAt := 0 } }

/-! ### Logs, dictionary, host port -/

/-- A log (R389, R391, R392). -/
structure Log where
  slots : FMap (BitVec 256)
  next  : Nat
  ack   : Nat
  lost  : Nat
  deriving DecidableEq, Repr

/-- A log after power good (R391). -/
def Log.reset : Log := { slots := [], next := 0, ack := 0, lost := 0 }

/-- A requester of the dictionary (R327). -/
inductive Requester where
  | fn (n : Nat)                 -- PCIe function, 0 for PF0
  | mgmt (ip port : Nat)
  | llyn (dev : Nat)
  deriving DecidableEq, Repr

/-- A semaphore (R328). -/
structure Sem where
  holder : Option Requester
  lease  : Nat                   -- LEASE_ID of the latest grant
  until_ : Nat                   -- clock at the lease's last cycle
  deriving DecidableEq, Repr

/-- A semaphore after reset: free. -/
def Sem.reset : Sem := { holder := none, lease := 0, until_ := 0 }

/-- One PCIe function's mailbox, control page and MSI-X table (R335, R337). -/
structure HostFn where
  req    : FMap (BitVec 8)
  resp   : FMap (BitVec 8)
  go     : Bool
  done   : Bool
  irqEn  : Bool
  window : Nat                   -- BAR4_WINDOW
  bar4   : Nat                   -- BAR4 has 2^(30 + bar4) bytes (R334, R336)
  msix   : FMap (BitVec 8)       -- MSI-X table
  pba    : Nat                   -- pending bits
  deriving DecidableEq, Repr

/-- A function after reset of the host port (R337, R357). -/
def HostFn.reset : HostFn :=
  { req := [], resp := [], go := false, done := false, irqEn := false, window := 0, bar4 := 0, msix := [], pba := 0 }

/-- A management request: source address, source port, message (R332). -/
structure MgmtReq where
  ip   : Nat
  port : Nat
  msg  : List (BitVec 8)
  deriving DecidableEq, Repr

/-- A management request from Llyn (R267). -/
structure LlynReq where
  dev  : Nat
  part : Nat
  msg  : List (BitVec 8)
  port : Nat                     -- the port whose VL1 buffer it stays in until it is served (R326)
  pkt  : Packet
  deriving DecidableEq, Repr

/-- What the module puts out towards the host, the carrier and the network, oldest first. -/
inductive Out where
  | msix (fn vec : Nat)                              -- R344
  | cq (p : Nat) (addr : Nat) (entry : BitVec 128)   -- R343
  | datagram (ip port : Nat) (msg : List (BitVec 8)) -- R332
  | bar4 (fn : Nat) (data : List (BitVec 8)) (poisoned : Bool)  -- R336
  | unsupported (fn : Nat)                           -- R336
  deriving DecidableEq, Repr

/-- The host port, management port and dictionary service (R326-R337). -/
structure HostPort where
  fns    : FMap HostFn
  numVfs : Nat
  msixEn : Nat                   -- bit f: MSI-X of function f is enabled
  linkUp : Bool
  perst  : Bool                  -- PERST_N is asserted
  sems   : FMap Sem
  mgmtQ  : List MgmtReq
  llynQ  : List LlynReq
  store  : List ((Nat × Nat) × (Nat × List (BitVec 8)))  -- requester; SEQ and response
  src    : Nat                   -- source the rotation looks at next (R326)
  fnNext : Nat                   -- function the rotation looks at next
  mgmtUp : Bool                  -- LINK.UP
  deriving DecidableEq, Repr

/-! ### Seasons, power, flash -/

/-- STATE of the module (R371), and the state without input power. -/
inductive SeasonPhase where
  | noPower | winter | spring | summer | autumn | fault
  deriving DecidableEq, Repr

/-- The season machine and the low-speed pins (R356, R371-R378). -/
structure Season where
  phase  : SeasonPhase
  sub    : Nat
  pend   : Option Bool           -- pending request: true ON
  cause  : Nat                   -- FAULT_CAUSE
  faultClear : Bool
  time   : Nat                   -- SEASON_TIME
  everSummer : Bool
  retry  : Bool                  -- a failed step waits for its backoff
  backoff : Nat                  -- ns
  retryAt : Nat
  drainAt : Nat                  -- end of DRAIN_MS
  started : Bool                 -- Llyn intake has stopped (Autumn 4 on, R371)
  trip   : Bool                  -- THERMTRIP_N latched
  modEn  : Bool
  recoveryN : Bool
  flashWpN  : Bool
  brake  : Bool                  -- PWR_BRAKE_N is low
  shedFailed : BitVec 32         -- SHED_FAILED
  restart : Bool                 -- RESTART waits
  deriving DecidableEq, Repr

/-- Power measurement and the cap loop (R364-R369). -/
structure Power where
  samples : List Nat             -- last 10 samples, µW
  vin     : Nat                  -- mV
  energy  : Nat                  -- input energy since power good, in units of 100 pJ
  mt      : Nat
  below   : Nat                  -- run_below
  capped  : Bool
  throttled : Bool
  exceeded  : Bool
  braked  : Bool
  temps   : List Int             -- latest die readings, 0.0625 °C
  regOk   : Bool
  deriving DecidableEq, Repr

/-- Flash: its bytes (directory, firmware slots, persistence banks, fault records), and what the ostler holds of it
(R379-R384, R398). -/
structure Flash where
  cells  : FMap (BitVec 8)       -- by offset
  commits : List (Nat × List (BitVec 8))  -- commit words not written yet: offset and bytes (R379)
  inUse  : Nat                   -- BANK in use: 0 or 1
  running : Nat                  -- RUNNING of FW_STATUS: 0 A, 1 B, 2 golden
  booted : Bool                  -- the ostler runs
  dirty  : Option Nat            -- time of the first persistent write not yet stored
  deriving DecidableEq, Repr

/-- Fabric time and transactions (R269-R281). -/
structure Fabric where
  tags     : List Tag
  trailers : List Trailer
  synced   : Bool
  hops     : Nat
  offset   : BitVec 32
  slew     : Int                     -- correction of fabric time still to be slewed, ns (R280)
  slewed   : Nat                     -- ticks since the last nanosecond of it
  homes    : List (Nat × Nat × Nat)  -- watches armed on other modules: partition, identifier, address (R137, R140)
  fired    : List (Nat × Nat × Reply) -- watch events sent to other modules and not yet accepted there: identity, device,
                                     -- who waits for it (R139)
  deriving DecidableEq, Repr

/-- A forwarding entry (R218, R219): the row, where it lay, and where it went. -/
structure Fwd where
  part  : Nat
  table : Nat
  row   : Nat
  dev   : Nat
  dpart : Nat
  slot  : Nat
  dst   : Nat                    -- HBM offset of the copy in its partition
  old   : Nat                    -- stall address of the row here, and its length
  len   : Nat
  copier : Option (Nat × Nat)    -- engine and entry of the MIGRATE whose copy is not yet acknowledged
  deriving DecidableEq, Repr

/-- A prefetch hint (R189, R221). -/
structure Hint where
  engine : Nat
  sector : Nat                   -- physical key / 32
  part   : Nat
  table  : Nat
  deriving DecidableEq, Repr

/-- A performance counter (R387). -/
structure Perf where
  count : Nat
  wrap  : Bool
  deriving DecidableEq, Repr

/-- The state of the module. -/
structure State where
  pending : List Instr           -- commands that wait, first in, first out
  mem     : FMap (BitVec 8)      -- stall memories, lofts and HBM
  ecc     : FMap (BitVec 288)    -- symbols in error of a sector: byte 0-31 of data, 32-35 of check symbols (R245, R246)
  stalls  : FMap Stall
  sheds   : FMap Shed
  mesh    : List Mesh
  penOps  : List PenOp
  pushes  : List Push
  engines : FMap Engine
  hints   : List Hint            -- prefetch hints on their way (R189)
  fwd     : List Fwd
  hbms  : FMap Stack
  frames  : FMap Frame           -- frame f of yard y at 1024 y + f
  yards   : FMap Yard
  parts   : FMap Part
  objs    : FMap Nat             -- objects held as plain values, at 256 index + subindex (R323)
  routes  : FMap (BitVec 8)      -- ROUTE_TABLE (R294)
  logs    : FMap Log             -- 0 the module log, p + 1 partition p's log
  ports   : FMap Port
  fabric  : Fabric
  host    : HostPort
  season  : Season
  power   : Power
  perfs   : FMap Perf
  flash   : Flash
  clock   : Nat                  -- ns of the 25 MHz reference since power good, by which intervals are measured (R362)
  time    : Nat                  -- fabric time in ns (R280)
  ctr     : Nat                  -- identities given so far (events, watches, barriers)
  free    : Nat                  -- free values drawn so far (the model's own)
  wids    : List Nat             -- watch identifiers given so far (R140, R388)
  out     : List Out
  deriving DecidableEq, Repr

/-- The module right after reset: no input power yet, every unit at its reset value, nothing listed in memory. -/
def State.reset : State :=
  { pending := [], mem := [], ecc := [], stalls := [], sheds := [], mesh := [], penOps := [], pushes := [],
    engines := [], hints := [], fwd := [], hbms := [], frames := [], yards := [], parts := [], objs := [],
    routes := [], logs := [], ports := [],
    fabric := { tags := [], trailers := [], synced := false, hops := 0, offset := 0, slew := 0, slewed := 0,
                homes := [], fired := [] },
    host := { fns := [], numVfs := 0, msixEn := 0, linkUp := false, perst := true, sems := [], mgmtQ := [],
              llynQ := [], store := [], src := 0, fnNext := 0, mgmtUp := false },
    season := { phase := .noPower, sub := 0, pend := none, cause := 0, faultClear := false, time := 0,
                everSummer := false, retry := false, backoff := 0, retryAt := 0, drainAt := 0,
                started := false, trip := false, modEn := false, recoveryN := true,
                flashWpN := false, brake := false, shedFailed := 0, restart := false },
    power := { samples := [], vin := 0, energy := 0, mt := 0, below := 0, capped := false,
               throttled := false, exceeded := false, braked := false, temps := [], regOk := true },
    perfs := [],
    flash := { cells := [], commits := [], inUse := 0, running := 2, booted := false, dirty := none },
    clock := 0, time := 0, ctr := 0, free := 0, wids := [], out := [] }

end Sys2Proof.Machine
end

