-- ==== Sys2Proof/Machine/Ops.lean ====
section
/-!
DEFINITION. The named operations over the state that every family shares: access to units and objects, ownership and
unit addresses (R19-R26), logs (R389-R391, R401), interrupts (R344), memory and its address map (R125, R234-R236, R246),
pushes to queues, mailboxes and delay lists (R147-R156), and what a fault or a NaN leaves behind (R60-R66, R131, R132, R160).
-/

namespace Sys2Proof.Machine

/-- The outcome of a command. -/
abbrev Out1 := Host.Outcome State Fault Refusal

/-! ### Units -/

def State.stall (s : State) (t : Nat) : Stall := FMap.get (fun _ => Stall.reset) s.stalls t
def State.setStall (s : State) (t : Nat) (x : Stall) : State :=
  { s with stalls := FMap.set (fun _ => Stall.reset) s.stalls t x }
def State.modStall (s : State) (t : Nat) (f : Stall → Stall) : State := s.setStall t (f (s.stall t))

def State.shed (s : State) (k : Nat) : Shed := FMap.get (fun _ => Shed.reset) s.sheds k
def State.setShed (s : State) (k : Nat) (x : Shed) : State :=
  { s with sheds := FMap.set (fun _ => Shed.reset) s.sheds k x }
def State.modShed (s : State) (k : Nat) (f : Shed → Shed) : State := s.setShed k (f (s.shed k))

def State.engine (s : State) (e : Nat) : Engine := FMap.get (fun _ => Engine.reset) s.engines e
def State.setEngine (s : State) (e : Nat) (x : Engine) : State :=
  { s with engines := FMap.set (fun _ => Engine.reset) s.engines e x }
def State.modEngine (s : State) (e : Nat) (f : Engine → Engine) : State := s.setEngine e (f (s.engine e))

def State.hbm (s : State) (k : Nat) : Stack := FMap.get (fun _ => Stack.reset) s.hbms k
def State.setHbm (s : State) (k : Nat) (x : Stack) : State :=
  { s with hbms := FMap.set (fun _ => Stack.reset) s.hbms k x }
def State.modHbm (s : State) (k : Nat) (f : Stack → Stack) : State := s.setHbm k (f (s.hbm k))

def State.yard (s : State) (y : Nat) : Yard := FMap.get (fun _ => Yard.reset) s.yards y
def State.setYard (s : State) (y : Nat) (x : Yard) : State :=
  { s with yards := FMap.set (fun _ => Yard.reset) s.yards y x }
def State.modYard (s : State) (y : Nat) (f : Yard → Yard) : State := s.setYard y (f (s.yard y))

def State.part (s : State) (p : Nat) : Part := FMap.get (fun _ => Part.reset) s.parts p
def State.setPart (s : State) (p : Nat) (x : Part) : State :=
  { s with parts := FMap.set (fun _ => Part.reset) s.parts p x }
def State.modPart (s : State) (p : Nat) (f : Part → Part) : State := s.setPart p (f (s.part p))

def State.port (s : State) (k : Nat) : Port := FMap.get (fun _ => Port.reset) s.ports k
def State.setPort (s : State) (k : Nat) (x : Port) : State :=
  { s with ports := FMap.set (fun _ => Port.reset) s.ports k x }
def State.modPort (s : State) (k : Nat) (f : Port → Port) : State := s.setPort k (f (s.port k))

def State.log (s : State) (w : Nat) : Log := FMap.get (fun _ => Log.reset) s.logs w
def State.setLog (s : State) (w : Nat) (x : Log) : State :=
  { s with logs := FMap.set (fun _ => Log.reset) s.logs w x }

/-- A frame that no partition has taken and that is clear (R240). -/
def frameFree : Frame := { taken := none, clearing := false }
/-- Frame f of yard y. -/
def State.frame (s : State) (y f : Nat) : Frame := FMap.get (fun _ => frameFree) s.frames (1024 * y + f)
def State.setFrame (s : State) (y f : Nat) (x : Frame) : State :=
  { s with frames := FMap.set (fun _ => frameFree) s.frames (1024 * y + f) x }

/-- A performance counter at reset (R387). -/
def perfReset : Perf := { count := 0, wrap := false }
def State.perf (s : State) (n : Nat) : Perf := FMap.get (fun _ => perfReset) s.perfs n
def State.setPerf (s : State) (n : Nat) (x : Perf) : State :=
  { s with perfs := FMap.set (fun _ => perfReset) s.perfs n x }

/-- One PCIe function (R334). -/
def State.fn (s : State) (f : Nat) : HostFn := FMap.get (fun _ => HostFn.reset) s.host.fns f
def State.setFn (s : State) (f : Nat) (x : HostFn) : State :=
  { s with host := { s.host with fns := FMap.set (fun _ => HostFn.reset) s.host.fns f x } }

/-- A semaphore (R328): 0 the module's, p + 1 that of partition p. -/
def State.sem (s : State) (m : Nat) : Sem := FMap.get (fun _ => Sem.reset) s.host.sems m
def State.setSem (s : State) (m : Nat) (x : Sem) : State :=
  { s with host := { s.host with sems := FMap.set (fun _ => Sem.reset) s.host.sems m x } }

/-- An object held as a plain value (R323). -/
def State.obj (s : State) (k : Nat) : Nat := FMap.get objReset s.objs k
def State.setObj (s : State) (k v : Nat) : State := { s with objs := FMap.set objReset s.objs k v }
/-- Add to a counter that saturates at 0xFFFF_FFFF (R348). -/
def State.bumpObj (s : State) (k n : Nat) : State := s.setObj k (sat32 (s.obj k) n)
/-- Add to a 48-bit count that wraps to 0 and then sets WRAP, bit 63 (R388). -/
def State.bump48 (s : State) (k n : Nat) : State :=
  let v := s.obj k
  let c := bits v 0 48 + n
  s.setObj k (c % 2 ^ 48 + (if 2 ^ 48 ≤ c ∨ bit v 63 then 2 ^ 63 else 0))

/-- A fresh number, for an order of acceptance or an identity of the model's own. -/
def State.tick1 (s : State) : State := { s with ctr := s.ctr + 1 }
/-- One more free value drawn (assumption log 3). -/
def State.draw (s : State) : State := { s with free := s.free + 1 }

/-- The partition's step counter (R296). -/
def State.stepOf (s : State) (p : Nat) : Nat := s.obj (kStep p)
/-- TICK (R154). -/
def State.tickNow (s : State) : Nat := s.time / 1000 % 2 ^ 32

/-! ### Ownership and unit addresses -/

/-- The partition that owns shed `k` (R19). -/
def State.owner (s : State) (k : Nat) : Option Nat :=
  (List.range 32).find? (fun p => (s.part p).sheds.getLsbD k)

/-- Whether partition p owns shed k. -/
def State.owns (s : State) (p k : Nat) : Bool := decide (k < 32) && (s.part p).sheds.getLsbD k

/-- The sheds of partition p, ascending. -/
def State.shedsOf (s : State) (p : Nat) : List Nat := (List.range 32).filter (fun k => s.owns p k)

/-- Whether partition p is running (R346). -/
def State.partRuns (s : State) (p : Nat) : Bool := decide ((s.part p).phase = .running)

def uaDevice (a : Nat) : Nat := bits a 47 17
def uaLocal (a : Nat) : Bool := bit a 46
def uaPart (a : Nat) : Nat := bits a 41 5
def uaKind (a : Nat) : Nat := bits a 37 4
def uaIndex (a : Nat) : Nat := bits a 0 32
def uaReserved (a : Nat) : Nat := bits a 32 5

/-- The unit address of INDEX `i` of KIND `k` in partition `p` of this module (R24). -/
def uaMake (p k i : Nat) : Nat := 2 ^ 46 + p * 2 ^ 41 + k * 2 ^ 37 + i

/-- One more than the greatest INDEX of a KIND (R25). -/
def kindRange : Nat → Nat
  | 0 => 32
  | 1 => 1024
  | 2 => 131072
  | 3 => 32768
  | 4 => 32
  | 5 => 32
  | 6 => 384
  | 7 => 16384
  | _ => 0

/-- The shed a unit of a shed-owned KIND belongs to (R25). -/
def kindShed (k i : Nat) : Nat :=
  match k with
  | 1 => i / 32
  | 2 => i / 4096
  | 3 => i / 1024
  | 7 => i / 512
  | _ => i

/-- What a unit address names, for an operation that takes plain units of the KINDs `fits` (R26). -/
inductive Target where
  | reject
  | plain (kind idx : Nat)
  | pen (idx : Nat)
  | remote (dev part : Nat)
  deriving DecidableEq, Repr

/-- The members of pen entry `i` (R27): none registered when empty. -/
def State.penMembers (s : State) (i : Nat) : List (BitVec 64) :=
  FMap.get (fun _ => []) (s.shed (i / 512)).pens (i % 512)

/-- Resolve a unit address on this module for partition `p` (R26). -/
def State.resolveHere (s : State) (p a : Nat) (fits : List Nat) : Target :=
  let k := uaKind a
  let i := uaIndex a
  if uaReserved a ≠ 0 ∨ kindRange k ≤ i then .reject
  else if k = 6 then (if uaPart a = p ∧ 6 ∈ fits then .plain 6 i else .reject)
  else if uaPart a ≠ p ∨ s.owns p (kindShed k i) = false then .reject
  else if k = 7 then (if s.penMembers i = [] then .reject else .pen i)
  else if k ∈ fits then .plain k i else .reject

/-- Resolve a unit address that partition `p` issues (R26): reserved bits and KIND are checked at the issuer. -/
def State.resolve (s : State) (p a : Nat) (fits : List Nat) : Target :=
  if uaLocal a then s.resolveHere p a fits
  else if uaReserved a ≠ 0 ∨ kindRange (uaKind a) ≤ uaIndex a ∨ ¬(uaKind a = 7 ∨ uaKind a ∈ fits) then .reject
  else .remote (uaDevice a) (uaPart a)

/-! ### Interrupts and logs -/

/-- Whether a PCIe function exists (R334). -/
def State.fnExists (s : State) (f : Nat) : Bool := decide (f ≤ s.host.numVfs ∧ f ≤ 32)

/-- Byte `i` of an MSI-X table after reset: every vector is masked (R14, PCI Express; assumption log 5). -/
def msixReset (i : Nat) : Byte := if i % 16 = 12 then 1 else 0

/-- Raise an MSI-X vector (R344): sent when MSI-X is enabled and the vector unmasked, pending while it is masked. -/
def State.raiseMsix (s : State) (f v : Nat) : State :=
  if s.fnExists f = false ∨ bit s.host.msixEn f = false then s
  else if (FMap.get msixReset (s.fn f).msix (16 * v + 12)).getLsbD 0 then
    s.setFn f { s.fn f with pba := (s.fn f).pba ||| 2 ^ v }
  else { s with out := s.out ++ [.msix f v] }

/-- A log entry (R389). -/
def logWord (seq time code sev : Nat) (part : Option Nat) (srcKind srcIdx detail : Nat) : BitVec 256 :=
  BitVec.ofNat 256 (seq % 2 ^ 64 + (time % 2 ^ 64) * 2 ^ 64 + (code % 2 ^ 16) * 2 ^ 128 + (sev % 4) * 2 ^ 144 +
    (match part with | some p => (p % 32) * 2 ^ 152 + 2 ^ 157 | none => 0) +
    (srcKind % 256) * 2 ^ 160 + (srcIdx % 2 ^ 24) * 2 ^ 168 + (detail % 2 ^ 64) * 2 ^ 192)

/-- Append to a log of `size` entries: the oldest is overwritten, and counted in LOST if unread (R391). -/
def Log.append (l : Log) (size : Nat) (mk : Nat → BitVec 256) : Log :=
  { l with slots := FMap.set (fun _ => 0) l.slots (l.next % size) (mk l.next), next := l.next + 1,
           lost := if size ≤ l.next ∧ l.ack ≤ l.next - size then sat32 l.lost 1 else l.lost }

/-- Write a module log entry (R389-R392). -/
def State.logModule (s : State) (code sev : Nat) (part : Option Nat) (srcKind srcIdx detail : Nat) : State :=
  let s := s.setLog 0 ((s.log 0).append 16384 (fun n => logWord n s.time code sev part srcKind srcIdx detail))
  if bit (s.obj kMlogCtrl) 0 ∧ bits (s.obj kMlogCtrl) 1 2 ≤ sev then s.raiseMsix 0 33 else s

/-- Write an entry of partition p's log (R389-R392, R401). -/
def State.logPart (s : State) (p code sev srcKind srcIdx detail : Nat) : State :=
  let s := s.setLog (p + 1)
    ((s.log (p + 1)).append 1024 (fun n => logWord n s.time code sev (some p) srcKind srcIdx detail))
  s.raiseMsix (p + 1) 2

/-! ### Events, queues, mailboxes, delay lists -/

def qDepth (q : Queue) : Nat := bits q.desc.toNat 0 13
def qEnable (q : Queue) : Bool := bit q.desc.toNat 13
def qHprio (q : Queue) : Nat := bits q.desc.toNat 14 3
def qJoined (q : Queue) : Bool := bit q.desc.toNat 17
def qPartner (q : Queue) : Nat := bits q.desc.toNat 18 10
def qHkey (q : Queue) : Nat := bits q.desc.toNat 32 16
def qConsumers (q : Queue) : Nat := bits q.desc.toNat 64 32

/-- Queue `q` of a shed (R148). -/
def Shed.queue (x : Shed) (q : Nat) : Queue := FMap.get (fun _ => Queue.reset) x.queues q
def Shed.setQueue (x : Shed) (q : Nat) (v : Queue) : Shed :=
  { x with queues := FMap.set (fun _ => Queue.reset) x.queues q v }

/-- Whether queue `q` is the partner of a join (R151). -/
def Shed.isPartner (x : Shed) (q : Nat) : Bool :=
  x.queues.any (fun e => qJoined e.2 && decide (qPartner e.2 = q))

/-- Kinds of an event (R147). -/
def kindEvpush : Nat := 0
def kindWatch : Nat := 1
def kindHandle : Nat := 2
def kindMail : Nat := 3
def kindHost : Nat := 4
def kindError : Nat := 5
def kindTrain : Nat := 6

def evPrio (ev : BitVec 256) : Nat := bits ev.toNat 11 3
def evReserved (ev : BitVec 256) : Nat := bits ev.toNat 14 2
def evKey (ev : BitVec 256) : Nat := bits ev.toNat 16 16
def evDelay (ev : BitVec 256) : Nat := bits ev.toNat 32 32

/-- The event a queue or mailbox holds for a push of kind `kind` (R147, R150). -/
def eventOf (q : Queue) (kind : Nat) (ev : BitVec 256) (stamp : Nat) : Event :=
  if kind = kindHandle then
    { prio := BitVec.ofNat 3 (qHprio q), key := BitVec.ofNat 16 (qHkey q), kind := 2,
      h := BitVec.ofNat 192 (bits ev.toNat 0 64), stamp := stamp }
  else
    { prio := BitVec.ofNat 3 (evPrio ev), key := BitVec.ofNat 16 (evKey ev), kind := BitVec.ofNat 4 kind,
      h := BitVec.ofNat 192 (ev.toNat >>> 64), stamp := stamp }

/-- What a push meets (R149): accepted, waiting, or refused with a code. -/
inductive Accept where
  | ok (s : State)
  | wait (s : State)
  | refuse (code : Nat)

/-- The conditions of R32 fail now: the shed's 20 µs begin again. -/
def State.touch (s : State) (k : Nat) : State := s.modShed k (fun x => { x with busyAt := s.clock })

/-- (D − TICK) as a signed distance (R155, R156). -/
def dueIn (s : State) (d : Delayed) : Int := toInt 32 (d.deadline.toNat + 2 ^ 32 - s.tickNow)

/-- Whether an entry of a delay list is due (R155). -/
def isDue (s : State) (d : Delayed) : Bool := decide ((s.tickNow + 2 ^ 32 - d.deadline.toNat) % 2 ^ 32 < 2 ^ 31)

/-- Place an entry on the delay list of shed `k`, after entries of equal deadline; waits when it is full (R155, R156). -/
def State.pushDelay (s : State) (k : Nat) (d : Delayed) : Accept :=
  let x := s.shed k
  if 4096 ≤ x.delay.length then .wait (s.setShed k { x with dlfull := true })
  else .ok (s.setShed k { x with delay := insertBy (fun a b => decide (dueIn s a ≤ dueIn s b)) d x.delay })

/-- The deadline of a delay of `d` ticks (R155). -/
def State.deadline (s : State) (d : Nat) : BitVec 32 := BitVec.ofNat 32 (s.tickNow + d)

/-- Append an event to queue `q` of shed `k` if an entry is free; error events use the reserve of 64 (R149, R160). -/
def State.enqueue (s : State) (k q kind : Nat) (ev : BitVec 256) : Accept :=
  let x := s.shed k
  let Q := x.queue q
  if qDepth Q + (if kind = kindError then 64 else 0) ≤ Q.items.length then .wait (s.setShed k { x with qfull := true })
  else .ok (((s.setShed k (x.setQueue q { Q with items := Q.items ++ [eventOf Q kind ev s.ctr] })).tick1).touch k)

/-- Whether an entry of shed `k`'s delay list is due and has not yet moved to target `g`; pushes to `g` come after it
(R149, R155). -/
def State.dueTo (s : State) (k : Nat) (g : DTarget) : Bool :=
  (s.shed k).delay.any (fun d => decide (d.target = g) && isDue s d)

/-- A push of an event, or of a handle in bits [63:0], to queue INDEX `qi` (R147-R151, R155).  A push that breaks several
rules reports the first of E_FIELD, E_QUEUE and E_DELAY, an order that R160 does not give (log 51). -/
def State.pushQueue (s : State) (qi kind stall part : Nat) (ev : BitVec 256) : Accept :=
  let k := qi / 1024
  let q := qi % 1024
  let x := s.shed k
  let Q := x.queue q
  if kind ≠ kindHandle ∧ evReserved ev ≠ 0 then .refuse 0x0507
  else if qEnable Q = false then .refuse 0x0502
  else if kind ≠ kindHandle ∧ (qJoined Q ∨ x.isPartner q) then .refuse 0x0502
  else if kind ≠ kindHandle ∧ 2 ^ 31 ≤ evDelay ev then .refuse 0x0501
  else if kind ≠ kindHandle ∧ evDelay ev ≠ 0 then
    s.pushDelay k { deadline := s.deadline (evDelay ev), target := .queue q, kind := BitVec.ofNat 4 kind, ev := ev,
                    stall := stall, part := part }
  else if s.dueTo k (.queue q) then .wait s
  else s.enqueue k q kind ev

/-- Append a message to the mailbox of stall `t`, 16 events; a mailbox is no queue of QFULL (R119, R161). -/
def State.enmail (s : State) (t : Nat) (ev : BitVec 256) : Accept :=
  let x := s.stall t
  if 16 ≤ x.mail.length then .wait s
  else .ok (((s.setStall t { x with mail := x.mail ++ [eventOf Queue.reset kindMail ev s.ctr] }).tick1).touch (t / 32))

/-- A message to the mailbox of stall `t` (R119). -/
def State.pushMail (s : State) (t stall part : Nat) (ev : BitVec 256) : Accept :=
  if evReserved ev ≠ 0 then .refuse 0x0507
  else if 2 ^ 31 ≤ evDelay ev then .refuse 0x0501
  else if evDelay ev ≠ 0 then
    s.pushDelay (t / 32) { deadline := s.deadline (evDelay ev), target := .mail t, kind := 3, ev := ev, stall := stall,
                           part := part }
  else if s.dueTo (t / 32) (.mail t) then .wait s
  else s.enmail t ev

/-! ### Reports -/

/-- The number that stands for no issuing stall: one beyond the last stall (R5). -/
def noStall : Nat := 1024

/-- The error event of R160; its stall field reads 0x3FF where no stall issued the operation. -/
def errorEvent (code stall target idx fcode : Nat) : BitVec 256 :=
  BitVec.ofNat 256 ((code % 2 ^ 16) * 2 ^ 64 + min stall 0x3FF * 2 ^ 80 + (target % 2 ^ 64) * 2 ^ 128 +
    (idx % 2 ^ 32) * 2 ^ 192 + (fcode % 2 ^ 16) * 2 ^ 224)

/-- Push an error event to the fault queue of partition p, or only note its loss when the reserve is full (R160).  Of two
cases the spec says nothing, and the model chooses (log 62): an event whose fault queue is disabled, or in a shed that p
does not own, is not pushed and does not set FAULTQ_LOST; one whose fault queue is joined is enqueued there. -/
def State.pushError (s : State) (p : Nat) (ev : BitVec 256) : State :=
  let qi := (s.part p).faultQ
  let k := qi / 1024
  if s.owns p k = false ∨ qEnable ((s.shed k).queue (qi % 1024)) = false then s
  else match s.enqueue k (qi % 1024) kindError ev with
    | .ok s' => s'
    | _ => s.modShed k (fun x => { x with fqLost := true })

/-- Report an error event and its entry in the partition log (R160, R401); `srcKind` and `srcIdx` name the unit when no
stall issued the operation. -/
def State.reportError (s : State) (p code stall srcKind srcIdx target idx fcode : Nat) : State :=
  let s := s.pushError p (errorEvent code stall target idx fcode)
  if stall = noStall then s.logPart p code 2 srcKind srcIdx target
  else s.logPart p code 2 1 stall target

/-! ### Stopping and the first-NaN record -/

/-- Discard the held run-ahead results of shed `k` of partition p, counting each (R187). -/
def State.discardAhead (s : State) (p k : Nat) : State :=
  let x := s.shed k
  let s := s.bumpObj (kRaDiscarded p) x.sampler.held.length
  s.modShed k (fun x => { x with sampler := { x.sampler with held := [] } })

/-- Partition p goes from running to stopping (R347); `halted` for a halt under R65. -/
def State.beginStop (s : State) (p : Nat) (halted : Bool) : State :=
  let s := s.modPart p (fun x => { x with phase := .stopping, halting := halted, halted := x.halted || halted })
  (s.shedsOf p).foldl (fun s k => s.discardAhead p k) s

/-- The first-NaN record of R61. -/
def nanWord (halted noSt : Bool) (unit cause op shed stall addr elem step time : Nat) : Nat :=
  1 + b2n halted * 2 + b2n noSt * 4 + (unit % 16) * 2 ^ 8 + (cause % 16) * 2 ^ 12 + (op % 256) * 2 ^ 16 +
  (shed % 32) * 2 ^ 24 + (stall % 32) * 2 ^ 29 + (addr % 2 ^ 32) * 2 ^ 64 + (elem % 2 ^ 32) * 2 ^ 96 +
  (step % 2 ^ 64) * 2 ^ 128 + (time % 2 ^ 64) * 2 ^ 192

/-- Who let a NaN in (R61, R62): unit, operation, issuing stall or `noStall`, address. -/
structure NanSrc where
  unit  : Nat
  op    : Nat
  stall : Nat
  addr  : Nat
  deriving DecidableEq, Repr

/-- One event for the first-NaN record of partition p (R60-R65). -/
def State.nanEvent (s : State) (p : Nat) (src : NanSrc) (cause elem : Nat) : State :=
  let s := s.bumpObj (kNanCount p) 1
  let ctl := s.obj (kNanTrap p)
  if bit ctl 0 = false ∨ bit (s.obj (kNanRecord p)) 0 then s
  else
    let halt := bit ctl 1 && s.partRuns p
    let noSt := decide (src.stall = noStall)
    let shed := if noSt then (s.shedsOf p).headD 0 else src.stall / 32
    let loc := if noSt then 0 else src.stall % 32
    let w := nanWord halt noSt src.unit cause src.op shed loc src.addr elem (s.stepOf p) s.time
    let s := s.setObj (kNanRecord p) w
    if halt then (s.logPart p 0x0D0D 3 1 (32 * shed + loc) (w % 2 ^ 64)).beginStop p true else s

/-- The events of a list of result elements: index and cause, cause 0 for none, in ascending order (R63). -/
def State.nanEvents (s : State) (p : Nat) (src : NanSrc) (es : List (Nat × Nat)) : State :=
  es.foldl (fun s e => if e.2 = 0 then s else s.nanEvent p src e.2 e.1) s

/-- STALL_FAULT of R132. -/
def stallFaultWord (code t pc addr step time : Nat) : Nat :=
  code % 2 ^ 16 + (t / 32 % 32) * 2 ^ 16 + (t % 32) * 2 ^ 21 + 2 ^ 31 + (pc % 2 ^ 32) * 2 ^ 32 + (addr % 2 ^ 64) * 2 ^ 64 +
  (step % 2 ^ 64) * 2 ^ 128 + (time % 2 ^ 64) * 2 ^ 192

/-- Stall `t` of partition p stops on a fault at `pc` (R131, R132). -/
def State.stallFault (s : State) (p t code pc addr : Nat) : State :=
  let s := s.modStall t (fun x => { x with mode := .faulted, pc := BitVec.ofNat 32 pc })
  let s := s.bumpObj (kStallFaultCount p) 1
  let s := if bit (s.obj (kStallFault p)) 31 then s
    else s.setObj (kStallFault p) (stallFaultWord code t pc addr (s.stepOf p) s.time)
  let s := s.logPart p code 2 1 t addr
  s.pushError p (errorEvent code t addr pc 0)

/-! ### Memory -/

/-- Physical keys of memory: lofts, stall memories, HBM by yard address. -/
def loftKey (k off : Nat) : Nat := 0x100000000 + k * 2 ^ 25 + off
def stallKey (t off : Nat) : Nat := 0x200000000 + t * 2 ^ 18 + off
def hbmKey (y a : Nat) : Nat := 2 ^ 48 + y * 2 ^ 38 + a

/-- Whether a physical key lies in HBM. -/
def isHbm (k : Nat) : Bool := decide (2 ^ 48 ≤ k)

/-- Row engine that serves an HBM key (R234). -/
def engineOf (k : Nat) : Nat :=
  let r := k - 2 ^ 48
  let y := r / 2 ^ 38
  let yb := r % 2 ^ 38 / 512
  (y * 3 + yb / 32 % 3) * 32 + yb % 32

/-- The key of an offset in granule `g` (R236). -/
def granKey (g : Granule) (q : Nat) : Option Nat :=
  if g.near.isSome then
    (g.frames[q / 2 ^ 28]?).map (fun yf => hbmKey yf.1 (yf.2 * 2 ^ 28 + q % 2 ^ 28))
  else
    let b := q / 512
    (g.frames[b % 4]?).map (fun yf => hbmKey yf.1 (yf.2 * 2 ^ 28 + b / 4 * 512 + q % 512))

/-- The key of partition p's HBM offset `o` (R236). -/
def State.hbmOff (s : State) (p o : Nat) : Option Nat :=
  match (s.part p).grans[o / 2 ^ 30]? with
  | some g => granKey g (o % 2 ^ 30)
  | none => none

/-- The key of a stall address for partition p; `self` is the stall whose own local memory the low range names, if any
(R125).  None: unmapped or outside the partition. -/
def State.phys (s : State) (p : Nat) (self : Option Nat) (a : Nat) : Option Nat :=
  if a < 2 ^ 18 then self.map (fun t => stallKey t a)
  else if 0x100000000 ≤ a ∧ a < 0x100000000 + 2 ^ 30 then
    let k := (a - 0x100000000) / 2 ^ 25
    if s.owns p k then some (loftKey k ((a - 0x100000000) % 2 ^ 25)) else none
  else if 0x200000000 ≤ a ∧ a < 0x200000000 + 2 ^ 28 then
    let t := (a - 0x200000000) / 2 ^ 18
    if s.owns p (t / 32) then some (stallKey t ((a - 0x200000000) % 2 ^ 18)) else none
  else if 2 ^ 48 ≤ a ∧ a < 2 ^ 49 then s.hbmOff p (a - 2 ^ 48)
  else none

/-- What an unlisted byte reads as (assumption log 4). -/
def memReset (_ : Nat) : Byte := 0

/-- One byte of memory. -/
def State.byte (s : State) (k : Nat) : Byte := FMap.get memReset s.mem k
def State.setByte (s : State) (k : Nat) (v : Byte) : State := { s with mem := FMap.set memReset s.mem k v }

/-- `n` bytes from a physical key. -/
def State.getBytes (s : State) (k n : Nat) : List Byte := (List.range n).map (fun i => s.byte (k + i))
/-- Write bytes from a physical key upward. -/
def State.putBytes : State → Nat → List Byte → State
  | s, _, [] => s
  | s, k, b :: bs => (s.setByte k b).putBytes (k + 1) bs

/-- The symbols of a sector that stand in error: byte i for symbol i, data 0 to 31, check symbols 32 to 35 (R245).  Upsets
of the cells come from outside the model (log 49); memory holds the data as last written. -/
def State.check (s : State) (sec : Nat) : BitVec 288 := FMap.get (fun _ => 0) s.ecc sec
def State.setCheck (s : State) (sec : Nat) (v : BitVec 288) : State :=
  { s with ecc := FMap.set (fun _ => 0) s.ecc sec v }
/-- The poison syndrome: r₀ and r₁ XORed with 0xFF (R246). -/
def poisonMark : BitVec 288 := BitVec.ofNat 288 (0xFFFF * 2 ^ 256)
/-- Whether the sector of a key of HBM is poisoned. -/
def State.poisoned (s : State) (k : Nat) : Bool := isHbm k && decide (s.check (k / 32) = poisonMark)

/-- The keys of `n` bytes from stall address `a`; none if a byte is unmapped or outside the partition. -/
def State.physRange (s : State) (p : Nat) (self : Option Nat) (a n : Nat) : Option (List Nat) :=
  (List.range n).mapM (fun i => s.phys p self (a + i))

/-- Whether `n` bytes from stall address `a` are mapped and in the partition: every sector they touch is, because
ownership changes on sector boundaries only (R125). -/
def State.mapped (s : State) (p : Nat) (self : Option Nat) (a n : Nat) : Bool :=
  decide (n = 0) || (List.range ((a + n - 1) / 32 - a / 32 + 1)).all
    (fun i => (s.phys p self (if i = 0 then a else 32 * (a / 32 + i))).isSome)

/-! ### Shed clock -/

/-- CYCLE's count: shed-clock cycles of the stall's yard since its partition started (R100). -/
def State.cycles (s : State) (p t : Nat) : Nat :=
  (s.yard (t / 256)).cycles - FMap.get (fun _ => 0) (s.part p).base (t / 256)

end Sys2Proof.Machine
end

