-- ==== Sys2Proof/Machine/Operands.lean ====
section
/-!
DEFINITION. The registers of a stall and the operand forms of its instructions (R99, R104, R112), the conditions under
which a stall executes an instruction (R117, R120, R126, R132, R347), and the shape the arithmetic instructions share.
-/

namespace Sys2Proof.Machine

/-! ### Registers -/

/-- The number of a v register among the destinations of outstanding results. -/
def vreg (i : Nat) : Nat := 32 + i

/-- A general register; g31 reads as zero (R99). -/
def Stall.getG (x : Stall) (i : BitVec 5) : BitVec 64 :=
  if i = 31 then 0 else FMap.get (fun _ => 0) x.g i.toNat

/-- Results still outstanding for register `r` no longer go there: an instruction at place `n` of the program order has
replaced them.  They keep the register, for an earlier instruction that faults yet (R132). -/
def Stall.supersedeAt (x : Stall) (n r : Nat) : Stall :=
  { x with acc := x.acc.map (fun a => if a.dst = some r then { a with dst := none, was := some (r, n) } else a),
           waits := x.waits.map (fun w => if w.dst = some r then { w with dst := none, was := some (r, n) } else w) }

/-- The same for the instruction at the next place. -/
def Stall.supersede (x : Stall) (r : Nat) : Stall := x.supersedeAt x.seq r

/-- Store into a general register without touching outstanding results; g31 discards writes (R99). -/
def Stall.putG (x : Stall) (i : Nat) (v : BitVec 64) : Stall :=
  if i = 31 then x else { x with g := FMap.set (fun _ => 0) x.g i v }

/-- Write a general register (R99). -/
def Stall.setG (x : Stall) (i : BitVec 5) (v : BitVec 64) : Stall := (x.supersede i.toNat).putG i.toNat v

/-- A vector register (R99). -/
def Stall.getV (x : Stall) (i : BitVec 5) : BitVec 1024 := FMap.get (fun _ => 0) x.v i.toNat
def Stall.putV (x : Stall) (i : Nat) (v : BitVec 1024) : Stall := { x with v := FMap.set (fun _ => 0) x.v i v }
/-- Write a vector register (R99). -/
def Stall.setV (x : Stall) (i : BitVec 5) (v : BitVec 1024) : Stall :=
  (x.supersede (vreg i.toNat)).putV i.toNat v

/-- A predicate register; p0 reads as all ones (R99). -/
def Stall.getP (x : Stall) (i : Nat) : BitVec 128 :=
  if i = 0 then BitVec.allOnes 128 else FMap.get (fun _ => 0) x.p i
/-- Write a predicate register; p0 discards writes (R99). -/
def Stall.setP (x : Stall) (i : Nat) (v : BitVec 128) : Stall :=
  if i = 0 then x else { x with p := FMap.set (fun _ => 0) x.p i v }

/-- Set sticky status bits (R59, R102). -/
def Stall.flag (x : Stall) (f : BitVec 4) : Stall := { x with astat := x.astat ||| f }
/-- Go on to the next instruction. -/
def Stall.advance (x : Stall) : Stall := { x with pc := x.pc + 4 }
/-! ### Registers before a load that may fault (R132) -/

/-- The registers as they stand. -/
def Stall.ctx (x : Stall) : Ctx :=
  { g := x.g, v := x.v, p := x.p, astat := x.astat, wrap := x.wrap, rngKey := x.rngKey, rngLo := x.rngLo, rngHi := x.rngHi }

/-- A value of a g register, or of a v register by its low bits, in a saved context. -/
def Ctx.put (c : Ctx) (r : Nat) (v : BitVec 1024) : Ctx :=
  if r = 31 then c
  else if r < 32 then { c with g := FMap.set (fun _ => 0) c.g r (v.setWidth 64) }
  else { c with v := FMap.set (fun _ => 0) c.v (r - 32) v }

/-- The result of the access or control operation at place `n` also reaches the contexts saved by later loads that came
before what superseded it. -/
def Stall.keep (x : Stall) (n : Nat) (dst : Option Nat) (was : Option (Nat × Nat)) (v : BitVec 1024) : Stall :=
  { x with acc := x.acc.map (fun b =>
      if n < b.seq then
        (match dst, was with
         | some r, _ => { b with ctx := b.ctx.put r v }
         | none, some (r, m) => if b.seq < m then { b with ctx := b.ctx.put r v } else b
         | none, none => b)
      else b) }

/-- The next place in program order. -/
def Stall.nextSeq (x : Stall) : Stall := { x with seq := x.seq + 1 }

/-! ### Execution of an instruction -/

/-- The partition for which stall `t` executes instructions now: its partition runs, the stall runs, and pc lies in its
local memory (R31, R117, R131, R132, R347). -/
def State.runner (s : State) (t : Nat) : Option Nat :=
  match s.owner (t / 32) with
  | some p =>
    if s.partRuns p ∧ (s.stall t).mode = .running ∧ (s.stall t).pc.toNat < 2 ^ 18 then some p else none
  | none => none

/-- Whether a result for register `r` is outstanding (R126). -/
def Stall.waiting (x : Stall) (r : Nat) : Bool :=
  x.acc.any (fun a => decide (a.dst = some r)) || x.waits.any (fun w => decide (w.dst = some r))

/-- Whether no register of `rs` waits for a result (R120, R126). -/
def Stall.ready (x : Stall) (rs : List Nat) : Bool := rs.all (fun r => !(x.waiting r))

/-- Execute an instruction of stall `t` that reads the registers `rs`: a stall that does not run, or that waits for a
result, does not (R120); `k` is given the partition and the stall. -/
def issue (t : Nat) (rs : List Nat) (s : State) (k : Nat → Stall → Out1) : Out1 :=
  if 1024 ≤ t then .fault .noSuchUnit
  else match s.runner t with
    | none => .next s
    | some p => if (s.stall t).ready rs then k p (s.stall t) else .next s

/-- An invalid encoding (R105, R131). -/
def illegal (p t : Nat) (s : State) : Out1 := .next (s.stallFault p t 0x0401 (s.stall t).pc.toNat 0)

/-- The effect of an instruction that only computes a general register. -/
def Stall.doG (x : Stall) (d : BitVec 5) (r : GRes) : Stall := ((x.setG d r.1).flag r.2).advance

/-- An instruction whose only effect is gd and the status (R107). -/
def execG (t : Nat) (d : BitVec 5) (rs : List Nat) (f : Stall → GRes) (s : State) : Out1 :=
  issue t rs s fun _ x => .next (s.setStall t (x.doG d (f x)))

/-- gd = f(ga, gb) (R107). -/
def execGG (t : Nat) (d a b : BitVec 5) (f : BitVec 64 → BitVec 64 → GRes) (s : State) : Out1 :=
  execG t d [a.toNat, b.toNat] (fun x => f (x.getG a) (x.getG b)) s

/-- gd = f(ga) (R107). -/
def execGA (t : Nat) (d a : BitVec 5) (f : BitVec 64 → GRes) (s : State) : Out1 :=
  execG t d [a.toNat] (fun x => f (x.getG a)) s

/-- IMM sign-extended (R104). -/
def imm64 (i : BitVec 15) : BitVec 64 := i.signExtend 64

/-- gd = f(ga, IMM) (R107). -/
def execGI (t : Nat) (d a : BitVec 5) (imm : BitVec 15) (f : BitVec 64 → BitVec 64 → GRes) (s : State) : Out1 :=
  execG t d [a.toNat] (fun x => f (x.getG a) (imm64 imm)) s

/-- gd = f(ga, IMM[5:0]), IMM[14:6] zero (R105, R107). -/
def execShiftI (t : Nat) (d a : BitVec 5) (imm : BitVec 15) (f : BitVec 64 → BitVec 64 → GRes) (s : State) : Out1 :=
  if imm.toNat < 64 then execGI t d a imm f s
  else issue t [] s fun p _ => illegal p t s

/-! ### Scalar FP32 -/

/-- The FP32 value in bits [31:0] of a register (R108). -/
def f32of (v : BitVec 64) : FVal := fp32.decode (v.toNat % 2 ^ 32)

/-- An FP32 instruction: gd, status, and the first-NaN event of a NaN result (R60, R108). -/
def execF (t : Nat) (d : BitVec 5) (rs : List Nat) (f : Stall → ERes) (s : State) : Out1 :=
  issue t rs s fun p x =>
    let r := f x
    .next ((s.setStall t (x.doG d (BitVec.ofNat 64 r.code, r.flags))).nanEvents p ⟨0, 1, t, x.pc.toNat⟩ [(0, r.cause)])

/-- A comparison of FP32 values: 1 or 0 (R48, R108). -/
def execFCmp (t : Nat) (d a b : BitVec 5) (f : FVal → FVal → Bool) (s : State) : Out1 :=
  execGG t d a b (fun x y => (if f (f32of x) (f32of y) then 1 else 0, 0)) s

/-! ### Vectors -/

/-- Element `i` of width `w` (R99). -/
def elem (w : Nat) (v : BitVec 1024) (i : Nat) : Nat := bits v.toNat (w * i) w

/-- The number of a list of elements of width `w`, element 0 lowest. -/
def packNat (w : Nat) : List Nat → Nat
  | [] => 0
  | x :: xs => x % 2 ^ w + 2 ^ w * packNat w xs

/-- A vector of elements of width `w`. -/
def packV (w : Nat) (es : List Nat) : BitVec 1024 := BitVec.ofNat 1024 (packNat w es)

/-- Whether element `i` of width `w` is active under a predicate (R112). -/
def active (pr : BitVec 128) (w i : Nat) : Bool := pr.getLsbD (i * (w / 8))

/-- Status and first-NaN causes of the results of active elements. -/
def flagsOf (rs : List (Nat × ERes)) : BitVec 4 := rs.foldl (fun f r => f ||| r.2.flags) 0
def causesOf (rs : List (Nat × ERes)) : List (Nat × Nat) := rs.map (fun r => (r.1, r.2.cause))

/-- The results of the active elements (R112). -/
def activeRes (pr : BitVec 128) (w : Nat) (f : Nat → ERes) : List (Nat × ERes) :=
  (List.range (1024 / w)).filterMap (fun i => if active pr w i then some (i, f i) else none)

/-- The new vector: active elements from `f`, the others kept (R112). -/
def mergeV (pr : BitVec 128) (w : Nat) (old : BitVec 1024) (f : Nat → ERes) : BitVec 1024 :=
  packV w ((List.range (1024 / w)).map (fun i => if active pr w i then (f i).code else elem w old i))

/-- Which ET codes an operation takes (R105, R110). -/
inductive EtSet where
  | any | float | int
  deriving DecidableEq, Repr

/-- Whether ET is valid for an operation (R104, R105). -/
def etOk (k : EtSet) (et : Nat) : Bool :=
  match k with
  | .any => decide (et ≤ 6)
  | .float => decide (et ≤ 2)
  | .int => etInt et

/-- An elementwise vector instruction (R110, R112): `f` computes element `i` from the stall. -/
def execV (t : Nat) (d : BitVec 5) (p : BitVec 3) (w : Nat) (ok : Bool) (rs : List Nat) (op : Nat)
    (f : Stall → Nat → ERes) (s : State) : Out1 :=
  issue t (if ok then vreg d.toNat :: rs else []) s fun pt x =>
    if ok then
      let pr := x.getP p.toNat
      let rs := activeRes pr w (f x)
      .next ((s.setStall t (((x.setV d (mergeV pr w (x.getV d) (f x))).flag (flagsOf rs)).advance)).nanEvents pt
        ⟨1, op, t, x.pc.toNat⟩ (causesOf rs))
    else illegal pt t s

/-- vd = f(va, vb) (R110). -/
def execVV (k : EtSet) (t : Nat) (d a b : BitVec 5) (p et : BitVec 3) (f : Nat → Nat → Nat → ERes) (s : State) : Out1 :=
  execV t d p (etWidth et.toNat) (etOk k et.toNat) [vreg a.toNat, vreg b.toNat] 1
    (fun x i => f et.toNat (elem (etWidth et.toNat) (x.getV a) i) (elem (etWidth et.toNat) (x.getV b) i)) s

/-- vd = f(va) (R110). -/
def execVA (k : EtSet) (t : Nat) (d a : BitVec 5) (p et : BitVec 3) (f : Nat → Nat → ERes) (s : State) : Out1 :=
  execV t d p (etWidth et.toNat) (etOk k et.toNat) [vreg a.toNat] 1
    (fun x i => f et.toNat (elem (etWidth et.toNat) (x.getV a) i)) s

/-- vd = f(va, vb, vc) in format FT (R106). -/
def execVVV (t : Nat) (d a b c : BitVec 5) (p : BitVec 3) (ft : BitVec 2) (f : Fmt → Nat → Nat → Nat → ERes)
    (s : State) : Out1 :=
  let fm := (fmtOf ft.toNat).getD fp32
  execV t d p fm.width (decide (ft ≠ 3)) [vreg a.toNat, vreg b.toNat, vreg c.toNat] 1
    (fun x i => f fm (elem fm.width (x.getV a) i) (elem fm.width (x.getV b) i) (elem fm.width (x.getV c) i)) s

/-- The predicate of a comparison: every byte bit of an active element takes its result, the others are kept
(R110, R112; assumption log 12). -/
def cmpPred (pr old : BitVec 128) (w : Nat) (f : Nat → Bool) : BitVec 128 :=
  BitVec.ofNat 128 (packNat 1 ((List.range 128).map (fun j =>
    let i := j / (w / 8)
    if active pr w i then b2n (f i) else b2n (old.getLsbD j))))

/-- A vector comparison into predicate register D[2:0] (R105, R110). -/
def execCmp (k : EtSet) (t : Nat) (d : BitVec 5) (p et : BitVec 3) (rs : List Nat) (f : Nat → Stall → Nat → Bool)
    (s : State) : Out1 :=
  let ok := etOk k et.toNat && decide (d.toNat < 8)
  issue t (if ok then rs else []) s fun pt x =>
    if ok then
      let w := etWidth et.toNat
      .next (s.setStall t ((x.setP d.toNat (cmpPred (x.getP p.toNat) (x.getP d.toNat) w (f w x))).advance))
    else illegal pt t s

/-- Comparison of va and vb. -/
def execCmpVV (k : EtSet) (t : Nat) (d a b : BitVec 5) (p et : BitVec 3) (f : Nat → Nat → Nat → Bool) (s : State) : Out1 :=
  execCmp k t d p et [vreg a.toNat, vreg b.toNat]
    (fun w x i => f et.toNat (elem w (x.getV a) i) (elem w (x.getV b) i)) s

/-- Test of va. -/
def execCmpVA (t : Nat) (d a : BitVec 5) (p et : BitVec 3) (f : FVal → Bool) (s : State) : Out1 :=
  execCmp .float t d p et [vreg a.toNat]
    (fun w x i => f (((fmtOf et.toNat).getD fp32).decode (elem w (x.getV a) i))) s

/-! ### Element bytes of memory accesses -/

/-- The bytes of a vector register, lowest first. -/
def vBytes (v : BitVec 1024) : List Byte := toBytes 128 v.toNat

/-- `w` bits sign- or zero-extended to 64. -/
def extend (signed : Bool) (w n : Nat) : BitVec 64 := if signed then sext w n else BitVec.ofNat 64 (n % 2 ^ w)

end Sys2Proof.Machine
end

