-- ==== Sys2Proof/Machine/Branch.lean ====
section
/-!
DEFINITION. Branches, jumps, special registers and the fetch events of a stall (R100-R106, R131).
-/

namespace Sys2Proof.Machine

/-- pc + 4 × OFF (R104). -/
def target15 (pc : BitVec 32) (off : BitVec 15) : BitVec 32 := pc + (off.signExtend 32 <<< 2)
def target20 (pc : BitVec 32) (off : BitVec 20) : BitVec 32 := pc + (off.signExtend 32 <<< 2)

/-- A branch on ga and gb (R106). -/
def execBranch (st : Nat) (a b : BitVec 5) (off : BitVec 15) (c : BitVec 64 → BitVec 64 → Bool) (s : State) : Out1 :=
  issue st [a.toNat, b.toNat] s fun _ x =>
    .next (s.setStall st (if c (x.getG a) (x.getG b) then { x with pc := target15 x.pc off } else x.advance))

/-- BEQ (R106). -/
def execBeq (st : Nat) (a b : BitVec 5) (off : BitVec 15) (s : State) : Out1 :=
  execBranch st a b off (fun x y => decide (x = y)) s
/-- BNE (R106). -/
def execBne (st : Nat) (a b : BitVec 5) (off : BitVec 15) (s : State) : Out1 :=
  execBranch st a b off (fun x y => decide (x ≠ y)) s
/-- BLT (R106). -/
def execBlt (st : Nat) (a b : BitVec 5) (off : BitVec 15) (s : State) : Out1 :=
  execBranch st a b off (fun x y => decide (x.toInt < y.toInt)) s
/-- BGE (R106). -/
def execBge (st : Nat) (a b : BitVec 5) (off : BitVec 15) (s : State) : Out1 :=
  execBranch st a b off (fun x y => decide (y.toInt ≤ x.toInt)) s
/-- BLTU (R106). -/
def execBltu (st : Nat) (a b : BitVec 5) (off : BitVec 15) (s : State) : Out1 :=
  execBranch st a b off (fun x y => decide (x.toNat < y.toNat)) s
/-- BGEU (R106). -/
def execBgeu (st : Nat) (a b : BitVec 5) (off : BitVec 15) (s : State) : Out1 :=
  execBranch st a b off (fun x y => decide (y.toNat ≤ x.toNat)) s

/-- The address after an instruction, as a register value (R106). -/
def linkOf (x : Stall) : BitVec 64 := (x.pc + 4).setWidth 64

/-- JAL (R106): gd = pc + 4; pc = target. -/
def execJal (st : Nat) (d : BitVec 5) (off : BitVec 20) (s : State) : Out1 :=
  issue st [] s fun _ x => .next (s.setStall st { x.setG d (linkOf x) with pc := target20 x.pc off })

/-- JALR (R106): gd = pc + 4; pc = (ga + IMM) with bits [1:0] cleared; pc keeps the low 32 bits (R99, assumption
log 13). -/
def execJalr (st : Nat) (d a : BitVec 5) (imm : BitVec 15) (s : State) : Out1 :=
  issue st [a.toNat] s fun _ x =>
    .next (s.setStall st
      { x.setG d (linkOf x) with pc := ((x.getG a + imm64 imm).setWidth 32) &&& 0xFFFFFFFC })

/-! ### Special registers -/

/-- Memory transaction tags the stall holds: outstanding accesses outside its own local memory, and descriptors (R126). -/
def Access.tagged (t : Nat) (a : Access) : Bool := a.parts.any (fun q => decide (q.phys / 2 ^ 18 ≠ stallKey t 0 / 2 ^ 18))
def Stall.tags (x : Stall) (t : Nat) : Nat := (x.acc.filter (Access.tagged t)).length + x.descs

/-- The value SRD reads from special register `i`, none for a reserved index (R100); a wrap of CYCLE shows at once (R388). -/
def State.special (s : State) (p t i : Nat) : Option (BitVec 64) :=
  let x := s.stall t
  if i = 0x00 then some (x.astat.setWidth 64)
  else if i = 0x01 then some (BitVec.ofNat 64 (t + p * 2 ^ 16))
  else if i = 0x02 then
    let c := s.cycles p t
    some (BitVec.ofNat 64 (c % 2 ^ 48 + b2n (x.wrap || decide (x.wraps < c / 2 ^ 48)) * 2 ^ 63))
  else if i = 0x03 then some (BitVec.ofNat 64 (s.stepOf p))
  else if i = 0x04 then some (BitVec.ofNat 64 s.time)
  else if i = 0x05 then some (BitVec.ofNat 64 (x.tags t))
  else if i = 0x08 then some x.rngKey
  else if i = 0x09 then some x.rngLo
  else if i = 0x0A then some x.rngHi
  else none

/-- SRD (R100, R105): E_ILLEGAL for a reserved index (R131). -/
def execSrd (st : Nat) (d : BitVec 5) (idx : BitVec 8) (s : State) : Out1 :=
  issue st [] s fun p x =>
    match s.special p st idx.toNat with
    | some v => .next (s.setStall st ((x.setG d v).advance))
    | none => illegal p st s

/-- What SWR of `v` does to special register `i`, none where it raises E_ILLEGAL (R101, R102, R131). -/
def Stall.swr (x : Stall) (i : Nat) (v : BitVec 64) : Option Stall :=
  if i = 0x00 then some { x with astat := x.astat &&& ~~~(v.setWidth 4) }
  else if i = 0x02 then some { x with wrap := x.wrap && !(v.getLsbD 63) }
  else if i = 0x08 then some { x with rngKey := v }
  else if i = 0x09 then some { x with rngLo := v }
  else if i = 0x0A then some { x with rngHi := v }
  else none

/-- The wraps of CYCLE at count `c` that COUNTER_WRAP has not marked yet are marked (R388). -/
def Stall.takeWraps (x : Stall) (c : Nat) : Stall :=
  if x.wraps < c / 2 ^ 48 then { x with wrap := true, wraps := c / 2 ^ 48 } else x

/-- SWR (R101): of CYCLE it clears the WRAP that SRD shows. -/
def execSwr (st : Nat) (a : BitVec 5) (idx : BitVec 8) (s : State) : Out1 :=
  issue st [a.toNat] s fun p x =>
    match (if idx.toNat = 0x02 then x.takeWraps (s.cycles p st) else x).swr idx.toNat (x.getG a) with
    | some y => .next (s.setStall st y.advance)
    | none => illegal p st s

/-- FETCH_OUTSIDE_LOCAL_MEMORY (R131): a running stall whose pc lies outside its local memory stops with E_FETCH. -/
def execFetchOutsideLocalMemory (st : Nat) (s : State) : Out1 :=
  if 1024 ≤ st then .fault .noSuchUnit
  else match s.owner (st / 32) with
    | some p =>
      let x := s.stall st
      if s.partRuns p ∧ x.mode = .running ∧ 2 ^ 18 ≤ x.pc.toNat then .next (s.stallFault p st 0x0402 x.pc.toNat 0)
      else .next s
    | none => .next s

end Sys2Proof.Machine
end

