-- ==== Sys2Proof/Machine/Packets.lean ====
section
/-!
DEFINITION. Packet headers, routes, transaction tags and the sending of packets (R263-R276).
-/

namespace Sys2Proof.Machine

/-! ### Header fields (R266) -/

def Packet.h (k : Packet) : Nat := k.hdr.toNat
def hKind (h : Nat) : Nat := bits h 0 4
def hSub (h : Nat) : Nat := bits h 4 4
def hVl (h : Nat) : Nat := bits h 8 4
def hFol (h : Nat) : Bool := bit h 12
def hRun (h : Nat) : Bool := bit h 13
def hErr (h : Nat) : Bool := bit h 14
def hLast (h : Nat) : Bool := bit h 15
def hLen (h : Nat) : Nat := bits h 16 13
def hNf (h : Nat) : Bool := bit h 29
def hDstDev (h : Nat) : Nat := bits h 32 17
def hDstPart (h : Nat) : Nat := bits h 49 5
def hDepth (h : Nat) : Nat := bits h 54 4
def hSrcDev (h : Nat) : Nat := bits h 64 17
def hSrcPart (h : Nat) : Nat := bits h 81 5
def hTag (h : Nat) : Nat := bits h 96 16
def hCode (h : Nat) : Nat := bits h 112 16
def hAddr (h : Nat) : Nat := bits h 128 64
def hAux (h : Nat) : Nat := bits h 192 64
def hReserved (h : Nat) : Bool := decide (bits h 30 2 ≠ 0 ∨ bits h 58 6 ≠ 0 ∨ bits h 86 10 ≠ 0)

/-- KIND values (R267). -/
def pkWrite : Nat := 0
def pkRead : Nat := 1
def pkReadResp : Nat := 2
def pkRowAtomic : Nat := 3
def pkMessage : Nat := 4
def pkFlagSet : Nat := 5
def pkCollective : Nat := 6
def pkMgmt : Nat := 7

/-- What a header is made from; the G8 adds the source (R266). -/
structure HSpec where
  kind  : Nat
  sub   : Nat := 0
  vl    : Nat := 0
  fol   : Bool := false
  run   : Bool := false
  err   : Bool := false
  last  : Bool := false
  nf    : Bool := false
  dev   : Nat
  part  : Nat
  depth : Nat := 0
  src   : Nat
  tag   : Nat := 0
  code  : Nat := 0
  addr  : Nat := 0
  aux   : Nat := 0

/-- A packet with its header, LEN counting the payload (R266). -/
def mkPacket (me : Nat) (x : HSpec) (pay : List Byte) (tr : Option (BitVec 256)) : Packet :=
  { hdr := BitVec.ofNat 256 (x.kind % 16 + (x.sub % 16) * 2 ^ 4 + (x.vl % 16) * 2 ^ 8 + b2n x.fol * 2 ^ 12 +
      b2n x.run * 2 ^ 13 + b2n x.err * 2 ^ 14 + b2n x.last * 2 ^ 15 + (pay.length % 2 ^ 13) * 2 ^ 16 +
      b2n x.nf * 2 ^ 29 + (x.dev % 2 ^ 17) * 2 ^ 32 + (x.part % 32) * 2 ^ 49 + (x.depth % 16) * 2 ^ 54 +
      (me % 2 ^ 17) * 2 ^ 64 + (x.src % 32) * 2 ^ 81 + (x.tag % 2 ^ 16) * 2 ^ 96 + (x.code % 2 ^ 16) * 2 ^ 112 +
      (x.addr % 2 ^ 64) * 2 ^ 128 + (x.aux % 2 ^ 64) * 2 ^ 192),
    pay := pay, trailer := tr }

/-- Bytes of a packet on the stream: header, payload rounded up to 8, trailer (R260). -/
def Packet.size (k : Packet) : Nat := 32 + roundUp k.pay.length 8 + (if k.trailer.isSome then 32 else 0)

/-! ### Lanes and credits (R260, R263, R264) -/

/-- The receive buffer a packet uses: its lane, or 16 for VL0 responses. -/
def laneOf (h : Nat) : Nat := if hVl h = 0 ∧ hKind h = pkMessage ∧ (hSub h = 3 ∨ hSub h = 5) then 16 else hVl h

/-- A buffer's size in credits of 64 bytes. -/
def laneSize (l : Nat) : Nat := if l = 0 then 1024 else if l = 1 ∨ l = 16 then 256 else 3072

/-- Credits a packet costs. -/
def Packet.cost (k : Packet) : Nat := ceilDiv k.size 64

def Port.credit (x : Port) (l : Nat) : Nat := FMap.get (fun _ => 0) x.credits l
def Port.setCredit (x : Port) (l n : Nat) : Port := { x with credits := FMap.set (fun _ => 0) x.credits l n }
/-- Credits to return for buffer `l`. -/
def Port.owed (x : Port) (l : Nat) : Nat := FMap.get (fun _ => 0) x.ret l
def Port.setOwed (x : Port) (l n : Nat) : Port := { x with ret := FMap.set (fun _ => 0) x.ret l n }

/-- Space of a packet is freed: its credits are to be returned. -/
def Port.free (x : Port) (k : Packet) : Port := x.setOwed (laneOf k.h) (x.owed (laneOf k.h) + k.cost)

/-! ### Routes (R273-R276) -/

/-- This module's device identifier. -/
def State.device (s : State) : Nat := bits (s.obj kDeviceId) 0 17

/-- Direction of the first hop in one dimension: the shorter way round, + on a tie (R274); `d` is the direction code
of +. -/
def ringDir (size here there d : Nat) : Nat :=
  let up := (there + size - here) % size
  if 2 * up ≤ size then d else d + 1

/-- The ports of a direction, ascending (R274, R294). -/
def State.dirPorts (s : State) (d : Nat) : List Nat :=
  (List.range 12).filter (fun k => decide (bits (s.obj kPortDir) (4 * k) 4 = d))

/-- The torus dimensions (R294). -/
def State.dims (s : State) : Nat × Nat × Nat :=
  let t := s.obj kTopology
  (bits t 1 6 + 1, bits t 7 6 + 1, bits t 13 5 + 1)

/-- Byte of ROUTE_TABLE for a destination (R276, R294). -/
def State.routeByte (s : State) (dst : Nat) : Nat := (FMap.get (fun _ => 0xFF) s.routes dst).toNat

/-- The twin ports a packet to `dst` may take, lower number first; empty when the destination is outside the topology. -/
def State.twins (s : State) (dst : Nat) : List Nat :=
  let here := s.device
  if bit (s.obj kTopology) 0 then
    let b := s.routeByte dst
    let a := b % 16
    let t := b / 16
    if 12 ≤ a then [] else if 12 ≤ t then [a] else if a ≤ t then [a, t] else [t, a]
  else
    let (dx, dy, dz) := s.dims
    let x := bits dst 0 6
    let y := bits dst 6 6
    let z := bits dst 12 5
    if dx ≤ x ∨ dy ≤ y ∨ dz ≤ z then []
    else if x ≠ bits here 0 6 then s.dirPorts (ringDir dx (bits here 0 6) x 0)
    else if y ≠ bits here 6 6 then s.dirPorts (ringDir dy (bits here 6 6) y 2)
    else if z ≠ bits here 12 5 then s.dirPorts (ringDir dz (bits here 12 5) z 4)
    else []

/-- The flow of a packet (R265). -/
def hFlow (h : Nat) : Flow := (hSrcDev h, hDstDev h, hVl h)

/-- Whether a port holds flits of a flow that are not acknowledged (R275). -/
def Port.holds (x : Port) (f : Flow) : Bool :=
  x.replay.any (fun r => r.flows.contains f) || x.tx.any (fun t => decide (t.1 = f))

/-- The port of a flow (R274-R276): the twin of its parity, or the other one while the port's flows have moved there;
the flow stays where it has packets until they are acknowledged. -/
def State.routePort (s : State) (f : Flow) : Option Nat :=
  match s.twins f.2.1 with
  | [] => none
  | [a] => some a
  | a :: b :: _ =>
    let own := if (f.1 + f.2.1 + f.2.2) % 2 = 0 then a else b
    let other := if own = a then b else a
    let want := if (s.port own).moved then other else own
    let left := if want = own then other else own
    let x := s.port left
    some (if x.holds f || x.txq.any (fun q => decide (hFlow q.pkt.h = f)) then left else want)

/-- The port index that stands for packets a module sends to itself. -/
def loopPort : Nat := 12

/-- Whether a destination can be reached (R270, E_ROUTE). -/
def State.routable (s : State) (dst : Nat) : Bool := decide (dst = s.device) || !(s.twins dst).isEmpty

/-! ### Admission (R263, R266, R270, R277) -/

/-- Whether KIND and SUB are reserved (R267). -/
def hKindReserved (h : Nat) : Bool :=
  match hKind h with
  | 0 => decide (hSub h ≠ 0)
  | 1 => decide (2 ≤ hSub h)
  | 2 => decide (2 ≤ hSub h)
  | 3 => decide (hSub h ≠ 0)
  | 4 => decide (6 ≤ hSub h)
  | 5 => decide (5 ≤ hSub h)
  | 6 => decide (4 ≤ hSub h)
  | 7 => decide (2 ≤ hSub h)
  | _ => true

/-- Whether a packet travels on a lane of its kind (R263). -/
def hLaneOk (h : Nat) : Bool :=
  let data := decide (2 ≤ hVl h)
  let odd := decide (hVl h % 2 = 1)
  match hKind h with
  | 2 => data && odd
  | 4 => if hSub h = 4 then data && odd else if hSub h = 5 then decide (hVl h = 0) || (data && odd) else decide (hVl h = 0)
  | 5 => decide (hVl h = 0)
  | 7 => decide (hVl h = 1)
  | _ => data && !odd

/-- Whether a header breaks E_FIELD (R270). -/
def hBadField (h : Nat) : Bool :=
  hReserved h || hKindReserved h || decide (4096 < hLen h) || !(hLaneOk h) ||
  (hFol h && (decide (hKind h ≠ pkWrite) || !(hLast h)))

/-- Whether a packet is a response, which its tag admits (R271, R277). -/
def hIsResponse (h : Nat) : Bool :=
  decide (hKind h = pkReadResp ∨ (hKind h = pkMessage ∧ 3 ≤ hSub h ∧ hSub h ≤ 5) ∨ (hKind h = pkMgmt ∧ hSub h = 1))

/-- Whether one of partition `p`'s peer entries admits a packet (R277); a partition's own packets are not remote (log 22). -/
def State.peerOk (s : State) (p dev part kind : Nat) : Bool :=
  (List.range 16).any (fun i =>
    let e := s.obj (kPeer p i)
    bit e 0 && decide (bits e 1 17 ≤ dev ∧ dev ≤ bits e 18 17) && bit e (35 + part) && decide (kind ≤ 6) &&
      bit e (67 + kind))

/-- The code a packet is refused with before its own checks; 0 for none.  A response needs no peer entry; a MGMT request
needs LLYN_MGMT instead (R267; the code is log 48). -/
def State.admission (s : State) (h : Nat) : Nat :=
  if hBadField h then 0x0901
  else if hIsResponse h then 0
  else if hKind h = pkMgmt then (if bit (s.obj kLlynMgmt) 0 then 0 else 0x0902)
  else if (hSrcDev h = s.device ∧ hSrcPart h = hDstPart h) ∨ s.peerOk (hDstPart h) (hSrcDev h) (hSrcPart h) (hKind h) then 0
  else 0x0902

/-- A packet has arrived at port `k` for this module: it is admitted or not by the peer entries of now (R277), and waits to
be applied. -/
def State.land (s : State) (k : Nat) (p : Packet) : State :=
  (s.modPort k (fun x =>
    { x with ing := x.ing ++ [{ pkt := p, stamp := s.ctr, code := s.admission p.h, busy := false }] })).tick1

/-- Queue a packet on its flow's port; a packet to this module arrives at once; one without a route is lost, which only
answers to a device outside the topology can be.  A packet that came in by a port keeps its space there until it is sent
on. -/
def State.emitFrom (s : State) (k : Packet) (came : Option Nat) : State :=
  let h := k.h
  if hDstDev h = s.device then s.land loopPort k
  else match s.routePort (hFlow h) with
    | some n => s.modPort n (fun x => { x with txq := x.txq ++ [{ pkt := k, came := came }] })
    | none => match came with
      | some c => s.modPort c (fun x => x.free k)
      | none => s

/-- Queue a packet of this module. -/
def State.emit (s : State) (k : Packet) : State := s.emitFrom k none

/-- Make a packet and send it. -/
def State.send (s : State) (x : HSpec) (pay : List Byte) (tr : Option (BitVec 256) := none) : State :=
  s.emit (mkPacket s.device x pay tr)

/-- The lane of the response to a data request (R263). -/
def respVl (h : Nat) : Nat := max 3 (hVl h / 2 * 2 + 1)

/-- A NACK of a packet (R270): without a tag where the packet takes none, or is itself a response; AUX is echoed
(log 48). -/
def State.nack (s : State) (h code : Nat) : State :=
  let msg := decide (hKind h = pkMessage ∨ hKind h = pkFlagSet ∨ hKind h = pkMgmt)
  let tagged := !(hIsResponse h) && (!msg || (decide (hKind h = pkFlagSet) && decide (2 ≤ hSub h)))
  s.send { kind := pkMessage, sub := 5, vl := if msg then 0 else respVl h, err := true, dev := hSrcDev h,
           part := hSrcPart h, src := hDstPart h, tag := if tagged then hTag h else 0, code := code, addr := hAddr h,
           aux := if msg then hAux h else 0 } []

/-- AUX of a MESSAGE EVPUSH whose event is that of watch event `id`, and of a barrier's report (log 48). -/
def auxWatch (id : Nat) : Nat := 2 * id + 1
def auxReport : Nat := 2

/-- The packet with stamp `st` leaves port `k`, whose space is freed (R260). -/
def State.unload (s : State) (k st : Nat) (p : Packet) : State :=
  s.modPort k (fun x =>
    let y := { x with ing := x.ing.filter (fun e => decide (e.stamp ≠ st)) }
    if k = loopPort then y else y.free p)

/-- The push of a packet has been accepted: the module whose watch fired is told so (R139). -/
def State.accepted (s : State) (h : Nat) : State :=
  if hKind h = pkMessage ∧ hSub h = 0 ∧ bit (hAux h) 0 then
    s.send { kind := pkMessage, sub := 3, dev := hSrcDev h, part := hSrcPart h, src := hDstPart h, addr := hAddr h,
             aux := hAux h } []
  else s

/-- A packet that kept its place at port `k` is done: its pushes are accepted, or it is refused with a code (R149,
R270). -/
def State.doneIngress (s : State) (k st code : Nat) : State :=
  match (s.port k).ing.find? (fun e => decide (e.stamp = st)) with
  | none => s
  | some e =>
    let s := s.unload k st e.pkt
    if code = 0 then s.accepted e.pkt.h else s.nack e.pkt.h code

/-! ### Transaction tags (R269) -/

/-- A tag that is not held: from 1 upward, 0 last; none when all 65,536 are. -/
def State.freeTag (s : State) : Option Nat :=
  let held := s.fabric.tags.map Tag.tag
  if 65536 ≤ held.length then none
  else match ((List.range (held.length + 1)).map (· + 1)).find? (fun n => !(held.contains n)) with
    | some n => some (if n < 65536 then n else 0)
    | none => some 0

/-- Hold tag `n`. -/
def State.holdTag (s : State) (n part : Nat) (use : TagUse) : State :=
  { s with fabric := { s.fabric with
      tags := s.fabric.tags ++ [{ tag := n, part := part, use := use, since := s.clock, got := [] }] } }

/-- The tag a response names. -/
def State.tag? (s : State) (n : Nat) : Option Tag := s.fabric.tags.find? (fun t => decide (t.tag = n))

/-- Free tag `n`. -/
def State.dropTag (s : State) (n : Nat) : State :=
  { s with fabric := { s.fabric with tags := s.fabric.tags.filter (fun t => decide (t.tag ≠ n)) } }

/-- The request lane of partition p (R278). -/
def State.dataVl (s : State) (p : Nat) : Nat := s.obj (kDataVl p)

end Sys2Proof.Machine
end

