-- ==== Sys2Proof/Machine/Mesh.lean ====
section
/-!
DEFINITION. Operations on the control mesh: results that return, watches that fire and report, and operations sent to
other modules (R26-R30, R135-R144, R267, R282).
-/

namespace Sys2Proof.Machine

/-! ### Results -/

/-- The result `v` of the control operation at place `q` returns to stall `t` (R120, R137). -/
def State.replyStall (s : State) (t q : Nat) (v : BitVec 64) : State :=
  s.modStall t fun x =>
    match x.waits.find? (fun w => decide (w.seq = q)) with
    | none => x
    | some w =>
      let y := { x with waits := x.waits.filter (fun u => decide (u.seq ≠ q)) }
      (match w.dst with
       | some r => y.putG r v
       | none => y).keep q w.dst w.was (v.setWidth 1024)

/-- All held watch slots, with their sheds. -/
def State.allWatches (s : State) : List (Nat × Watch) := s.sheds.flatMap (fun e => e.2.watches.map (fun w => (e.1, w)))

/-- The sub-watch a watch reports to. -/
def WatchKind.up : WatchKind → Option UpRef
  | .group _ _ u => some u
  | .pen _ _ u => some u
  | _ => none

/-- The identities of the sub-watches beneath `ids`, on this module. -/
def State.subtree (s : State) : Nat → List Nat → List Nat
  | 0, ids => ids
  | n + 1, ids =>
    s.subtree n (ids ++ s.allWatches.filterMap (fun e =>
      match e.2.kind.up with
      | some u => if u.dev = none ∧ u.id ∈ ids ∧ e.2.id ∉ ids then some e.2.id else none
      | none => none))

/-- Free the slots of the watches `ids`. -/
def State.freeWatches (s : State) (ids : List Nat) : State :=
  (List.range 32).foldl (fun s k =>
    if (s.shed k).watches.any (fun w => ids.contains w.id) then
      s.modShed k (fun x => { x with watches := x.watches.filter (fun w => !(ids.contains w.id)) })
    else s) s

/-- Free one slot. -/
def State.freeSlot (s : State) (k id : Nat) : State :=
  s.modShed k (fun x => { x with watches := x.watches.filter (fun w => decide (w.id ≠ id)) })

/-- The operation code of FLAG_SET (R267). -/
def flagSub : MOp → Nat
  | .set => 0
  | .clear => 1
  | .test => 2
  | .watch => 3
  | _ => 4

/-- The kinds of the leaves of a pen that this module knows: through member pens of its own, and of plain members wherever
they are (R27, R28). -/
def State.leafKinds (s : State) : Nat → Nat → List Nat
  | 0, _ => []
  | n + 1, i =>
    ((s.penMembers i).map BitVec.toNat).flatMap (fun a =>
      if uaKind a = 7 then (if uaLocal a then s.leafKinds n (uaIndex a) else []) else [uaKind a])

/-- An address that names this module by its device, for use on another module. -/
def State.abroad (s : State) (a : Nat) : Nat :=
  if uaLocal a then s.device * 2 ^ 47 + bits a 0 46 else a

/-- Members of a pen on other modules. -/
def State.remoteMembers (s : State) (i : Nat) : List Nat :=
  ((s.penMembers i).map BitVec.toNat).filter (fun a => !(uaLocal a))

/-- An operation of the sync units themselves. -/
def ownOp (op : MOp) (target a2 : Nat) (part : Nat) : Mesh :=
  { op := op, target := BitVec.ofNat 64 target, a2 := BitVec.ofNat 64 a2, data := 0, n := 0, stall := noStall, pc := 0,
    part := part, dev := none, depth := 0, reply := .none }

/-- Return `v` to whoever waits for it; a pen operation is complete when its last leaf is (R30, R142).  A WATCH on a pen of
which a sub-watch was not armed is undone before it returns (R144). -/
def State.replyN : Nat → State → Reply → BitVec 64 → State
  | 0, s, _, _ => s
  | n + 1, s, r, v =>
    match r with
    | .none => s
    | .stall t q => s.replyStall t q v
    | .slot k id => s.freeSlot k id
    | .ingress k st => s.doneIngress k st 0
    | .remote d p tag home a =>
      s.send { kind := pkMessage, sub := 3, dev := d, part := p, src := home, tag := tag, addr := a.toNat, aux := v.toNat } []
    | .agg id =>
      match s.penOps.find? (fun o => decide (o.id = id)) with
      | none => s
      | some o =>
        let acc := o.acc && decide (v ≠ 0)
        if 1 < o.left then
          { s with penOps := s.penOps.map (fun u => if u.id = id then { u with left := u.left - 1, acc := acc } else u) }
        else
          let s := { s with penOps := s.penOps.filter (fun u => decide (u.id ≠ id)) }
          match o.gives with
          | some w => s.replyN n o.reply (BitVec.ofNat 64 w)
          | none =>
            if o.isWatch then
              (if acc then s.replyN n o.reply (BitVec.ofNat 64 o.wid)
               else { s with mesh := s.mesh ++ [{ ownOp .undo o.target.toNat id o.part with
                                                 stall := o.stall, n := b2n o.full, reply := o.reply }] })
            else s.replyN n o.reply (if acc then 1 else 0)

/-- Return a result (R30, R137). -/
def State.reply (s : State) (r : Reply) (v : BitVec 64) : State := s.replyN 20 r v

/-! ### Refusals -/

/-- The code of a NACK for an operation that fails with a code of R160: those of pens travel as they are, so that the
issuer's module can report them (R29, R160); a target or queue that cannot take it is E_UNIT, the rest E_FIELD (logs 19,
48). -/
def nackCode (code : Nat) : Nat :=
  if code = 0x0504 ∨ code = 0x0505 then code else if code = 0x0506 ∨ code = 0x0502 then 0x0905 else 0x0901

/-- An error event for a fabric code at the issuer (R271): a pen's own code, or E_UNIT with the fabric code. -/
def State.fabricError (s : State) (part stall a fcode : Nat) : State :=
  if fcode = 0x0504 ∨ fcode = 0x0505 then s.reportError part fcode stall (uaKind a) (uaIndex a) a 0 0
  else s.reportError part 0x0506 stall (uaKind a) (uaIndex a) a 0 fcode

/-- An operation fails: an error event at its issuer on this module, or a NACK to its issuer on another (R26, R29, R160,
R270).  Its result is 0 (R131). -/
def State.rejectOp (s : State) (m : Mesh) (code fcode : Nat) : State :=
  match m.dev with
  | none => (s.reportError m.part code m.stall (uaKind m.target.toNat) (uaIndex m.target.toNat) m.target.toNat 0 fcode).reply
      m.reply 0
  | some d =>
    let c := if fcode = 0 then nackCode code else fcode
    let no : Nat → State := fun tag =>
      s.send { kind := pkMessage, sub := 5, err := true, dev := d, part := m.part, src := uaPart m.target.toNat, tag := tag,
               code := c, addr := m.target.toNat } []
    match m.reply with
    | .remote _ _ tag _ _ => no tag
    | .ingress k st => s.doneIngress k st c
    | r => (no 0).reply r 0

/-! ### Operations to other modules -/

/-- Send operation `m` to address `a` on another module, at pen depth `depth` (R137, R267, R269, R282); none while no tag
is free.  Operations without a tag are complete for their issuer once sent, but for a watch's event, which is complete once
its target has accepted it (R139). -/
def State.sendOp (s : State) (m : Mesh) (a depth : Nat) (r : Reply) : Option State :=
  let part := m.part % 32
  if s.routable (uaDevice a) = false then some ((s.rejectOp { m with reply := .none } 0x0506 0x0906).reply r 0)
  else
    let ev := toBytes 32 (m.data.toNat % 2 ^ 256)
    let post : State → Nat → List Byte → Nat → State := fun s sub pay aux =>
      s.send { kind := pkMessage, sub := sub, dev := uaDevice a, part := uaPart a, depth := depth, src := part,
               addr := a, aux := aux } pay
    let tagged : Nat → List Byte → Nat → Option State := fun sub pay aux =>
      match s.freeTag with
      | none => none
      | some n => some ((s.holdTag n part (.flag r (if m.op = .watch then some a else none))).send
          { kind := pkFlagSet, sub := sub, dev := uaDevice a, part := uaPart a, depth := depth, src := part, tag := n,
            addr := a, aux := aux } pay)
    match m.op with
    | .set | .clear =>
      some ((s.send { kind := pkFlagSet, sub := flagSub m.op, dev := uaDevice a, part := uaPart a, depth := depth,
                      src := part, addr := a } []).reply r 1)
    | .test => tagged 2 [] 0
    | .watch => tagged 3 (ev ++ toBytes 8 (s.abroad m.a2.toNat)) (m.n % 2)
    | .cancel => tagged 4 [] m.a2.toNat
    | .evpush =>
      if m.n = kindWatch then
        let u := { s.tick1 with fabric := { s.fabric with fired := s.fabric.fired ++ [(s.ctr, uaDevice a, r)] } }
        some (post u 0 ev (auxWatch s.ctr))
      else some ((post s 0 ev 0).reply r 1)
    | .hpush => some ((post s 1 [] m.a2.toNat).reply r 1)
    | .send => some ((post s 2 ev 0).reply r 1)
    | _ => some (s.rejectOp m 0x0506 0)

/-! ### Watches -/

/-- The partition key of an arming partition (R140). -/
def partKey (dev : Option Nat) (p : Nat) : Nat :=
  match dev with
  | some d => 32 * (d + 1) + p
  | none => p

/-- The address of the pen a sub-watch reports to. -/
def UpRef.addr (u : UpRef) : Nat :=
  (match u.dev with | some d => d * 2 ^ 47 | none => 2 ^ 46) + u.part * 2 ^ 41 + 7 * 2 ^ 37 + u.index

/-- A sub-watch of shed `k` reports to the pen above it (R143, R282). -/
def State.report (s : State) (k : Nat) (u : UpRef) : State :=
  match u.dev with
  | none => { s with mesh := s.mesh ++ [ownOp .report u.addr u.id u.part] }
  | some d =>
    s.send { kind := pkMessage, sub := 0, dev := d, part := u.part, src := (s.owner k).getD 0, addr := u.addr,
             aux := auxReport } (toBytes 32 (u.id * 2 ^ 64))

/-- The module of the partition that armed a watch, when that is another one. -/
def Watch.dev (w : Watch) : Option Nat := if w.part < 32 then none else some (w.part / 32 - 1)

/-- The push of a fired watch's event (R139, R147). -/
def Watch.push (w : Watch) (k : Nat) : Mesh :=
  { op := .evpush, target := w.queue, a2 := 0, data := w.event.setWidth 1024, n := kindWatch, stall := w.stall, pc := 0,
    part := w.part % 32, dev := w.dev, depth := 0, reply := .slot k w.id }

/-- Watch `w` of shed `k` fires: its event goes to its queue or pen, and its slot stays held until the target has accepted
it (R139).  A watch of another module names its queue from there. -/
def State.fire (s : State) (k : Nat) (w : Watch) : State :=
  let s := s.modShed k (fun x =>
    { x with watches := x.watches.map (fun u => if u.id = w.id then { u with fired := true } else u) })
  let m := w.push k
  match s.resolve m.part w.queue.toNat [3] with
  | .plain _ i =>
    { s with pushes := s.pushes ++ [{ queue := i, kind := 1, ev := w.event, stall := w.stall, part := m.part,
                                      reply := .slot k w.id }] }
  | .pen _ => { s with mesh := s.mesh ++ [m] }
  | .remote _ _ => (s.sendOp { m with part := (s.owner k).getD 0, dev := none } w.queue.toNat 0 (.slot k w.id)).getD s
  | .reject => s.rejectOp m 0x0506 0

/-- A group sub-watch of shed `k` now waits for the flags `wait` and for `more` leaves that are still to be named: it
reports when nothing is left (R143). -/
def State.setGroup (s : State) (k id : Nat) (wait : List Nat) (more : Nat) (u : UpRef) : State :=
  if wait = [] ∧ more = 0 then (s.freeSlot k id).report k u
  else s.modShed k (fun x =>
    { x with watches := x.watches.map (fun y => if y.id = id then { y with kind := .group wait more u } else y) })

/-- What an operation that leaves flag `f` of shed `k` at `v` does to one watch (R138, R143). -/
def State.evalWatch (s : State) (k f : Nat) (v : Bool) (w : Watch) : State :=
  if w.fired ∨ w.value ≠ v then s
  else match w.kind with
    | .plain g => if g = f then s.fire k w else s
    | .group wait more u => if f ∈ wait then s.setGroup k w.id (wait.filter (· ≠ f)) more u else s
    | _ => s

/-- Evaluate the watches of shed `k` after an operation that left flag `f` at `v`, in the order they were armed
(R138, R139). -/
def State.evalWatches (s : State) (k f : Nat) (v : Bool) : State :=
  ((s.shed k).watches).foldl (fun s w => s.evalWatch k f v w) s

/-- A flag (R134). -/
def Shed.flag (x : Shed) (f : Nat) : Bool := FMap.get (fun _ => false) x.flags f
def Shed.setFlag (x : Shed) (f : Nat) (v : Bool) : Shed := { x with flags := FMap.set (fun _ => false) x.flags f v }
def State.flag (s : State) (i : Nat) : Bool := (s.shed (i / 4096)).flag (i % 4096)

/-- SET or CLEAR at the flag's home, and the watches it fires (R135, R138). -/
def State.writeFlag (s : State) (i : Nat) (v : Bool) : State :=
  (s.modShed (i / 4096) (fun x => x.setFlag (i % 4096) v)).evalWatches (i / 4096) (i % 4096) v

/-- Arm a watch in a free slot (R138, R141, R143): its identity, or none when all 2,048 slots of the shed are held. -/
def State.arm (s : State) (k : Nat) (w : Watch) : Option State :=
  if 2048 ≤ (s.shed k).watches.length then none
  else some ((s.modShed k (fun x => { x with watches := x.watches ++ [{ w with id := s.ctr }] })).tick1)

/-- A fresh watch identifier: a free number, never 0 and not given before (R140, R388; log 3). -/
def State.newWid (s : State) : Nat :=
  let c := Config.freeNat s.free % 2 ^ 64
  if c ≠ 0 ∧ c ∉ s.wids then c
  else (((List.range (s.wids.length + 1)).map (· + 1)).find? (fun n => !(s.wids.contains n))).getD 1

/-- Give out an identifier. -/
def State.giveWid (s : State) (w : Nat) : State := { s.draw with wids := w :: s.wids }

/-! ### Disarming (R142-R144) -/

/-- The members on other modules of the pens of sub-watches `ids`: address, sub-watch, the pen's partition. -/
def State.farMembers (s : State) (ids : List Nat) : List (Nat × Nat × Nat) :=
  s.allWatches.flatMap (fun e =>
    let far : Nat → List (Nat × Nat × Nat) := fun i =>
      (s.remoteMembers i).map (fun a => (a, e.2.id, (s.owner (i / 512)).getD 0))
    if ids.contains e.2.id then
      (match e.2.kind with
       | .pen i _ _ => far i
       | .top i _ => far i
       | _ => [])
    else [])

/-- Disarm watch `id` with the sub-watches beneath it; those on other modules are cancelled there, and `v` is returned once
all are (R142, R144).  None while no tag is free. -/
def State.disarm (s : State) (id v : Nat) (r : Reply) : Option State :=
  let ids := s.subtree 9 [id]
  let far := s.farMembers ids
  let t := s.freeWatches ids
  if far = [] then some (t.reply r (BitVec.ofNat 64 v))
  else
    let o : PenOp := { id := t.ctr, left := far.length, acc := true, wid := 0, isWatch := false, reply := r, gives := some v }
    far.foldlM (fun s a => s.sendOp (ownOp .cancel a.1 a.2.1 a.2.2) a.1 1 (.agg o.id))
      { t.tick1 with penOps := t.penOps ++ [o] }

end Sys2Proof.Machine
end

