-- ==== Sys2Proof/Machine/Channel.lean ====
section
/-!
DEFINITION. What lies between a unit and the bytes of HBM: where a sector lies, error correction and poison, the order in
which a channel performs its accesses, the row cache, and the reads and writes of memory that pass through them (R194,
R195, R220-R222, R234, R245-R252).
-/

namespace Sys2Proof.Machine

/-! ### Where a sector lies (R234) -/

/-- Yard address of an HBM key. -/
def yardAddr (k : Nat) : Nat := (k - 2 ^ 48) % 2 ^ 38
/-- Yard of an HBM key. -/
def yardOf (k : Nat) : Nat := (k - 2 ^ 48) / 2 ^ 38
/-- Channel, block within the channel and sector of an HBM key. -/
def chanOf (k : Nat) : Nat := yardAddr k / 512 % 32
def blockOf (k : Nat) : Nat := yardAddr k / 512 / 96
def sectorOf (k : Nat) : Nat := yardAddr k / 32 % 16
/-- The key of a sector of stack `k`. -/
def sectorKey (k ch block sec : Nat) : Nat := hbmKey (k / 3) ((block * 96 + k % 3 * 32 + ch) * 512 + sec * 32)

/-- The sectors of HBM that keys lie in. -/
def hbmSectors (ks : List Nat) : List Nat := dedup ((ks.filter isHbm).map (fun k => k / 32))

/-- Those of which the keys cover only a part: to write them they are read first (R246). -/
def partSectors (ks : List Nat) : List Nat :=
  (hbmSectors ks).filter (fun c => decide ((ks.filter (fun k => decide (k / 32 = c))).length < 32))

/-! ### Error correction (R245, R246, R252) -/

/-- A counter of stack `k`. -/
def State.bumpStack (s : State) (k sub : Nat) : State := s.bumpObj (kStack k sub) 1

/-- Count a read that met a poisoned sector (R246). -/
def State.countPoison (s : State) (k : Nat) : State := s.bumpStack (engineOf k / 32) 4

/-- One more corrected sector; each multiple of CE_THRESH is logged (R252, R390). -/
def State.countCe (s : State) (k : Nat) : State :=
  let old := s.obj (kStack k 2)
  let s := s.bumpStack k 2
  let n := s.obj (kStack k 2)
  let th := s.obj (kStack k 5)
  if th ≠ 0 ∧ n ≠ old ∧ n % th = 0 then s.logModule 0x0D03 1 none 0x12 k n else s

/-- The LAST_UE word of a sector (R252). -/
def lastUeWord (key time : Nat) : BitVec 128 :=
  BitVec.ofNat 128 (chanOf key + blockOf key * 2 ^ 5 + sectorOf key * 2 ^ 27 + 2 ^ 31 + (time % 2 ^ 64) * 2 ^ 64)

/-- A sector newly found uncorrectable is poisoned: its data as read, counted and logged (R246, R252, R390, R401). -/
def State.poisonNew (s : State) (key : Nat) (data : List Byte) : State :=
  let k := engineOf key / 32
  let s := (s.putBytes key data).setCheck (key / 32) poisonMark
  let s := (s.bumpStack k 3).modHbm k (fun x => { x with lastUe := lastUeWord key s.time })
  let s := s.logModule 0x0D0C 2 none 0x12 k (yardAddr key)
  match (s.frame (yardOf key) (yardAddr key / 2 ^ 28)).taken with
  | some p => s.logPart p 0x0D0C 2 0x12 k (yardAddr key)
  | none => s

/-- The symbols in error of a sector as it is read: those that stand in its cells, and those that `errs` adds on the way,
by position, byte 0 to 31 of the data and 32 to 35 of the check symbols (R245). -/
def State.syndrome (s : State) (sec : Nat) (errs : List (Nat × Byte)) : List Byte :=
  errs.foldl (fun l e => modifyAt l e.1 (fun b => b ^^^ e.2)) (toBytes 36 (s.check sec).toNat)

/-- The controller reads and decodes the sector at `key` (R245, R246): the state after it, and whether the reader meets
poison.  One symbol is corrected and written back, two poison the sector, and of three or more no outcome is promised:
detected, or other data in its place (log 3). -/
def State.decodeSector (s : State) (key : Nat) (errs : List (Nat × Byte)) : State × Bool :=
  let e := s.syndrome (key / 32) errs
  let n := (e.filter (fun b => decide (b ≠ 0))).length
  let k := engineOf key / 32
  let asRead := List.zipWith (· ^^^ ·) (s.getBytes key 32) e
  if e = toBytes 36 poisonMark.toNat then (s.countPoison key, true)
  else if n = 0 then (s, false)
  else if n = 1 then ((s.setCheck (key / 32) 0).countCe k, false)
  else if n = 2 ∨ Config.freeBool s.free then (s.draw.poisonNew key asRead, true)
  else (((s.draw.putBytes key (toBytes 32 (Config.freeNat s.free))).setCheck (key / 32) 0).countCe k, false)

/-- The controllers read a list of sectors: whether one of them is poisoned, or now found uncorrectable. -/
def State.sense (s : State) (secs : List Nat) : State × Bool :=
  secs.foldl (fun (acc : State × Bool) c => let d := acc.1.decodeSector (32 * c) []; (d.1, acc.2 || d.2)) (s, false)

/-! ### Writes of keyed bytes (R246) -/

/-- Keyed bytes are stored; a whole sector gets fresh check symbols (R246). -/
def State.putKeyed (s : State) (kvs : List (Nat × Byte)) : State :=
  kvs.foldl (fun s kv => s.setByte kv.1 kv.2) (if 32 ≤ kvs.length then s.setCheck ((kvs.headD (0, 0)).1 / 32) 0 else s)

/-- A write of one sector's worth of bytes at their keys: a whole sector gets fresh check symbols, a part is written after
the sector was read, and not at all when that meets poison.  `true`: poison was met. -/
def State.writeKeys (s : State) (kvs : List (Nat × Byte)) : State × Bool :=
  match kvs with
  | [] => (s, false)
  | (k0, _) :: _ =>
    let d := if kvs.length < 32 ∧ isHbm k0 then s.decodeSector (k0 / 32 * 32) [] else (s, false)
    if d.2 then d else (d.1.putKeyed kvs, false)

/-- Group a rising run of keyed bytes by sector. -/
def bySector : List (Nat × Byte) → List (List (Nat × Byte))
  | [] => []
  | kv :: rest => match bySector rest with
    | [] => [[kv]]
    | [] :: gs => [kv] :: gs
    | (g0 :: g) :: gs => if kv.1 / 32 = g0.1 / 32 then (kv :: g0 :: g) :: gs else [kv] :: (g0 :: g) :: gs

/-- A write of bytes at their keys; `true`: a poisoned sector was met and left (R246). -/
def State.writeAll (s : State) (kvs : List (Nat × Byte)) : State × Bool :=
  (bySector kvs).foldl (fun (acc : State × Bool) g => let (s', b) := acc.1.writeKeys g; (s', acc.2 || b)) (s, false)

/-! ### The row cache (R220-R222) -/

/-- Whether a line may be evicted for partition `p`: any, unless `p` holds its limit of ways of the set. -/
def Engine.mayReplace (x : Engine) (set p ways : Nat) (l : Line) : Bool :=
  let own := (x.cache.filter (fun m => decide (m.set = set ∧ m.part = p))).length
  decide (l.set = set) && (decide (own < ways) || decide (l.part = p))

/-- The line with the lowest counter, of equal ones the one filled earliest. -/
def victim : List Line → Option Line
  | [] => none
  | l :: ls => match victim ls with
    | none => some l
    | some m => if l.uses < m.uses ∨ (l.uses = m.uses ∧ l.stamp ≤ m.stamp) then some l else some m

/-- Fill a line of the cache with a sector, at use count `uses`. -/
def Engine.fill (x : Engine) (p ways sector uses : Nat) : Engine :=
  let set := Config.cacheSet sector % 256
  let new : Line := { set := set, sector := sector, part := p, uses := uses, stamp := x.fills }
  let here := x.cache.filter (fun l => decide (l.set = set))
  let own := (here.filter (fun l => decide (l.part = p))).length
  if here.length < 16 ∧ own < ways then { x with cache := x.cache ++ [new], fills := x.fills + 1 }
  else match victim (x.cache.filter (x.mayReplace set p ways)) with
    | none => x
    | some v => { x with cache := x.cache.filter (fun l => decide (l ≠ v)) ++ [new], fills := x.fills + 1 }

/-- WAYS_M1 + 1 of partition `p` (R222). -/
def State.cacheWays (s : State) (p : Nat) : Nat := bits (s.obj (kCacheCtrl p)) 4 4 + 1
/-- POLICY of partition `p`. -/
def State.cachePolicy (s : State) (p : Nat) : Nat := bits (s.obj (kCacheCtrl p)) 0 2

/-- Whether a read miss of partition `p` allocates (R220, R222): `rows` for the reads of a GATHER or POOL, `noAlloc` for
those of a descriptor with NOALLOC. -/
def State.mayFill (s : State) (p : Nat) (rows noAlloc : Bool) : Bool :=
  !noAlloc && (decide (s.cachePolicy p = 0) || (decide (s.cachePolicy p = 1) && rows))

/-- An access at the cache of engine `e`: a hit counts, a read miss fills where it may (R220). -/
def State.cacheAccess (s : State) (e p sector : Nat) (fills : Bool) : State :=
  s.modEngine e (fun x =>
    if x.cache.any (fun l => decide (l.sector = sector)) then
      { x with cache := x.cache.map (fun l => if l.sector = sector then { l with uses := min 255 (l.uses + 1) } else l) }
    else if fills then x.fill p (s.cacheWays p) sector 1 else x)

/-! ### The window (R195) -/

/-- Requests in a window: the sectors one access has in one block count as one (R195, R231). -/
def Engine.occupied (x : Engine) : Nat := (dedup (x.window.map (fun r => (r.stall, r.seq, r.sector / 16)))).length

/-- Whether a request to pseudo-channel `pc` waits in engine `e`'s window. -/
def State.pcWaits (s : State) (e pc : Nat) : Bool := (s.engine e).window.any (fun r => decide (r.sector % 2 = pc))

/-! ### Refresh, recalibration and background work (R248-R251) -/

/-- Requests postponed beyond 8 and ahead: 8 stands for none (R248). -/
def Stack.debtOf (x : Stack) (ch pc : Nat) : Nat := FMap.get (fun _ => 8) x.debt (2 * ch + pc)

/-- When channel `ch` fell or falls due for recalibration: a second after the last one, or when the temperature moved
(R249). -/
def Stack.calDueAt (x : Stack) (ch : Nat) : Nat :=
  let a := FMap.get (fun _ => 0) x.calAt ch + 1000000000
  let b := FMap.get (fun _ => 0) x.calDue ch
  if b = 0 then a else min a (b - 1)

/-- Whether a recalibration of engine `e`'s channel is forced now (R249). -/
def State.calForced (s : State) (e : Nat) : Bool := decide ((s.hbm (e / 32)).calDueAt (e % 32) + 100000000 ≤ s.clock)

/-- Whether refreshes of a pseudo-channel of engine `e` are postponed (R248): at least one, or all 8. -/
def State.refreshOwed (s : State) (e pc : Nat) : Bool := decide (8 < (s.hbm (e / 32)).debtOf (e % 32) pc)
def State.refreshForced (s : State) (e pc : Nat) : Bool := decide (16 ≤ (s.hbm (e / 32)).debtOf (e % 32) pc)

/-- Whether engine `e`'s channel is recalibrated in an idle gap now: it is due, its window has been empty for 2 µs, and no
refresh is owed (R249, R251). -/
def State.calIdle (s : State) (e : Nat) : Bool :=
  decide ((s.hbm (e / 32)).calDueAt (e % 32) ≤ s.clock) && (s.engine e).window.isEmpty &&
  decide ((s.engine e).emptyAt + 2000 ≤ s.clock) && !(s.refreshOwed e 0) && !(s.refreshOwed e 1)

/-- Whether stack `k` is the one the scrub has reached: in order of stack (R250). -/
def State.scrubTurn (s : State) (k : Nat) : Bool :=
  (List.range 12).all (fun j => decide ((s.hbm j).phase ≠ .ready) || decide ((s.hbm k).passes < (s.hbm j).passes) ||
    (decide ((s.hbm k).passes = (s.hbm j).passes) && decide (k ≤ j)))

/-- The sector the patrol scrub of stack `k` reads next. -/
def State.scrubKey (s : State) (k : Nat) : Nat :=
  let n := (s.hbm k).scrub
  sectorKey k (n / 16 / 3906250) (n / 16 % 3906250) (n % 16)

/-- Whether the patrol scrub has its next access on a pseudo-channel of engine `e` (R250, R251). -/
def State.scrubWaits (s : State) (e pc : Nat) : Bool :=
  decide ((s.hbm (e / 32)).phase = .ready) && s.scrubTurn (e / 32) &&
  decide (engineOf (s.scrubKey (e / 32)) = e ∧ s.scrubKey (e / 32) / 32 % 2 = pc)

/-- Whether a REPLICATE or MIGRATE is ready to work: the latter after its step boundary, or once no boundary comes because
its partition does not run (R197, R214, R218). -/
def RCur.movesRows (c : RCur) (runs : Bool) : Bool :=
  let op := bits c.desc.bits.toNat 0 8
  !c.ready && c.todo.isEmpty && (decide (op = 9 ∧ c.tags = []) || (decide (op = 10) && (c.bound || !runs)))

/-- Whether row migration, replication or frame clearing waits for slots of engine `e`'s channel (R251; log 50). -/
def State.backWaits (s : State) (e : Nat) : Bool :=
  s.frames.any (fun f => f.2.clearing && decide (f.1 / 1024 = e / 96)) ||
  s.engines.any (fun g => g.2.cur.any (fun c => match c.2 with | some x => x.movesRows (s.partRuns c.1) | none => false))

/-- Access slots since waiting background work had one: of the scrub, and of migration, replication and clearing. -/
def Engine.scrubCount (x : Engine) (pc : Nat) : Nat := FMap.get (fun _ => 0) x.scrubSlots pc
def Engine.backCount (x : Engine) (pc : Nat) : Nat := FMap.get (fun _ => 0) x.backSlots pc

/-- Whether the floor of 1 slot in 64 is due to the patrol scrub, or to level 5 (R251). -/
def State.scrubDue (s : State) (e pc : Nat) : Bool := decide (63 ≤ (s.engine e).scrubCount pc) && s.scrubWaits e pc
def State.backDue (s : State) (e pc : Nat) : Bool := decide (63 ≤ (s.engine e).backCount pc) && s.backWaits e

/-- Whether a slot is free of forced refresh and recalibration (R248, R249, R251). -/
def State.unforced (s : State) (e pc : Nat) : Bool := !(s.refreshForced e pc) && !(s.calForced e)
/-- Whether levels 1 to 3 leave a slot to background work (R251). -/
def State.idleGap (s : State) (e pc : Nat) : Bool := !(s.pcWaits e pc) && !(s.refreshOwed e pc) && !(s.calIdle e)

/-- Whether engine `e` may perform a foreground access, an access of the patrol scrub, or one of migration, replication and
clearing on pseudo-channel `pc` now (R220, R251). -/
def State.frontSlot (s : State) (e pc : Nat) : Bool :=
  s.unforced e pc && !(s.scrubDue e pc) && !(s.backDue e pc) && decide ((s.engine e).accesses < 2 ^ 24)
def State.scrubSlot (s : State) (e pc : Nat) : Bool := s.unforced e pc && (s.scrubDue e pc || s.idleGap e pc)
def State.backSlot (s : State) (e pc : Nat) : Bool :=
  s.unforced e pc && !(s.scrubDue e pc) && (s.backDue e pc || s.idleGap e pc)

/-- A slot of a pseudo-channel is used by foreground work (level 2), the scrub (4), or level 5: each kind of background
work that waits counts the slots that others have (R251). -/
def State.useSlot (s : State) (e pc level : Nat) : State :=
  let n4 := if level = 4 ∨ s.scrubWaits e pc = false then 0 else (s.engine e).scrubCount pc + 1
  let n5 := if level = 5 ∨ s.backWaits e = false then 0 else (s.engine e).backCount pc + 1
  s.modEngine e (fun x => { x with scrubSlots := FMap.set (fun _ => 0) x.scrubSlots pc n4,
                                   backSlots := FMap.set (fun _ => 0) x.backSlots pc n5 })

/-! ### Accesses of a unit (R194, R195) -/

/-- A sector of HBM that a command of a unit, a packet or the host reads or writes. -/
structure Touch where
  sector : Nat
  part   : Nat                   -- partition it is for
  write  : Bool
  fills  : Bool                  -- a read miss may allocate a line
  deriving DecidableEq, Repr

/-- The engine a touched sector belongs to. -/
def Touch.engine (t : Touch) : Nat := engineOf (32 * t.sector)

/-- Whether a touched sector's request may enter its engine's window and be performed at once (R195, R251): there is room,
no request to the sector is before it, none has waited 1 µs, and the channel has a slot for it.  `back` is for the reads
and writes of migration and replication. -/
def State.turnOf (s : State) (back : Bool) (t : Touch) : Bool :=
  let x := s.engine t.engine
  decide (x.occupied < 256) && x.window.all (fun r => decide (r.sector ≠ t.sector ∧ s.clock < r.since + 1000)) &&
  (if back then s.backSlot t.engine (t.sector % 2) else s.frontSlot t.engine (t.sector % 2))

/-- Whether every touched sector has its turn; a command whose sectors do not changes nothing yet (log 50). -/
def State.haveTurn (s : State) (back : Bool) (ts : List Touch) : Bool := ts.all (fun t => s.turnOf back t)

/-- A touched sector's request has passed its engine: cache, access count and slots (R220, R249, R251). -/
def State.pass (s : State) (back : Bool) (t : Touch) : State :=
  let s := (s.cacheAccess t.engine t.part t.sector t.fills).useSlot t.engine (t.sector % 2) (if back then 5 else 2)
  s.modEngine t.engine (fun x => { x with accesses := x.accesses + 1, emptyAt := s.clock })

/-- Every touched sector's request has passed. -/
def State.passAll (s : State) (back : Bool) (ts : List Touch) : State := ts.foldl (fun s t => s.pass back t) s

/-- The touches of a read or a write of keyed bytes for partition `p`. -/
def touches (p : Nat) (write fills : Bool) (ks : List Nat) : List Touch :=
  (hbmSectors ks).map (fun c => { sector := c, part := p, write := write, fills := fills })

/-- A read of keyed bytes by the host, a packet or an engine that no descriptor drives: the controllers decode every sector,
and each passes its engine; the bytes as they stand then, and whether poison was met (R194, R245, R246). -/
def State.readThrough (s : State) (p : Nat) (ks : List Nat) : State × List Byte × Bool :=
  let d := s.sense (hbmSectors ks)
  (d.1.passAll false (touches p false (s.mayFill p false false) ks), ks.map d.1.byte, d.2)

/-- A write of keyed bytes by the same; the flag tells that a poisoned sector was met and left. -/
def State.writeThrough (s : State) (p : Nat) (kvs : List (Nat × Byte)) : State × Bool :=
  let r := s.writeAll kvs
  (r.1.passAll false (touches p true false (kvs.map Prod.fst)), r.2)

/-- Whether an engine's window is empty and its channel has a slot for foreground work. -/
def State.openEngine (s : State) (e : Nat) : Bool :=
  (s.engine e).window.isEmpty && s.frontSlot e 0 && s.frontSlot e 1

/-- The outcome `t` of a command on `s` whose accesses go through engines, if every engine that has served one of them was
open; none: it waits (R194, R195, R251; log 50). -/
def State.ifOpen (s t : State) : Option State :=
  if t.engines.all (fun g => decide (g.2.accesses ≤ (s.engine g.1).accesses) || s.openEngine g.1) then some t else none

/-- Count one foreground request for each aligned 512-byte block of HBM that keys touch (R195, R217; log 14). -/
def State.countLoad (s : State) (p : Nat) (ks : List Nat) : State :=
  (dedup ((ks.filter isHbm).map (fun k => k / 512))).foldl
    (fun s b => s.bump48 (kStackLoad (engineOf (b * 512) / 32) p) 1) s

end Sys2Proof.Machine
end

