-- ==== Sys2Proof/Machine/StallMem.lean ====
section
/-!
DEFINITION. Loads, stores, atomics and fences of a stall, and their performance in memory (R56, R125-R131, R246).

An access to the stall's own local memory is performed at once.  Every other access is issued, holds a tag, and is
performed later in parts of one 32-byte sector each: in a loft or a stall memory by LOAD_VALUE_RETURN, in HBM through a
row engine's window (Machine/Hbm.lean).
-/

namespace Sys2Proof.Machine

/-! ### Checks and parts -/

/-- The check of an access of `n` bytes at `a` that must lie on a multiple of `al`: the fault code, 0 for none (R125, R131). -/
def State.checkAccess (s : State) (p t a n al : Nat) : Nat :=
  if s.mapped p (some t) a n = false then 0x0404 else if a % al ≠ 0 then 0x0403 else 0

/-- The parts of an aligned access: one for a scalar, one for each sector of a vector (R125). -/
def State.mkParts (s : State) (p t a n : Nat) : List APart :=
  (List.range (max 1 (n / 32))).filterMap (fun i =>
    (s.phys p (some t) (a + 32 * i)).map (fun k =>
      { phys := k, len := min n 32, off := 32 * i, stage := .issued, data := [] }))

/-- Whether two parts share a byte. -/
def APart.meets (q r : APart) : Bool := decide (q.phys < r.phys + r.len ∧ r.phys < q.phys + q.len)
/-- Whether a part is still to be performed. -/
def APart.open (q : APart) : Bool := decide (q.stage ≠ .done)

/-- Whether a part holds a byte that the access stores. -/
def Access.storesIn (a : Access) (q : APart) : Bool :=
  (List.range q.len).any (fun i => a.mask.getLsbD (q.off + i))

/-- The accesses before place `n` in program order. -/
def Stall.before (x : Stall) (n : Nat) : List Access := x.acc.filter (fun b => decide (b.seq < n))

/-- Whether a part of access `a` may be performed: no acquire before it is open (R128 rule 5), and no earlier access to
a common byte is open, except stores before a load, whose bytes the load takes (R128 rules 1, 2). -/
def Stall.mayPerform (x : Stall) (a : Access) (q : APart) : Bool :=
  !(x.waits.any (fun w => w.acquire && decide (w.seq < a.seq))) &&
  (x.before a.seq).all (fun b =>
    (decide (a.kind = .load) && decide (b.kind = .store)) || b.parts.all (fun r => !(r.open && r.meets q)))

/-- The byte at key `k` as the stall's own open stores before place `n` leave it (R128 rule 2). -/
def Stall.forward (x : Stall) (n k : Nat) (m : Byte) : Byte :=
  (x.before n).foldl (fun v b =>
    if b.kind = .store then
      b.parts.foldl (fun v q =>
        if q.open && decide (q.phys ≤ k) && decide (k < q.phys + q.len) && b.mask.getLsbD (q.off + (k - q.phys)) then
          BitVec.ofNat 8 (b.value.toNat >>> (8 * (q.off + (k - q.phys))))
        else v) v
    else v) m

/-- The bytes access `a` stores in a part, with their keys. -/
def storeBytes (a : Access) (q : APart) : List (Nat × Byte) :=
  (List.range q.len).filterMap (fun i =>
    if a.mask.getLsbD (q.off + i) then some (q.phys + i, BitVec.ofNat 8 (a.value.toNat >>> (8 * (q.off + i)))) else none)

/-! ### Atomics -/

/-- Bytes of an AADD value by FN, none for a reserved FN (R109). -/
def aaddSize : Nat → Option Nat
  | 0 => some 4
  | 1 => some 2
  | 2 => some 2
  | 3 => some 4
  | 4 => some 8
  | _ => none

/-- The sum an atomic add stores, and the cause of its first-NaN event (R56, R60): floats round to their format,
integers wrap. -/
def aaddSum (fmt old v : Nat) : Nat × Nat :=
  match fmtOf fmt with
  | some f => let r := vAdd fmt (old % 2 ^ f.width) (v % 2 ^ f.width); (r.code, r.cause)
  | none => let w := if fmt = 3 then 32 else 64; ((old + v) % 2 ^ w, 0)

/-! ### Performance -/

/-- Replace access number `k`. -/
def Stall.setAcc (x : Stall) (k : Nat) (a : Access) : Stall := { x with acc := modifyAt x.acc k (fun _ => a) }

/-- Mark part `j` of an access performed, with the bytes it read. -/
def Access.finish (a : Access) (j : Nat) (data : List Byte) : Access :=
  { a with parts := modifyAt a.parts j (fun q => { q with stage := .done, data := data }) }

/-- The partition that accounts for stall `t`. -/
def State.partOf (s : State) (t : Nat) : Nat := (s.owner (t / 32)).getD 0

/-- Perform part `j` of outstanding access `k` of stall `t`: a load reads, with the stall's own earlier stores; a store
writes, or is left and logged; `poison` tells that the sector's read met poison (R126, R246). -/
def State.performPart (s : State) (t k j : Nat) (poison : Bool) : State :=
  let x := s.stall t
  match x.acc[k]? with
  | none => s
  | some a => match a.parts[j]? with
    | none => s
    | some q =>
      match a.kind with
      | .load =>
        if poison then s.setStall t (x.setAcc k { a.finish j [] with poison := true })
        else
          let d := (List.range q.len).map (fun i => x.forward a.seq (q.phys + i) (s.byte (q.phys + i)))
          s.setStall t (x.setAcc k (a.finish j d))
      | .store =>
        let u := s.setStall t (x.setAcc k (a.finish j []))
        if poison then u.logPart (s.partOf t) 0x0405 2 1 t a.addr.toNat else u.putKeyed (storeBytes a q)
      | _ => s

/-- Perform an atomic at its home: the whole read, addition or comparison, and write in one step (R109, R128 rule 4);
`poison` tells that the sector's read met poison (R246).  A NaN sum makes a first-NaN event and leaves ASTAT of the issuing
stall alone, in HBM and elsewhere (log 53). -/
def State.performAtomic (s : State) (t k : Nat) (poison : Bool) : State :=
  let x := s.stall t
  match x.acc[k]? with
  | none => s
  | some a => match a.parts[0]? with
    | none => s
    | some q =>
      let p := s.partOf t
      let old := s.getBytes q.phys q.len
      match a.kind with
      | .acas =>
        if poison then s.setStall t (x.setAcc k { a.finish 0 [] with poison := true })
        else
          let s := s.setStall t (x.setAcc k (a.finish 0 old))
          if ofBytes old = a.expect.toNat then s.putBytes q.phys (toBytes 8 (a.value.toNat % 2 ^ 64)) else s
      | .aadd =>
        if poison then
          (s.setStall t (x.setAcc k (a.finish 0 []))).logPart p 0x0405 2 1 t a.addr.toNat
        else
          let r := aaddSum a.fmt (ofBytes old) a.value.toNat
          let s := s.setStall t (x.setAcc k (a.finish 0 []))
          (s.putBytes q.phys (toBytes q.len r.1)).nanEvents p ⟨if isHbm q.phys then 3 else 0, 8, t, a.pc.toNat⟩
            [(0, r.2)]
      | _ => s

/-! ### Issue -/

/-- Whether an access counts as a load, or as a store (R128 rule 4). -/
def Access.isLoad (a : Access) : Bool := decide (a.kind = .load ∨ a.kind = .acas)
def Access.isStore (a : Access) : Bool := decide (a.kind ≠ .load)

/-- Put an access into the list of outstanding ones (R126); a load or ACAS of HBM, which may meet poison, keeps the
registers before it (R131, R132). -/
def Stall.addAccess (x : Stall) (a : Access) : Stall :=
  let y := match a.dst with | some r => x.supersedeAt (x.seq + 1) r | none => x
  let c := if a.isLoad && a.parts.any (fun q => isHbm q.phys) then x.ctx else Ctx.empty
  ({ y with acc := y.acc ++ [{ a with seq := x.seq, ctx := c }] }).nextSeq

/-- Issue an access whose checks passed: at once in the stall's own memory when nothing before it holds it back,
otherwise outstanding, unless all 128 tags are held (R120, R126). -/
def launch (t : Nat) (a : Access) (now : Stall → Stall) (s : State) (x : Stall) : Out1 :=
  let own := !(a.tagged t)
  let free := own && a.parts.all (fun q => x.mayPerform { a with seq := x.seq } q) &&
    (x.acc.all (fun b => b.parts.all (fun r => !(r.open && a.parts.any (fun q => r.meets q)))))
  if free ∧ (a.kind = .load ∨ a.kind = .store) then
    .next ((if a.kind = .store then (s.writeAll (a.parts.flatMap (storeBytes a))).1 else s).setStall t (now x).advance)
  else if own = false ∧ 128 ≤ x.tags t then .next s
  else .next (s.setStall t (x.addAccess a).advance)

/-- The bytes of all parts of an access, in order. -/
def Access.bytes (a : Access) : List Byte := a.parts.flatMap APart.data

/-- Store what an access returned into its destination (R106, R109). -/
def Stall.deliver (x : Stall) (a : Access) : Stall :=
  match a.dst with
  | none => x
  | some r =>
    if r < 32 then x.putG r (extend a.signed (8 * a.size) (ofBytes a.bytes))
    else x.putV (r - 32) (BitVec.ofNat 1024 (ofBytes a.bytes))

/-- The bytes a load reads at once from the stall's own memory. -/
def State.readNow (s : State) (a : Access) : Access :=
  { a with parts := a.parts.map (fun q => { q with data := s.getBytes q.phys q.len }) }

/-- An access to be issued by the instruction at pc. -/
def mkAccess (x : Stall) (kind : AccKind) (addr : Nat) (size : Nat) (parts : List APart) : Access :=
  { seq := 0, kind := kind, dst := none, signed := false, size := size, addr := BitVec.ofNat 64 addr, parts := parts,
    value := 0, mask := 0, fmt := 0, expect := 0, poison := false, pc := x.pc }

/-- Destination of a load into a g register: none for g31 (R99). -/
def gdst (d : BitVec 5) : Option Nat := if d = 31 then none else some d.toNat

/-- A load of `n` bytes (R106, R125): `dst` is its destination and `vec` says that it is a vector access. -/
def execLoad (t : Nat) (a : BitVec 5) (imm : BitVec 15) (n al : Nat) (signed : Bool) (dst : Option Nat) (s : State) : Out1 :=
  issue t [a.toNat] s fun p x =>
    let addr := (x.getG a + imm64 imm).toNat
    let c := s.checkAccess p t addr n al
    if c ≠ 0 then .next (s.stallFault p t c x.pc.toNat addr)
    else
      let acc := { mkAccess x .load addr n (s.mkParts p t addr n) with dst := dst, signed := signed }
      launch t acc (fun y => (match dst with | some r => y.supersede r | none => y).deliver (s.readNow acc)) s x

/-- A store of the low bytes of `v` under a byte mask (R106, R125). -/
def execStore (t : Nat) (rs : List Nat) (addr : Stall → Nat) (v : Stall → BitVec 1024) (mask : Stall → BitVec 128)
    (n al : Nat) (s : State) : Out1 :=
  issue t rs s fun p x =>
    let ad := addr x
    let c := s.checkAccess p t ad n al
    if c ≠ 0 then .next (s.stallFault p t c x.pc.toNat ad)
    else
      let acc := { mkAccess x .store ad n [] with value := v x, mask := mask x }
      let acc := { acc with parts := (s.mkParts p t ad n).filter acc.storesIn }
      launch t acc id s x

/-- The mask of `n` bytes. -/
def maskOf (n : Nat) : BitVec 128 := BitVec.ofNat 128 (2 ^ n - 1)

/-- ST of the low `n` bytes of the register in field D (R106). -/
def execStoreG (t : Nat) (d a : BitVec 5) (imm : BitVec 15) (n : Nat) (s : State) : Out1 :=
  execStore t [d.toNat, a.toNat] (fun x => (x.getG a + imm64 imm).toNat)
    (fun x => BitVec.ofNat 1024 ((x.getG d).toNat % 2 ^ (8 * n))) (fun _ => maskOf n) n n s

/-- LD.B (R106). -/
def execLdB (st : Nat) (d a : BitVec 5) (imm : BitVec 15) (s : State) : Out1 := execLoad st a imm 1 1 true (gdst d) s
/-- LD.H (R106). -/
def execLdH (st : Nat) (d a : BitVec 5) (imm : BitVec 15) (s : State) : Out1 := execLoad st a imm 2 2 true (gdst d) s
/-- LD.W (R106). -/
def execLdW (st : Nat) (d a : BitVec 5) (imm : BitVec 15) (s : State) : Out1 := execLoad st a imm 4 4 true (gdst d) s
/-- LD.D (R106). -/
def execLdD (st : Nat) (d a : BitVec 5) (imm : BitVec 15) (s : State) : Out1 := execLoad st a imm 8 8 true (gdst d) s
/-- LD.BU (R106). -/
def execLdBu (st : Nat) (d a : BitVec 5) (imm : BitVec 15) (s : State) : Out1 := execLoad st a imm 1 1 false (gdst d) s
/-- LD.HU (R106). -/
def execLdHu (st : Nat) (d a : BitVec 5) (imm : BitVec 15) (s : State) : Out1 := execLoad st a imm 2 2 false (gdst d) s
/-- LD.WU (R106). -/
def execLdWu (st : Nat) (d a : BitVec 5) (imm : BitVec 15) (s : State) : Out1 := execLoad st a imm 4 4 false (gdst d) s
/-- ST.B (R106). -/
def execStB (st : Nat) (d a : BitVec 5) (imm : BitVec 15) (s : State) : Out1 := execStoreG st d a imm 1 s
/-- ST.H (R106). -/
def execStH (st : Nat) (d a : BitVec 5) (imm : BitVec 15) (s : State) : Out1 := execStoreG st d a imm 2 s
/-- ST.W (R106). -/
def execStW (st : Nat) (d a : BitVec 5) (imm : BitVec 15) (s : State) : Out1 := execStoreG st d a imm 4 s
/-- ST.D (R106). -/
def execStD (st : Nat) (d a : BitVec 5) (imm : BitVec 15) (s : State) : Out1 := execStoreG st d a imm 8 s
/-- VLD (R106): 128 bytes, aligned to 32 (R125). -/
def execVld (st : Nat) (d a : BitVec 5) (imm : BitVec 15) (s : State) : Out1 :=
  execLoad st a imm 128 32 false (some (vreg d.toNat)) s
/-- VST (R106). -/
def execVst (st : Nat) (d a : BitVec 5) (imm : BitVec 15) (s : State) : Out1 :=
  execStore st [vreg d.toNat, a.toNat] (fun x => (x.getG a + imm64 imm).toNat) (fun x => x.getV d)
    (fun _ => BitVec.allOnes 128) 128 32 s
/-- VSTP (R106): bytes of vD whose predicate bit is 1, at ga + gb. -/
def execVstp (st : Nat) (d a b : BitVec 5) (p : BitVec 3) (s : State) : Out1 :=
  execStore st [vreg d.toNat, a.toNat, b.toNat] (fun x => (x.getG a + x.getG b).toNat) (fun x => x.getV d)
    (fun x => x.getP p.toNat) 128 32 s

/-- AADD (R109): no value returns. -/
def execAadd (st : Nat) (a b : BitVec 5) (fn : BitVec 5) (s : State) : Out1 :=
  match aaddSize fn.toNat with
  | none => issue st [] s fun p _ => illegal p st s
  | some n =>
    issue st [a.toNat, b.toNat] s fun p x =>
      let addr := (x.getG a).toNat
      let c := s.checkAccess p st addr n n
      if c ≠ 0 then .next (s.stallFault p st c x.pc.toNat addr)
      else launch st { mkAccess x .aadd addr n (s.mkParts p st addr n) with
                       value := BitVec.ofNat 1024 ((x.getG b).toNat % 2 ^ (8 * n)), mask := maskOf n, fmt := fn.toNat } id s x

/-- ACAS (R109): gd = the old value. -/
def execAcas (st : Nat) (d a b c : BitVec 5) (s : State) : Out1 :=
  issue st [a.toNat, b.toNat, c.toNat] s fun p x =>
    let addr := (x.getG a).toNat
    let e := s.checkAccess p st addr 8 8
    if e ≠ 0 then .next (s.stallFault p st e x.pc.toNat addr)
    else launch st { mkAccess x .acas addr 8 (s.mkParts p st addr 8) with
                     dst := gdst d, value := BitVec.ofNat 1024 (x.getG b).toNat, mask := maskOf 8, expect := x.getG c } id s x

/-- FENCE (R129): waits until every earlier access of the kinds its mask orders is performed. -/
def execFence (st : Nat) (mask : BitVec 4) (s : State) : Out1 :=
  issue st [] s fun _ x =>
    let l := mask.getLsbD 0 || mask.getLsbD 1
    let w := mask.getLsbD 2 || mask.getLsbD 3
    if x.acc.any (fun a => (l && a.isLoad) || (w && a.isStore)) then .next s
    else .next (s.setStall st x.advance)

/-- The current event retires once the earlier stores are visible, and the earlier loads have returned: a load that still
faults leaves the event unretired (R117, R118, R132; log 52). -/
def Stall.settle (x : Stall) : Stall :=
  match x.retire with
  | some n => if x.acc.any (fun a => decide (a.seq < n)) then x else { x with cur := none, retire := none }
  | none => x

/-- What an access returned goes to its destination, and to the contexts that later loads saved. -/
def Stall.giveBack (x : Stall) (a : Access) : Stall :=
  let n := ofBytes a.bytes
  let v : BitVec 1024 := match a.dst, a.was with
    | some r, _ => if r < 32 then (extend a.signed (8 * a.size) n).setWidth 1024 else BitVec.ofNat 1024 n
    | none, some (r, _) => if r < 32 then (extend a.signed (8 * a.size) n).setWidth 1024 else BitVec.ofNat 1024 n
    | none, none => 0
  if a.isLoad then (x.deliver a).keep a.seq a.dst a.was v else x.deliver a

/-- The stall stops before load or ACAS `a`, which met poison (R132): its registers are as they were before `a`, and later
accesses and control operations that wait are dropped with their tags.  A later store that was performed stands
(log 52). -/
def Stall.backTo (x : Stall) (a : Access) : Stall :=
  let late := x.ctl.filter (fun c => decide (a.seq < c.seq))
  { x with g := a.ctx.g, v := a.ctx.v, p := a.ctx.p, astat := a.ctx.astat, wrap := x.wrap || a.ctx.wrap,
           rngKey := a.ctx.rngKey, rngLo := a.ctx.rngLo, rngHi := a.ctx.rngHi,
           retire := (match x.retire with | some n => if a.seq < n then none else some n | none => none),
           acc := x.acc.filter (fun b => decide (b.seq < a.seq)), ctl := x.ctl.filter (fun c => decide (c.seq < a.seq)),
           waits := x.waits.filter (fun w => decide (w.seq < a.seq)),
           descs := x.descs - (late.filter (fun c => c.msg.tagId.isSome)).length }

/-- The requests of stall `t`'s accesses from place `n` on leave the windows. -/
def State.dropRequests (s : State) (t n : Nat) : State :=
  ((s.stall t).acc.flatMap Access.parts).foldl (fun s q =>
    if decide (q.stage = .windowed) && isHbm q.phys then
      s.modEngine (engineOf q.phys) (fun x =>
        { x with window := x.window.filter (fun r => decide (¬(r.stall = t ∧ n ≤ r.seq))) })
    else s) s

/-- The load or ACAS `a` of stall `t` has met poison: E_POISON, unless the stall has already faulted (R131, R132). -/
def State.poisonFault (s : State) (t : Nat) (a : Access) : State :=
  ((s.dropRequests t a.seq).modStall t (fun x => (x.backTo a).settle)).stallFault (s.partOf t) t 0x0405 a.pc.toNat
    a.addr.toNat

/-- The parts of access `k` that lie outside HBM are performed in order, if all of them may be. -/
def State.performNear (s : State) (t k : Nat) (a : Access) : State :=
  (List.range a.parts.length).foldl (fun s j =>
    match a.parts[j]? with
    | some q => if q.open then s.performPart t k j false else s
    | none => s) s

/-- LOAD_VALUE_RETURN (R126): the access at place `k` among the outstanding ones is completed: its parts outside HBM are
performed, the value returns or the store is acknowledged, and the tag is freed.  A poisoned load or ACAS faults (R131). -/
def execLoadValueReturn (st k : Nat) (s : State) : Out1 :=
  if 1024 ≤ st then .fault .noSuchUnit
  else
    let x := s.stall st
    match x.acc[k]? with
    | none => .next s
    | some a =>
      let near := a.parts.filter (fun q => q.open && !(isHbm q.phys))
      if a.parts.any (fun q => q.open && isHbm q.phys) || (decide (a.kind = .aadd ∨ a.kind = .acas) && !near.isEmpty) ||
         near.any (fun q => !(x.mayPerform a q)) then .next s
      else
        let s := s.performNear st k a
        let x := s.stall st
        match x.acc[k]? with
        | none => .next s
        | some a =>
          let y := { x with acc := removeAt x.acc k }
          if a.poison ∧ a.isLoad then
            (if y.mode = .faulted then .next (s.setStall st y.settle) else .next (s.poisonFault st a))
          else .next (s.setStall st (y.giveBack a).settle)

/-! ### A row engine's window (R195, R251) -/

/-- Whether the request at place `i` of engine `e`'s window may be performed: after earlier requests to its sector, after
earlier requests that have waited 1 µs, in a slot that arbitration gives to foreground work (R195, R220, R251). -/
def State.windowTurn (s : State) (e i : Nat) : Bool :=
  let x := s.engine e
  match x.window[i]? with
  | none => false
  | some r =>
    (x.window.take i).all (fun q => decide (q.sector ≠ r.sector) && decide (s.clock < q.since + 1000)) &&
    s.frontSlot e (r.sector % 2)

/-- A request leaves the window (R195, R249). -/
def State.leaveWindow (s : State) (e i : Nat) : State :=
  s.modEngine e (fun x => { x with window := removeAt x.window i, emptyAt := s.clock })

/-- A sector request in a window, as its engine counts it: an access, at the cache and in a slot of its channel. -/
def State.touchOf (s : State) (r : WinReq) : Touch :=
  { sector := r.sector, part := s.partOf r.stall, write := r.write,
    fills := !r.write && s.mayFill (s.partOf r.stall) false false }

/-- The place in engine `e`'s window of part `j` of access `q` of stall `t`. -/
def State.windowPlace (s : State) (e t q j : Nat) : Option Nat :=
  indexOf? (fun r => decide (r.stall = t ∧ r.seq = q ∧ r.part = j)) (s.engine e).window

/-- ATOMIC_AT_HOME (R56, R109, R212): the outstanding AADD or ACAS at place `k` is performed at its home; in HBM it has
entered the engine's window first and takes its turn there. -/
def execAtomicAtHome (st k : Nat) (s : State) : Out1 :=
  if 1024 ≤ st then .fault .noSuchUnit
  else
    let x := s.stall st
    match x.acc[k]? with
    | none => .next s
    | some a => match a.parts[0]? with
      | none => .next s
      | some q =>
        if (a.kind = .aadd ∨ a.kind = .acas) ∧ q.open ∧ x.mayPerform a q then
          (if isHbm q.phys = false then .next (s.performAtomic st k false)
           else
             let e := engineOf q.phys
             match s.windowPlace e st a.seq 0 with
             | none => .next s
             | some i => if s.windowTurn e i then
                 let d := (s.leaveWindow e i).decodeSector (q.phys / 32 * 32) []
                 .next ((d.1.performAtomic st k d.2).pass false
                   { sector := q.phys / 32, part := s.partOf st, write := true, fills := false })
               else .next s)
        else .next s

end Sys2Proof.Machine
end

