-- ==== Sys2Proof/Machine/StallCtl.lean ====
section
/-!
DEFINITION. Work and control operations of a stall, and the control issue queue (R109, R117-R121).
-/

namespace Sys2Proof.Machine

/-! ### Work -/

/-- GET_WORK (R31, R117): once the earlier stores are visible, and the earlier loads have returned so that no fault may
precede it (R118, R132; log 52), the current event retires, and the stall waits for the groom. -/
def execGetWork (st : Nat) (d c : BitVec 5) (s : State) : Out1 :=
  issue st [] s fun _ x =>
    if x.acc ≠ [] then .next s
    else .next ((s.setStall st { x.advance with
      mode := .getWork d.toNat c.toNat s.ctr, cur := none, retire := none }).tick1)

/-- EVDONE (R118): the current event retires once the earlier accesses are done; without one it has no effect. -/
def execEvdone (st : Nat) (s : State) : Out1 :=
  issue st [] s fun _ x =>
    match x.cur with
    | none => .next (s.setStall st x.advance)
    | some _ =>
      let n := match x.retire with | some m => m | none => x.seq
      .next (s.setStall st { x.advance with retire := some n }.settle)

/-! ### Control operations -/

/-- Who waits at the top of the pens a reply goes through. -/
def State.rootReply (s : State) : Nat → Reply → Reply
  | n + 1, .agg id =>
    match s.penOps.find? (fun o => decide (o.id = id)) with
    | some o => s.rootReply n o.reply
    | none => .none
  | _, r => r

/-- Whether a reply goes to a control operation of stall `t`. -/
def State.isFrom (s : State) (t : Nat) (r : Reply) : Bool :=
  match s.rootReply 20 r with
  | .stall u _ => decide (u = t)
  | _ => false

/-- Operations that wait at the head of the control issue queue until their targets accept them (R120). -/
def MOp.waitsAtHead (o : MOp) : Bool :=
  decide (o = .evpush ∨ o = .hpush ∨ o = .send ∨ o = .mx ∨ o = .ucmd)

/-- The entry of stall `t`'s control issue queue whose operation has left it and waits for room at a target, or at leaves
of a pen: at most one, since operations leave one at a time (R120). -/
def State.inFlight (s : State) (t : Nat) : Nat :=
  b2n (s.mesh.any (fun m => m.op.waitsAtHead && s.isFrom t m.reply) || s.pushes.any (fun q => s.isFrom t q.reply))

/-- A control operation of the instruction at pc. -/
def mkOp (x : Stall) (p t : Nat) (op : MOp) (target : BitVec 64) : Mesh :=
  { op := op, target := target, a2 := 0, data := 0, n := 0, stall := t, pc := x.pc, part := p, dev := none, depth := 0,
    reply := .stall t x.seq }

/-- Put an operation into the control issue queue of 16 entries; the stall blocks while it is full (R120, R121). -/
def execCtl (t : Nat) (rs : List Nat) (m : Nat → Stall → Mesh) (s : State) : Out1 :=
  issue t rs s fun p x =>
    if 16 ≤ x.ctl.length + s.inFlight t then .next s
    else .next (s.setStall t { x.advance.nextSeq with ctl := x.ctl ++ [{ seq := x.seq, msg := m p x }] })

/-- The same with a result for gd; `acquire` tells whether later loads and stores wait for it (R128 rule 5, R137). -/
def execCtlG (t : Nat) (d : BitVec 5) (acquire : Stall → Bool) (rs : List Nat) (m : Nat → Stall → Mesh) (s : State) : Out1 :=
  issue t rs s fun p x =>
    if 16 ≤ x.ctl.length + s.inFlight t then .next s
    else
      let y := x.supersede d.toNat
      .next (s.setStall t { y.advance.nextSeq with
        ctl := y.ctl ++ [{ seq := x.seq, msg := m p x }],
        waits := y.waits ++ [{ seq := x.seq, dst := gdst d, acquire := acquire x }] })

/-- EVPUSH (R109): vb[255:0] to a queue or pen. -/
def execEvpush (st : Nat) (a b : BitVec 5) (s : State) : Out1 :=
  execCtl st [a.toNat, vreg b.toNat] (fun p x => { mkOp x p st .evpush (x.getG a) with
    data := ((x.getV b).setWidth 256).setWidth 1024 }) s
/-- SEND (R109, R119): vb[255:0] to the mailbox of a stall or of each stall of a pen. -/
def execSend (st : Nat) (a b : BitVec 5) (s : State) : Out1 :=
  execCtl st [a.toNat, vreg b.toNat] (fun p x => { mkOp x p st .send (x.getG a) with
    data := ((x.getV b).setWidth 256).setWidth 1024 }) s
/-- HPUSH (R109, R150): a handle to a queue or pen. -/
def execHpush (st : Nat) (a b : BitVec 5) (s : State) : Out1 :=
  execCtl st [a.toNat, b.toNat] (fun p x => { mkOp x p st .hpush (x.getG a) with a2 := x.getG b }) s
/-- FSET (R109). -/
def execFset (st : Nat) (a : BitVec 5) (s : State) : Out1 :=
  execCtl st [a.toNat] (fun p x => mkOp x p st .set (x.getG a)) s
/-- FCLR (R109). -/
def execFclr (st : Nat) (a : BitVec 5) (s : State) : Out1 :=
  execCtl st [a.toNat] (fun p x => mkOp x p st .clear (x.getG a)) s
/-- FTEST (R109). -/
def execFtest (st : Nat) (d a : BitVec 5) (s : State) : Out1 :=
  execCtlG st d (fun _ => true) [a.toNat] (fun p x => mkOp x p st .test (x.getG a)) s
/-- WATCH (R109, R138): FN[0] is the value; FN[4:1] must be zero (R105).  On a remote flag it acquires (R137). -/
def execWatch (st : Nat) (d a b c : BitVec 5) (fn : BitVec 5) (s : State) : Out1 :=
  if 1 < fn.toNat then issue st [] s fun p _ => illegal p st s
  else execCtlG st d (fun x => !(uaLocal (x.getG a).toNat)) [a.toNat, b.toNat, vreg c.toNat] (fun p x => { mkOp x p st .watch (x.getG a) with
    a2 := x.getG b, data := ((x.getV c).setWidth 256).setWidth 1024, n := fn.toNat }) s
/-- WCANCEL (R109, R140). -/
def execWcancel (st : Nat) (d a : BitVec 5) (s : State) : Out1 :=
  execCtlG st d (fun _ => true) [a.toNat] (fun p x => { mkOp x p st .cancel 0 with a2 := x.getG a }) s

/-- Whether a UCMD to an address takes a tag: for a DMA engine, a row engine, or a pen with such leaves, which it keeps
until its last descriptor there completes (R30, R126; log 51). -/
def State.takesTag (s : State) (a : Nat) : Bool :=
  let k := uaKind a
  decide (k = 0 ∨ k = 6) || (decide (k = 7) && uaLocal a && (s.leafKinds 9 (uaIndex a)).any (fun j => decide (j = 0 ∨ j = 6)))

/-- UCMD (R109): n × 32 bytes of vb to a unit; FN[4:2] must be zero (R126). -/
def execUcmd (st : Nat) (a b : BitVec 5) (fn : BitVec 5) (s : State) : Out1 :=
  if 4 ≤ fn.toNat then issue st [] s fun p _ => illegal p st s
  else issue st [a.toNat, vreg b.toNat] s fun p x =>
    let n := fn.toNat + 1
    let tag := s.takesTag (x.getG a).toNat
    if 16 ≤ x.ctl.length + s.inFlight st ∨ 128 < x.tags st + b2n tag then .next s
    else
      let m := { mkOp x p st .ucmd (x.getG a) with
                 data := BitVec.ofNat 1024 ((x.getV b).toNat % 2 ^ (256 * n)), n := n,
                 tagId := if tag then some s.ctr else none }
      .next ((s.setStall st { x.advance.nextSeq with
        ctl := x.ctl ++ [{ seq := x.seq, msg := m }], descs := x.descs + b2n tag }).tick1)

/-- MX.LOADW ... MX.RESET (R72, R109): vb[255:0] with bits [7:0] replaced by FN[2:0], 1 to 5. -/
def execMxInstruction (st : Nat) (a b : BitVec 5) (fn : BitVec 5) (s : State) : Out1 :=
  if fn.toNat = 0 ∨ 5 < fn.toNat then issue st [] s fun p _ => illegal p st s
  else execCtl st [a.toNat, vreg b.toNat] (fun p x => { mkOp x p st .mx (x.getG a) with
    data := BitVec.ofNat 1024 ((x.getV b).toNat % 2 ^ 256 / 256 * 256 + fn.toNat), n := 1 }) s

/-! ### The control issue queue -/

/-- KINDs of plain units an operation takes (R25, R26). -/
def MOp.fits : MOp → List Nat
  | .set | .clear | .test | .watch | .cancel | .report | .undo => [2]
  | .evpush | .hpush => [3]
  | .send => [1]
  | .mx => [4]
  | .ucmd => [0, 5, 6]

/-- Whether an operation acts on flags (R128 rule 6). -/
def MOp.isFlag (o : MOp) : Bool := decide (o = .set ∨ o = .clear ∨ o = .test ∨ o = .watch ∨ o = .cancel)

/-- Whether no earlier operation of stall `t` is still on its way: each leaves once the one before it is done
(R119, R120, R128 rule 6). -/
def State.ctlClear (s : State) (t : Nat) : Bool :=
  s.mesh.all (fun m => !(s.isFrom t m.reply)) && s.penOps.all (fun o => !(s.isFrom t o.reply)) &&
  s.pushes.all (fun q => !(s.isFrom t q.reply)) &&
  s.fabric.tags.all (fun g => match g.use with | .flag r _ => !(s.isFrom t r) | _ => true)

/-- The stall's head control operation leaves. -/
def State.popCtl (s : State) (t : Nat) : State := s.modStall t (fun x => { x with ctl := x.ctl.drop 1 })

/-- Whether a descriptor with tag identity `id` is still on its way, queued or in execution. -/
def State.tagLives (s : State) (id : Nat) : Bool :=
  let is : Desc → Bool := fun d => decide (d.tagId = some id)
  let run : Option RCur → Bool := fun c => match c with | some c => is c.desc | none => false
  s.mesh.any (fun m => decide (m.tagId = some id)) || s.sheds.any (fun e => e.2.dma.queue.any is || run e.2.dma.cur) ||
  s.engines.any (fun e => e.2.queues.any (fun q => q.2.any is) || e.2.cur.any (fun c => run c.2))

/-- A descriptor with a tag has ended, or reached no unit: the stall's tag is free once none of its UCMD is left (R126). -/
def State.giveTag (s : State) (stall : Nat) (id : Option Nat) : State :=
  match id with
  | some i => if s.tagLives i then s else s.modStall stall (fun x => { x with descs := x.descs - 1 })
  | none => s

/-- Push of a plain operation at its local target (R119, R149). -/
def State.pushPlain (s : State) (m : Mesh) (i : Nat) : Accept :=
  match m.op with
  | .send => s.pushMail i m.stall m.part (m.data.setWidth 256)
  | .hpush => s.pushQueue i kindHandle m.stall m.part (m.a2.setWidth 256)
  | _ => s.pushQueue i kindEvpush m.stall m.part (m.data.setWidth 256)

/-- CONTROL_ISSUE (R121): the head of stall `st`'s control issue queue leaves, once every earlier access is performed.
A push or message to a full target waits at the head (R120); a rejected address is reported (R26). -/
def execControlIssue (st : Nat) (s : State) : Out1 :=
  if 1024 ≤ st then .fault .noSuchUnit
  else
    let x := s.stall st
    match x.ctl with
    | [] => .next s
    | c :: _ =>
      let m := c.msg
      if x.acc.any (fun a => decide (a.seq < c.seq)) ∨ s.ctlClear st = false then .next s
      else if m.op = .cancel then .next { s.popCtl st with mesh := s.mesh ++ [m] }
      else
        let s' := s.popCtl st
        let bad := m.op = .watch ∧ s.resolve m.part m.a2.toNat [3] = .reject
        if bad then .next (s'.rejectOp { m with target := m.a2 } 0x0506 0)
        else match s.resolve m.part m.target.toNat m.op.fits with
        | .reject => .next ((s'.rejectOp m 0x0506 0).giveTag st m.tagId)
        | .remote _ _ =>
          if m.op = .mx ∨ m.op = .ucmd then .next ((s'.rejectOp m 0x0506 0).giveTag st m.tagId)
          else (match s'.sendOp m m.target.toNat 0 m.reply with
            | some t => .next t
            | none => .next s)
        | .pen _ => .next { s' with mesh := s.mesh ++ [m] }
        | .plain _ i =>
          if m.op.isFlag ∨ m.op = .mx ∨ m.op = .ucmd then .next { s' with mesh := s.mesh ++ [m] }
          else match s'.pushPlain m i with
            | .ok t => .next t
            | .refuse code => .next (s'.rejectOp m code 0)
            | .wait _ =>
              (match s.pushPlain m i with
               | .wait t => .next t
               | _ => .next s)

end Sys2Proof.Machine
end

