-- ==== Sys2Proof/Machine/Sync.lean ====
section
/-!
DEFINITION. Operations performed at flags, watches and pens, and pushes that reach their queues and mailboxes
(R27-R30, R119, R134-R151).
-/

namespace Sys2Proof.Machine

/-- Whether operation `m` at place `k` may be performed: leaves of a pen keep the member-list order (R30, R142). -/
def State.leafTurn (s : State) (k : Nat) (m : Mesh) : Bool :=
  match m.reply with
  | .agg id => (s.mesh.take k).all (fun o => decide (o.reply ≠ .agg id))
  | _ => true

/-- Perform the control-mesh operation at place `k` if `ok` takes it; it leaves the mesh. -/
def onMesh (k : Nat) (ok : Mesh → Bool) (s : State) (f : State → Mesh → Out1) : Out1 :=
  match s.mesh[k]? with
  | none => .next s
  | some m => if ok m ∧ s.leafTurn k m then f { s with mesh := removeAt s.mesh k } m else .next s

def Mesh.kind (m : Mesh) : Nat := uaKind m.target.toNat
def Mesh.idx (m : Mesh) : Nat := uaIndex m.target.toNat

/-- SET (R135): the flag becomes 1; watches for 1 fire (R138). -/
def execFlagSet (k : Nat) (s : State) : Out1 :=
  onMesh k (fun m => decide (m.op = .set ∧ m.kind = 2)) s fun s m => .next ((s.writeFlag m.idx true).reply m.reply 1)
/-- CLEAR (R135). -/
def execFlagClear (k : Nat) (s : State) : Out1 :=
  onMesh k (fun m => decide (m.op = .clear ∧ m.kind = 2)) s fun s m => .next ((s.writeFlag m.idx false).reply m.reply 1)
/-- TEST (R135): returns the value at its place in the flag's order. -/
def execFlagTest (k : Nat) (s : State) : Out1 :=
  onMesh k (fun m => decide (m.op = .test ∧ m.kind = 2)) s fun s m =>
    .next (s.reply m.reply (if s.flag m.idx then 1 else 0))

/-! ### Arming -/

/-- Whether a sub-watch of the pen operations above a reply has found no slot. -/
def State.fullAbove (s : State) : Nat → Reply → Bool
  | n + 1, .agg id =>
    match s.penOps.find? (fun o => decide (o.id = id)) with
    | some o => o.full || s.fullAbove n o.reply
    | none => false
  | _, _ => false

/-- The pen operations above a reply learn that a sub-watch found no slot. -/
def State.noteFull : Nat → State → Reply → State
  | n + 1, s, .agg id =>
    match s.penOps.find? (fun o => decide (o.id = id)) with
    | some o => State.noteFull n { s with penOps := s.penOps.map (fun u => if u.id = id then { u with full := true } else u) }
        o.reply
    | none => s
  | _, s, _ => s

/-- A WATCH refused for want of a slot at shed `sh` (R141, R144, R393): an error event at its issuer here; of a WATCH from
another module an entry in the log of the partition that owns the shed, one for each pen operation.  The refusal of a
sub-watch is reported when the whole WATCH has been undone. -/
def State.watchFull (s : State) (sh : Nat) (m : Mesh) : State :=
  let note : State → State := fun s => s.logPart ((s.owner sh).getD 0) 0x0503 2 0 sh m.target.toNat
  match m.reply with
  | .agg _ =>
    let s := match s.rootReply 20 m.reply with
      | .remote _ _ _ _ _ => if s.fullAbove 20 m.reply then s else note s
      | _ => s
    (s.noteFull 20 m.reply).reply m.reply 0
  | .remote _ _ _ _ _ => (note s).reply m.reply 0
  | r => (s.reportError m.part 0x0503 m.stall m.kind m.idx m.target.toNat 0 0).reply r 0

/-- The flags of this module among the members of pen `i` that partition `p` may name (R26, R142). -/
def State.penFlags (s : State) (p i : Nat) : List Nat :=
  ((s.penMembers i).map BitVec.toNat).filterMap (fun a =>
    if uaLocal a && decide (uaKind a = 2) then
      (match s.resolveHere p a [2] with | .plain _ j => some j | _ => none)
    else none)

/-- Those of shed `sh`, by number, and the sheds that hold some. -/
def State.groupFlags (s : State) (p i sh : Nat) : List Nat :=
  (s.penFlags p i).filterMap (fun j => if j / 4096 = sh then some (j % 4096) else none)
def State.groupSheds (s : State) (p i : Nat) : List Nat :=
  (List.range 32).filter (fun k => !(s.groupFlags p i k).isEmpty)

/-- The flags of other modules among the members of pen `i`, and the module, partition and shed of one. -/
def State.farFlags (s : State) (i : Nat) : List Nat :=
  ((s.penMembers i).map BitVec.toNat).filter (fun a => !(uaLocal a) && decide (uaKind a = 2))
def farShed (a : Nat) : Nat × Nat × Nat := (uaDevice a, uaPart a, uaIndex a / 4096)

/-- The other members of a barrier's pen: pens, and addresses that resolve to nothing. -/
def State.otherMembers (s : State) (p i : Nat) : List Nat :=
  ((s.penMembers i).map BitVec.toNat).filter (fun a =>
    !(decide (uaKind a = 2) && (!(uaLocal a) || decide (uaIndex a ∈ s.penFlags p i))))

/-- A watch slot for operation `m`. -/
def mkWatch (m : Mesh) (wid : Nat) (kind : WatchKind) : Watch :=
  { id := 0, wid := BitVec.ofNat 64 wid, part := partKey m.dev m.part, value := decide (m.n % 2 = 1), queue := m.a2,
    event := m.data.setWidth 256, kind := kind, fired := false, stall := m.stall }

/-- A leaf of a barrier on another module: the first of its pen and shed arms a group sub-watch for all that the event
announces, the others join it (R143, R282; log 48). -/
def State.armFar (s : State) (m : Mesh) : State :=
  let sh := m.idx / 4096
  let f := m.idx % 4096
  let u : UpRef := { dev := m.dev, part := uaPart m.a2.toNat, index := uaIndex m.a2.toNat, id := bits m.data.toNat 64 64 }
  let wait := if (s.shed sh).flag f = decide (m.n % 2 = 1) then [] else [f]
  let more := bits m.data.toNat 128 32 - 1
  match (s.shed sh).watches.findSome? (fun w => match w.kind with
      | .group ws more v => if v = u ∧ 0 < more then some (w.id, ws, more) else none
      | _ => none) with
  | some (id, ws, more) => (s.setGroup sh id (dedup (ws ++ wait)) (more - 1) u).reply m.reply 1
  | none =>
    match s.arm sh (mkWatch m 0 (.group wait more u)) with
    | none => s.watchFull sh m
    | some t => (t.setGroup sh s.ctr wait more u).reply m.reply 1

/-- WATCH_ARM (R138, R141, R143): arms a watch on a flag, which fires at once if the flag holds the value, or a group
sub-watch over a pen's flags of one shed. -/
def execWatchArm (k : Nat) (s : State) : Out1 :=
  onMesh k (fun m => decide (m.op = .watch ∧ (m.kind = 2 ∨ (m.kind = 7 ∧ 2 ≤ m.n)))) s fun s m =>
    if m.kind = 2 then
      if m.dev.isSome ∧ 1 ≤ m.depth then .next (s.armFar m)
      else
        let sh := m.idx / 4096
        let wid := s.newWid
        let w := mkWatch m wid (.plain (m.idx % 4096))
        match (s.giveWid wid).arm sh w with
        | none => .next (s.watchFull sh m)
        | some t =>
          let t := if s.flag m.idx = w.value then t.fire sh { w with id := s.ctr } else t
          .next (t.reply m.reply (BitVec.ofNat 64 wid))
    else
      let sh := m.a2.toNat
      let up : UpRef := { dev := none, part := m.part % 32, index := m.idx,
                          id := match m.reply with | .agg id => id | _ => 0 }
      let v := decide (m.n % 2 = 1)
      let wait := dedup ((s.groupFlags m.part m.idx sh).filter (fun f => decide ((s.shed sh).flag f ≠ v)))
      match s.arm sh (mkWatch m 0 (.group wait 0 up)) with
      | none => .next (s.watchFull sh m)
      | some t => .next ((t.setGroup sh s.ctr wait 0 up).reply m.reply 1)

/-- Whether CANCEL `m` names watch `w` of shed `sh`, which has not fired: by the identifier known to the partition that
armed it (R140), or as the sub-watch of a barrier of another module that the pen above cancels (R143, R282). -/
def cancels (m : Mesh) (sh : Nat) (w : Watch) : Bool :=
  !w.fired &&
  (if m.dev.isSome ∧ 1 ≤ m.depth then
     (match w.kind with
      | .group _ _ u => decide (m.kind = 2 ∧ m.idx / 4096 = sh ∧ u.dev = m.dev ∧ u.part = m.part ∧ u.id = m.a2.toNat)
      | .pen i _ u => decide (m.kind = 7 ∧ m.idx = i ∧ u.dev = m.dev ∧ u.part = m.part ∧ u.id = m.a2.toNat)
      | _ => false)
   else
     decide (w.wid = m.a2 ∧ m.a2 ≠ 0 ∧ w.part = partKey m.dev m.part) &&
     (match w.kind with | .plain _ => true | .top _ _ => true | _ => false))

/-- A refused WATCH on a pen is undone (R144): its sub-watches are disarmed, then it returns 0; the want of a slot is
reported at the issuer, anything else to an issuer on another module as E_UNIT (log 48). -/
def State.undoWatch (s : State) (m : Mesh) : Option State :=
  let id := m.a2.toNat
  match m.reply with
  | .remote d p tag home a =>
    if m.n = 1 then s.disarm id 0 m.reply
    else (s.send { kind := pkMessage, sub := 5, err := true, dev := d, part := p, src := home, tag := tag, code := 0x0905,
                   addr := a.toNat } []).disarm id 0 .none
  | .stall _ _ =>
    (if m.n = 1 then s.reportError m.part 0x0503 m.stall m.kind m.idx m.target.toNat 0 0 else s).disarm id 0 m.reply
  | _ => s.disarm id 0 m.reply

/-- CANCEL (R135, R140, R142): frees an armed watch that has not fired and returns 1, otherwise 0; a barrier's CANCEL returns
when every sub-watch is disarmed, and a watch armed on another module is cancelled there.  A refused WATCH on a pen is
undone in the same way. -/
def execWatchCancel (k : Nat) (s : State) : Out1 :=
  match s.mesh[k]? with
  | none => .next s
  | some m =>
    if (m.op ≠ .cancel ∧ m.op ≠ .undo) ∨ s.leafTurn k m = false then .next s
    else
      let s' := { s with mesh := removeAt s.mesh k }
      let r : Option State :=
        if m.op = .undo then s'.undoWatch m
        else match s.allWatches.find? (fun e => cancels m e.1 e.2) with
        | some e => s'.disarm e.2.id 1 m.reply
        | none =>
          match s.fabric.homes.find? (fun h => decide (m.dev = none ∧ h.1 = m.part ∧ h.2.1 = m.a2.toNat)) with
          | some h =>
            { s' with fabric := { s'.fabric with homes := s'.fabric.homes.filter (fun g => decide (g ≠ h)) } }.sendOp m
              h.2.2 0 m.reply
          | none => some (s'.reply m.reply 0)
      match r with
      | some t => .next t
      | none => .next s

/-! ### Pens -/

/-- Whether the leaves of a pen that this module knows fit the operation (R27, R160, E_PEN_KIND). -/
def State.penFits (s : State) (i : Nat) (op : MOp) : Bool := (s.leafKinds 9 i).all (fun k => decide (k ∈ op.fits))

/-- A pen operation that is not performed (R29, R160): reported where it was issued, and in this module's logs. -/
def State.penFail (s : State) (m : Mesh) (code : Nat) : State :=
  let p := (s.owner (m.idx / 512)).getD 0
  let s := if code = 0x0504 then s.logModule code 2 (some p) 0 (m.idx / 512) m.target.toNat else s
  let s := if m.dev.isSome then s.logPart p code 2 7 m.idx m.target.toNat else s
  (s.rejectOp m code 0).giveTag m.stall m.tagId

/-- The leaf of a pen operation at a plain unit (R30). -/
def State.leafOp (s : State) (m : Mesh) (a i : Nat) (r : Reply) : State :=
  if m.op = .evpush ∨ m.op = .hpush ∨ m.op = .send then
    let kind : Nat := match m.op with | .hpush => 2 | .send => 3 | _ => m.n
    let ev : BitVec 256 := match m.op with | .hpush => m.a2.setWidth 256 | _ => m.data.setWidth 256
    { s with pushes := s.pushes ++ [{ queue := i, kind := BitVec.ofNat 4 kind, ev := ev, stall := m.stall, part := m.part % 32,
                                      reply := r, dev := m.dev }] }
  else { s with mesh := s.mesh ++ [{ m with target := BitVec.ofNat 64 a, reply := r }] }

/-- Forward a pen operation to one member (R30, R282): an address that resolves to nothing is reported at the issuer
(R26). -/
def State.forwardMember (s : State) (m : Mesh) (p depth : Nat) (r : Reply) (a : Nat) : Option State :=
  let bad : Nat → State := fun f => (s.rejectOp { m with target := BitVec.ofNat 64 a, reply := .none } 0x0506 f).reply r 0
  if uaLocal a then
    match s.resolveHere p a m.op.fits with
    | .plain _ i => some (s.leafOp m a i r)
    | .pen _ => some { s with mesh := s.mesh ++ [{ m with target := BitVec.ofNat 64 a, depth := depth, reply := r }] }
    | _ => some (bad 0)
  else if m.op = .mx ∨ m.op = .ucmd then some (bad 0)
  else if s.routable (uaDevice a) = false then some (bad 0x0906)
  else s.sendOp { m with part := p, dev := none } a depth r

/-- Forward to every member in list order. -/
def State.forwardAll (s : State) (m : Mesh) (p depth : Nat) (r : Reply) (ms : List Nat) : Option State :=
  ms.foldlM (fun s a => s.forwardMember m p depth r a) s

/-- WATCH on a pen (R142-R144): a sub-watch at the pen's home, then a group for each shed with leaves, here or on another
module, and one for each other member. -/
def State.penWatch (s : State) (m : Mesh) (p depth : Nat) : Option State :=
  let i := m.idx
  let sh := i / 512
  let id := s.ctr
  let sheds := s.groupSheds p i
  let far := s.farFlags i
  let others := s.otherMembers p i
  let n := sheds.length + (dedup (far.map farShed)).length + others.length
  let top := decide (m.depth = 0)
  let wid := if top then s.newWid else 0
  let kind : WatchKind :=
    if top then .top i n
    else match m.reply with
      | .agg up => .pen i n { dev := none, part := p, index := i, id := up }
      | _ => .pen i n { dev := m.dev, part := uaPart m.a2.toNat, index := uaIndex m.a2.toNat,
                        id := bits m.data.toNat 64 64 }
  match (if top then s.giveWid wid else s).arm sh (mkWatch m wid kind) with
  | none => some (s.watchFull sh m)
  | some t =>
    let o : PenOp := { id := id, left := sheds.length + far.length + others.length, acc := true,
                       wid := if top then wid else 1, isWatch := true, reply := m.reply, part := m.part, stall := m.stall,
                       target := m.target }
    let r := Reply.agg id
    let groups := sheds.map (fun k => { m with a2 := BitVec.ofNat 64 k, n := m.n % 2 + 2, reply := r, dev := none, part := p })
    let t := { t with penOps := t.penOps ++ [o], mesh := t.mesh ++ groups }
    let sub : Nat → Mesh := fun total =>
      { m with a2 := BitVec.ofNat 64 (uaMake p 7 i), data := BitVec.ofNat 1024 (id * 2 ^ 64 + total * 2 ^ 128),
               depth := depth }
    (far.foldlM (fun (u : State) a => u.forwardMember (sub (far.filter (fun b => decide (farShed b = farShed a))).length) p depth r a)
      t).bind (fun t => t.forwardAll (sub 0) p depth r others)

/-- Whether the operation at the control mesh is addressed to a pen and not yet expanded. -/
def Mesh.toPen (m : Mesh) : Bool :=
  decide (m.kind = 7 ∧ m.op ≠ .report ∧ m.op ≠ .cancel ∧ m.op ≠ .undo) && !(decide (m.op = .watch) && decide (2 ≤ m.n))

/-- PEN_OPERATION (R29, R30, R142): the operation at place `k` of the mesh is expanded at its pen's home shed. -/
def execPenOperation (k : Nat) (s : State) : Out1 :=
  match s.mesh[k]? with
  | none => .next s
  | some m =>
    if m.toPen = false ∨ s.leafTurn k m = false then .next s
    else
      let s' := { s with mesh := removeAt s.mesh k }
      let p := (s.owner (m.idx / 512)).getD 0
      if 8 < m.depth + 1 then .next (s'.penFail m 0x0504)
      else if s.penFits m.idx m.op = false then .next (s'.penFail m 0x0505)
      else if m.op = .watch then
        (match s'.penWatch m p (m.depth + 1) with
         | some t => .next t
         | none => .next s)
      else
        let ms := (s.penMembers m.idx).map BitVec.toNat
        let o : PenOp := { id := s.ctr, left := ms.length, acc := true, wid := 0, isWatch := false, reply := m.reply }
        let t := { s'.tick1 with penOps := s'.penOps ++ [o] }
        match t.forwardAll m p (m.depth + 1) (.agg s.ctr) ms with
        | some t => .next (t.giveTag m.stall m.tagId)
        | none => .next s

/-- The watch with identity `id`. -/
def State.watchById (s : State) (id : Nat) : Option (Nat × Watch) := s.allWatches.find? (fun e => decide (e.2.id = id))

/-- PEN_SUBWATCH_REPORT (R143): a report reaches the sub-watch above; the last one makes that sub-watch report in turn,
or the top-level watch fire. -/
def execPenSubwatchReport (k : Nat) (s : State) : Out1 :=
  onMesh k (fun m => decide (m.op = .report)) s fun s m =>
    match s.watchById m.a2.toNat with
    | none => .next s
    | some (sh, w) =>
      let setKind : WatchKind → State := fun kd => s.modShed sh (fun x =>
        { x with watches := x.watches.map (fun u => if u.id = w.id then { u with kind := kd } else u) })
      match w.kind with
      | .pen i n u => if n ≤ 1 then .next ((s.freeSlot sh w.id).report sh u) else .next (setKind (.pen i (n - 1) u))
      | .top i n => if w.fired then .next s else if n ≤ 1 then .next (s.fire sh w) else .next (setKind (.top i (n - 1)))
      | _ => .next s

/-! ### Pushes -/

/-- Whether a push goes to a delay list rather than at once to its target (R155); a handle has no delay (R150). -/
def Push.delayed (q : Push) : Bool := decide (q.kind.toNat ≠ kindHandle ∧ evDelay q.ev ≠ 0)

/-- A push is refused: an error at its issuer, who waits no longer (R149, R160). -/
def State.pushRefused (s : State) (q : Push) (code kd : Nat) : State :=
  let home := match q.dev with | none => q.part | some _ => (s.owner (kindShed kd q.queue)).getD 0
  (s.rejectOp { ownOp .evpush (uaMake home kd q.queue) 0 q.part with stall := q.stall, dev := q.dev } code 0).reply q.reply 1

/-- Offer the held push at place `k` to its target: accepted, refused with an error event, or waiting (R139, R149). -/
def State.offer (s : State) (k : Nat) (mail : Bool) : State :=
  match s.pushes[k]? with
  | none => s
  | some q =>
    let isMail := decide (q.kind = 3)
    if isMail ≠ mail ∨ (s.pushes.take k).any (fun u =>
        decide (u.queue = q.queue ∧ (decide (u.kind = 3)) = isMail ∧ u.delayed = q.delayed)) then s
    else
      let s' := { s with pushes := removeAt s.pushes k }
      let go : State → Accept := fun s =>
        if mail then s.pushMail q.queue q.stall q.part q.ev else s.pushQueue q.queue q.kind.toNat q.stall q.part q.ev
      match go s' with
      | .ok t => t.reply q.reply 1
      | .refuse code => s'.pushRefused q code (if mail then 1 else 3)
      | .wait _ => match go s with | .wait t => t | _ => s

/-- EVENT_PUSH (R149): the held push at place `k` is accepted by its queue, refused, or goes on waiting. -/
def execEventPush (k : Nat) (s : State) : Out1 := .next (s.offer k false)
/-- MAILBOX_DELIVERY (R119): the held message at place `k` reaches its mailbox, or goes on waiting. -/
def execMailboxDelivery (k : Nat) (s : State) : Out1 := .next (s.offer k true)

end Sys2Proof.Machine
end

