-- ==== Sys2Proof/Machine/Units.lean ====
section
/-!
DEFINITION. What the command units of a shed and the row engines share: arrival of a command or descriptor from the
control mesh, the checks of its completion fields, the completion itself (R72, R73, R92, R145, R149, R150), and
index-value runs (R81, R223, R225).
-/

namespace Sys2Proof.Machine

/-! ### Completion fields (R72) -/

def dCmpl (d : Nat) : Nat := bits d 8 2
def dIndex (d : Nat) : Nat := bits d 192 32
def dGen (d : Nat) : Nat := bits d 224 16

/-- The first 8 bytes of a command (R93, R160). -/
def Desc.head (d : Desc) : Nat := d.bits.toNat % 2 ^ 64

/-- Whether a completion names no flag or queue of partition `p` (E_TARGET, R92). -/
def State.badTarget (s : State) (p d : Nat) : Bool :=
  match dCmpl d with
  | 1 => decide (131072 ≤ dIndex d) || !(s.owns p (dIndex d / 4096))
  | 2 => decide (32768 ≤ dIndex d) || !(s.owns p (dIndex d / 1024))
  | _ => false

/-- A buffer handle (R150).  A size of 2²⁵ bytes, the whole loft, does not fit SIZE, which then reads 0 (log 54). -/
def handleOf (addr shed size gen : Nat) : Nat :=
  (addr / 32) % 2 ^ 20 + (shed % 32) * 2 ^ 20 + (size / 4 % 2 ^ 23) * 2 ^ 25 + (gen % 2 ^ 16) * 2 ^ 48

/-- Perform the completion of a command: nothing, a flag set, or a handle push, which may have to wait (R73, R145, R149). -/
def State.signal (s : State) (d : Desc) (handle : Nat) : Accept :=
  let i := dIndex d.bits.toNat
  match dCmpl d.bits.toNat with
  | 1 => .ok (s.writeFlag i true)
  | 2 =>
    match s.pushQueue i kindHandle d.stall d.part (BitVec.ofNat 256 handle) with
    | .refuse code => .ok (s.reportError d.part code d.stall 3 i (uaMake d.part 3 i) 0 0)
    | r => r
  | _ => .ok s

/-- The error event of a command or descriptor that failed, with its log entry (R93, R160, R192, R228). -/
def State.failDesc (s : State) (d : Desc) (code kind idx entry fcode : Nat) : State :=
  s.reportError d.part code d.stall kind idx d.head entry fcode

/-- The descriptor an operation carries. -/
def Mesh.desc (m : Mesh) : Desc :=
  { bits := m.data, n := m.n, stall := m.stall, pc := m.pc, part := m.part, tagId := m.tagId }

/-- A command or descriptor of the control mesh at place `k` reaches its unit: `ok` says which; `full` holds it back;
`enter` takes it (R74, R120, R190). -/
def arrive (k : Nat) (ok : Mesh → Bool) (full : State → Mesh → Bool) (enter : State → Mesh → State) (s : State) : Out1 :=
  match s.mesh[k]? with
  | none => .next s
  | some m =>
    if ok m = false ∨ s.leafTurn k m = false ∨ full s m then .next s
    else .next ((enter { s with mesh := removeAt s.mesh k } m).reply m.reply 1)

/-! ### Index-value runs (R81, R223, R225) -/

/-- One run at the front of `bs`, with values of `es` bytes: its elements and its length; none when it is malformed or
passes the end. -/
def parseRun (es : Nat) (bs : List Byte) : Option (List (Nat × Nat) × Nat) :=
  let start := field bs 0 4
  let c := field bs 4 2
  let v0 := roundUp (8 + 2 * c) es
  let len := roundUp (v0 + c * es) 4
  let offs := (List.range c).map (fun j => field bs (8 + 2 * j) 2)
  if c = 0 ∨ 4096 < c ∨ bs.length < len ∨ rising offs = false then none
  else some ((List.range c).map (fun j => (start + field bs (8 + 2 * j) 2, field bs (v0 + j * es) es)), len)

/-- The runs of one row (R81): none when one is malformed or the indices do not increase. -/
def parseRow (es : Nat) : Nat → List Byte → Option (List (Nat × Nat))
  | _, [] => some []
  | 0, _ => none
  | n + 1, bs =>
    match parseRun es bs with
    | none => none
    | some (xs, len) =>
      match parseRow es n (bs.drop len) with
      | none => none
      | some ys => if rising ((xs ++ ys.take 1).map Prod.fst) then some (xs ++ ys) else none

/-- Cut elements into runs: at most 4,096 elements, no index beyond START + 65,535 (R225). -/
def cutRuns : List (Nat × Nat) → List (List (Nat × Nat))
  | [] => []
  | e :: es =>
    (es.foldl (fun (acc : List (List (Nat × Nat))) x =>
      match acc with
      | [] => [[x]]
      | r :: rs =>
        let start := ((r.getLast?).getD x).1
        if r.length < 4096 ∧ start ≤ x.1 ∧ x.1 ≤ start + 65535 then (x :: r) :: rs else [x] :: r :: rs) [[e]]).reverse.map
      List.reverse

/-- The bytes of one run (R223). -/
def runBytes (es : Nat) (r : List (Nat × Nat)) : List Byte :=
  let start := (r.headD (0, 0)).1
  let a := toBytes 4 start ++ toBytes 2 r.length ++ zeros 2 ++ r.flatMap (fun e => toBytes 2 (e.1 - start))
  let a := a ++ zeros (roundUp a.length es - a.length) ++ r.flatMap (fun e => toBytes es e.2)
  a ++ zeros (roundUp a.length 4 - a.length)

/-- The runs of a row's elements. -/
def rowRuns (es : Nat) (xs : List (Nat × Nat)) : List Byte := (cutRuns xs).flatMap (runBytes es)

end Sys2Proof.Machine
end

