-- ==== Sys2Proof/Machine/Groom.lean ====
section
/-!
DEFINITION. The groom: delay list, dispatch, and the sleep of a shed (R32, R33, R117, R147, R151-R156).
-/

namespace Sys2Proof.Machine

/-- A delay-list entry of shed `sh` offered to its queue or mailbox (R149, R155). -/
def State.offerDelayed (s : State) (sh : Nat) (d : Delayed) : Accept :=
  match d.target with
  | .queue q => s.enqueue sh q d.kind.toNat d.ev
  | .mail t => s.enmail t d.ev

/-- Whether due entry `e` lets a later due entry for `g` pass: it has another target, and that one is full (R155). -/
def State.letsPass (s : State) (sh : Nat) (e : Delayed) (g : DTarget) : Bool :=
  decide (e.target ≠ g) && (match s.offerDelayed sh e with | .wait _ => true | _ => false)

/-- DELAY_ENTRY_DUE (R155): entry `k` of shed `sh`'s delay list is due and moves to its queue or mailbox if that accepts
it; due entries move in list order, but for those whose target is full. -/
def execDelayEntryDue (sh k : Nat) (s : State) : Out1 :=
  if 32 ≤ sh then .fault .noSuchUnit
  else
    let x := s.shed sh
    match x.delay[k]? with
    | none => .next s
    | some d =>
      if isDue s d = false ∨ (x.delay.take k).any (fun e => isDue s e && !(s.letsPass sh e d.target)) then .next s
      else
        match s.offerDelayed sh d with
        | .ok t => .next (t.modShed sh (fun y => { y with delay := removeAt y.delay k }))
        | .wait t => .next t
        | .refuse _ => .next s

/-! ### Dispatch -/

/-- An event that may be dispatched: its queue (0x400 + local stall for a mailbox), its place there, and who may take it. -/
structure Cand where
  queue : Nat
  place : Nat
  ev    : Event
  takers : List Nat
  deriving DecidableEq, Repr

/-- Whether an event of `items` at place `i` is held back by its order key (R152 rule 3). -/
def keyHeld (items : List Event) (i : Nat) (e : Event) (busy : BitVec 16 → Bool) : Bool :=
  decide (e.key ≠ 0) && (busy e.key || (items.take i).any (fun f => decide (f.key = e.key)))

/-- Candidates among the items of one queue or mailbox. -/
def candsOf (queue : Nat) (items : List Event) (busy : BitVec 16 → Bool) (takers : List Nat) : List Cand :=
  (List.range items.length).filterMap (fun i =>
    match items[i]? with
    | some e => if keyHeld items i e busy then none else some { queue := queue, place := i, ev := e, takers := takers }
    | none => none)

/-- Whether a stall of shed `k` holds an unretired event of queue `q` with order key `key` (R152 rule 3). -/
def State.keyBusy (s : State) (k q : Nat) (key : BitVec 16) : Bool :=
  (List.range 32).any (fun i => decide ((s.stall (32 * k + i)).cur = some (q, key.toNat)))

/-- Every dispatchable event of shed `k` (R151, R152). -/
def State.cands (s : State) (k : Nat) : List Cand :=
  match s.owner k with
  | none => []
  | some p =>
    if s.partRuns p = false then []
    else
      let x := s.shed k
      let qs := x.queues.flatMap (fun e =>
        let q := e.2
        if x.isPartner e.1 then []
        else if qJoined q ∧ (x.queue (qPartner q)).items = [] then []
        else candsOf e.1 q.items (s.keyBusy k e.1) ((List.range 32).filter (fun i => bit (qConsumers q) i)))
      let ms := (List.range 32).flatMap (fun i =>
        candsOf (0x400 + i) (s.stall (32 * k + i)).mail (fun _ => false) [i])
      qs ++ ms

/-- Order of the ready events: priority, then acceptance (R153). -/
def Cand.le (a b : Cand) : Bool :=
  decide (a.ev.prio < b.ev.prio) || (decide (a.ev.prio = b.ev.prio) && decide (a.ev.stamp ≤ b.ev.stamp))

/-- The stall of `is` that has waited longest in GET_WORK (R153). -/
def State.longest (s : State) (k : Nat) (is : List Nat) : Option Nat :=
  (is.foldl (fun (best : Option (Nat × Nat)) i =>
    match (s.stall (32 * k + i)).mode with
    | .getWork _ _ since =>
      (match best with
       | some (_, b) => if since < b then some (i, since) else best
       | none => some (i, since))
    | _ => best) none).map Prod.fst

/-- The event as the groom delivers it (R147, R151). -/
def dispatchWord (queue : Nat) (e : Event) (partner : Nat) : BitVec 256 :=
  BitVec.ofNat 256 (queue % 2 ^ 11 + e.prio.toNat * 2 ^ 11 + e.key.toNat * 2 ^ 16 + e.kind.toNat * 2 ^ 32 +
    (e.h.toNat + partner * 2 ^ 64) % 2 ^ 192 * 2 ^ 64)

/-- Hand a candidate to local stall `i` of shed `k` (R117, R151). -/
def State.deliverTo (s : State) (k : Nat) (c : Cand) (i : Nat) : State :=
  let t := 32 * k + i
  let mail := decide (0x400 ≤ c.queue)
  let src := if mail then 0x400 else c.queue
  let x := s.shed k
  let q := x.queue c.queue
  let pq := x.queue (qPartner q)
  let joined := !mail && qJoined q
  let partner := if joined then (match pq.items with | e :: _ => bits e.h.toNat 0 64 | [] => 0) else 0
  let s :=
    if mail then s.modStall t (fun y => { y with mail := removeAt y.mail c.place })
    else
      let x := x.setQueue c.queue { q with items := removeAt q.items c.place }
      s.setShed k (if joined then x.setQueue (qPartner q) { pq with items := pq.items.drop 1 } else x)
  let s := s.modStall t (fun y =>
    match y.mode with
    | .getWork d v _ =>
      let y := (y.setG (BitVec.ofNat 5 d) (BitVec.ofNat 64 src)).setV (BitVec.ofNat 5 v)
        ((dispatchWord src c.ev partner).setWidth 1024)
      { y with mode := .running, cur := some (src, c.ev.key.toNat) }
    | _ => y)
  s.touch k

/-- PERF_n that counts the dispatches of a yard's grooms counts this one (R387). -/
def State.countDispatch (s : State) (k : Nat) : State :=
  (List.range 16).foldl (fun s n =>
    let c := s.obj (kPerfSel n)
    if bits c 0 4 = 2 ∧ bits c 4 2 = k / 8 then s.setPerf n { s.perf n with count := (s.perf n).count + 1 } else s) s

/-- DISPATCH (R153): the groom of shed `sh` delivers the first ready event that has an eligible stall waiting. -/
def execDispatch (sh : Nat) (s : State) : Out1 :=
  if 32 ≤ sh then .fault .noSuchUnit
  else if (s.shed sh).asleep then .next s
  else
    let cs := sortBy Cand.le (s.cands sh)
    match cs.findSome? (fun c => (s.longest sh c.takers).map (fun i => (c, i))) with
    | some (c, i) => .next ((s.deliverTo sh c i).countDispatch sh)
    | none => .next s

/-! ### Sleep -/

/-- Whether stall `t` is waiting for work, or was never started (R32, R350). -/
def State.stallIdle (s : State) (t : Nat) : Bool :=
  match (s.stall t).mode with
  | .getWork _ _ _ => true
  | .parked => true
  | _ => false

/-- Whether a DMA engine is idle with nothing queued. -/
def Dma.idle (d : Dma) : Bool := d.queue.isEmpty && d.cur.isNone

/-- Whether an MXA executes and queues nothing. -/
def Mxa.idle (m : Mxa) : Bool :=
  m.queue.isEmpty && m.load.isNone && m.stream.isNone && m.drain.isNone && m.ctrl.isNone

/-- The conditions of R32, but for their 20 µs. -/
def State.quiet (s : State) (k : Nat) : Bool :=
  let x := s.shed k
  (List.range 32).all (fun i => s.stallIdle (32 * k + i) && decide ((s.stall (32 * k + i)).tags (32 * k + i) = 0)) &&
  (s.cands k).isEmpty && x.mxa.idle && x.dma.idle && x.sampler.queue.isEmpty && x.sampler.cur.isNone

/-- SHED_SLEEP (R32): the shed sleeps once its conditions have held for 20 µs. -/
def execShedSleep (sh : Nat) (s : State) : Out1 :=
  if 32 ≤ sh then .fault .noSuchUnit
  else if s.quiet sh ∧ (s.shed sh).busyAt + 20000 ≤ s.clock then
    .next (s.modShed sh (fun x => { x with asleep := true }))
  else .next s

/-- Whether something wakes shed `k` (R33). -/
def State.wakes (s : State) (k : Nat) : Bool :=
  let x := s.shed k
  !(s.cands k).isEmpty || !x.mxa.queue.isEmpty || !x.dma.queue.isEmpty || !x.sampler.queue.isEmpty ||
  x.delay.any (fun d => decide (dueIn s d ≤ 2))

/-- SHED_WAKE (R33): a sleeping shed wakes; its 20 µs begin again. -/
def execShedWake (sh : Nat) (s : State) : Out1 :=
  if 32 ≤ sh then .fault .noSuchUnit
  else if (s.shed sh).asleep ∧ s.wakes sh then
    .next (s.modShed sh (fun x => { x with asleep := false, busyAt := s.clock }))
  else .next s

end Sys2Proof.Machine
end

