-- ==== Sys2Proof/Machine/Mxa.lean ====
section
/-!
DEFINITION. The matrix array: its commands, their checks, streams, promotions and drains (R67-R95, R402).

The arithmetic and the loft writes of a command are made when it starts; its completion, and the emptying of a drained
tile, when it completes.
-/

namespace Sys2Proof.Machine

/-! ### Formats (R69, R70) -/

/-- Element size of a format code in bits; 0 for a reserved code. -/
def mxaBits (f : Nat) : Nat :=
  match f with
  | 0 => 32
  | 1 => 16
  | 2 => 16
  | 3 => 8
  | 4 => 8
  | 5 => 8
  | 6 => 8
  | 7 => 8
  | 8 => 6
  | 9 => 6
  | 10 => 4
  | 11 => 8
  | _ => 0

/-- Group of a format code: 0 F32, 1 F16, 2 F8, 3 I8, 4 MX; none for a reserved code. -/
def mxaGroup (f : Nat) : Option Nat :=
  match f with
  | 0 => some 0
  | 1 => some 1
  | 2 => some 1
  | 3 => some 2
  | 4 => some 2
  | 5 => some 3
  | 6 => some 4
  | 7 => some 4
  | 8 => some 4
  | 9 => some 4
  | 10 => some 4
  | 11 => some 4
  | _ => none

/-- Whether a format code lies in the MX group. -/
def mxaIsMx (f : Nat) : Bool := mxaGroup f == some 4

/-- The value of an element code of format `f`, without its block scale. -/
def mxaVal (f code : Nat) : FVal :=
  match f with
  | 0 => fp32.decode code
  | 1 => bf16.decode code
  | 2 => fp16.decode code
  | 3 => e4m3.decode code
  | 4 => e5m2.decode code
  | 5 => fOfInt (toInt 8 code)
  | _ => mxElem (f - 6) code

/-- Bytes of a row of `n` elements. -/
def rowBytes (f n : Nat) : Nat := ceilDiv (n * mxaBits f) 8

/-! ### Loft operands (R71) -/

/-- Bytes of shed `k`'s loft. -/
def State.loft (s : State) (k off n : Nat) : List Byte := s.getBytes (loftKey k off) n
def State.loftNum (s : State) (k off n : Nat) : Nat := ofBytes (s.loft k off n)
def State.putLoft (s : State) (k off : Nat) (bs : List Byte) : State := s.putBytes (loftKey k off) bs

/-- Elements 0 to `n` − 1 of a row packed as one bit string. -/
def State.rowElems (s : State) (k off f n : Nat) : List Nat :=
  let v := s.loftNum k off (rowBytes f n)
  (List.range n).map (fun i => bits v (i * mxaBits f) (mxaBits f))

/-! ### Fields of the commands (R75, R76, R78, R82) -/

def mxOp (c : Nat) : Nat := bits c 0 8
def mxSlot (c : Nat) : Bool := bit c 10
def mxTile (c : Nat) : Bool := bit c 11
def mxFmtF (c : Nat) : Nat := bits c 12 4
-- MX.LOADW
def lwIdxv (c : Nat) : Bool := bit c 11
def lwK (c : Nat) : Nat := bits c 16 7 + 1
def lwAxis (c : Nat) : Bool := bit c 23
def lwN (c : Nat) : Nat := 32 * (bits c 24 4 + 1)
def lwW (c : Nat) : Nat := bits c 32 25
def lwPitch (c : Nat) : Nat := bits c 64 16
def lwScale (c : Nat) : Nat := bits c 96 25
def lwIdx (c : Nat) : Nat := bits c 128 25
def lwBase (c : Nat) : Nat := bits c 160 32
/-- Entries of the index list. -/
def lwEntries (c : Nat) : Nat := if lwAxis c then lwN c else lwK c
-- MX.STREAM and MX.SPSTREAM
def stRows (c : Nat) : Nat := bits c 16 8 + 1
def stP (c : Nat) : Nat := bits c 24 6 + 1
def stInit (c : Nat) : Bool := bit c 30
def stTot (c : Nat) : Nat := bits c 128 25
def stAct (c : Nat) : Nat := bits c 32 25
def stActPitch (c : Nat) : Nat := bits c 64 16
def stTotPitch (c : Nat) : Nat := bits c 80 16
def stAscale (c : Nat) : Nat := bits c 96 25
def spMode (c : Nat) : Bool := bit c 31
def spRuns (c : Nat) : Nat := bits c 32 25
def spPtr (c : Nat) : Nat := bits c 64 25
def spAct (c : Nat) : Nat := bits c 96 25
def spTotPitch (c : Nat) : Nat := bits c 160 16
def spActPitch (c : Nat) : Nat := bits c 176 16
-- MX.DRAIN
def drFinal (c : Nat) : Bool := bit c 12
def drForm (c : Nat) : Bool := bit c 13
def drOfmt (c : Nat) : Nat := bits c 16 3
def drOut (c : Nat) : Nat := bits c 32 25
def drPitch (c : Nat) : Nat := bits c 64 25

/-- Bytes of an output element (R82). -/
def outSize (o : Nat) : Nat :=
  match o with
  | 0 => 4
  | 1 => 2
  | 2 => 2
  | 3 => 1
  | 4 => 1
  | 5 => 4
  | _ => 8

/-- Size of a loft in bytes. -/
def loftSize : Nat := 2 ^ 25

/-! ### Issue checks (R92, R402) -/

/-- Whether reserved bits, CMPL or reserved encodings are wrong (E_FIELD). -/
def mxBadField (c : Nat) : Bool :=
  decide (bits c 240 16 ≠ 0 ∨ dCmpl c = 3) ||
  (match mxOp c with
   | 1 => decide (bits c 28 4 ≠ 0 ∨ bits c 57 7 ≠ 0 ∨ bits c 80 16 ≠ 0 ∨ bits c 121 7 ≠ 0 ∨ bits c 153 7 ≠ 0)
   | 2 => decide (bits c 31 1 ≠ 0 ∨ bits c 57 7 ≠ 0 ∨ bits c 121 7 ≠ 0 ∨ bits c 153 39 ≠ 0)
   | 3 => decide (bits c 57 7 ≠ 0 ∨ bits c 89 7 ≠ 0 ∨ bits c 121 7 ≠ 0 ∨ bits c 153 7 ≠ 0)
   | 4 => decide (bits c 10 1 ≠ 0 ∨ bits c 14 2 ≠ 0 ∨ bits c 19 13 ≠ 0 ∨ bits c 57 7 ≠ 0 ∨ bits c 89 103 ≠ 0) ||
          (!(drFinal c) && (drForm c || decide (drOfmt c ≠ 0)))
   | 5 => decide (bits c 10 182 ≠ 0 ∨ dCmpl c = 2)
   | _ => true)

/-- Whether an address or pitch of the command is no multiple of 32, or a pitch is below its row (E_ALIGN at issue). -/
def mxBadAlign (c : Nat) : Bool :=
  let al : List Nat → Bool := fun xs => xs.any (fun x => decide (x % 32 ≠ 0))
  match mxOp c with
  | 1 => al ([lwW c, lwPitch c] ++ (if mxaIsMx (mxFmtF c) then [lwScale c] else []) ++
             (if lwIdxv c then [lwIdx c] else [])) || decide (lwPitch c < rowBytes (mxFmtF c) (lwN c))
  | 2 => al ([stAct c, stActPitch c, stTot c, stTotPitch c] ++ (if mxaIsMx (mxFmtF c) then [stAscale c] else []))
  | 3 => al ([spRuns c, spPtr c, stTot c, spTotPitch c] ++ (if spMode c then [spAct c, spActPitch c] else []))
  | 4 => al [drOut c, drPitch c]
  | _ => false

/-- Whether a region whose extent the command gives lies beyond the loft (E_BOUNDS at issue). -/
def mxBadBounds (c : Nat) : Bool :=
  match mxOp c with
  | 1 => decide (loftSize < lwW c + (lwK c - 1) * lwPitch c + rowBytes (mxFmtF c) (lwN c)) ||
         (mxaIsMx (mxFmtF c) && decide (loftSize < lwScale c + lwK c / 32 * lwN c)) ||
         (lwIdxv c && decide (loftSize < lwIdx c + 4 * lwEntries c))
  | 3 => decide (loftSize < spPtr c + 4 * (stRows c + 1))
  | _ => false

/-- The first issue check that a command of partition `p` fails; 0 for none (R402).  ROWS, K_ROWS and N_COLS cannot leave
their ranges in these fields, so E_DIM does not arise. -/
def State.mxIssueCheck (s : State) (p c : Nat) : Nat :=
  if mxBadField c then 0x0301
  else if mxOp c = 1 ∧ mxaIsMx (mxFmtF c) ∧ lwK c % 32 ≠ 0 then 0x0308
  else if mxBadAlign c then 0x0304
  else if mxBadBounds c then 0x0305
  else if s.badTarget p c then 0x030A
  else 0

/-! ### Failure (R93, R94) -/

def State.modMxa (s : State) (k : Nat) (f : Mxa → Mxa) : State := s.modShed k (fun x => { x with mxa := f x.mxa })
def State.mxa (s : State) (k : Nat) : Mxa := (s.shed k).mxa

/-- The MXA halts on a failure; `atStart` discards what is queued but for MX.RESET. -/
def State.mxFail (s : State) (k : Nat) (d : Desc) (code : Nat) (atStart : Bool) : State :=
  let s := s.modMxa k (fun m =>
    { m with halted := true,
             queue := if atStart then m.queue.filter (fun e => decide (mxOp e.bits.toNat = 5)) else m.queue,
             errCode := if m.halted then m.errCode else code,
             errOp := if m.halted then m.errOp else mxOp d.bits.toNat,
             errStall := if m.halted then m.errStall else d.stall })
  s.failDesc d code 4 k 0 0

/-! ### Arrival (R74) -/

/-- A command with OP `op` reaches its MXA: discarded while it is halted, failed at issue, or queued (R74, R92, R93). -/
def mxArrive (op k : Nat) (s : State) : Out1 :=
  arrive k (fun m => decide (m.op = .mx ∧ m.kind = 4 ∧ mxOp m.data.toNat = op))
    (fun s m => decide (32 ≤ (s.mxa m.idx).queue.length) && !((s.mxa m.idx).halted && decide (op ≠ 5)))
    (fun s m =>
      if (s.mxa m.idx).halted ∧ op ≠ 5 then s
      else
        let c := s.mxIssueCheck m.part m.data.toNat
        if c ≠ 0 then s.mxFail m.idx m.desc c false
        else (s.modMxa m.idx (fun x => { x with queue := x.queue ++ [m.desc] })).touch m.idx) s

/-- MX.LOADW arrives (R75). -/
def execMxLoadw (k : Nat) (s : State) : Out1 := mxArrive 1 k s
/-- MX.STREAM arrives (R76). -/
def execMxStream (k : Nat) (s : State) : Out1 := mxArrive 2 k s
/-- MX.SPSTREAM arrives (R78). -/
def execMxSpstream (k : Nat) (s : State) : Out1 := mxArrive 3 k s
/-- MX.DRAIN arrives (R82). -/
def execMxDrain (k : Nat) (s : State) : Out1 := mxArrive 4 k s
/-- MX.RESET arrives (R85). -/
def execMxReset (k : Nat) (s : State) : Out1 := mxArrive 5 k s

/-! ### Weights -/

def Mxa.slot (m : Mxa) (b : Bool) : Option Slot := if b then m.slot1 else m.slot0
def Mxa.setSlot (m : Mxa) (b : Bool) (v : Option Slot) : Mxa := if b then { m with slot1 := v } else { m with slot0 := v }
def Mxa.tile (m : Mxa) (b : Bool) : Option Tile := if b then m.tileB else m.tileA
def Mxa.setTile (m : Mxa) (b : Bool) (v : Option Tile) : Mxa := if b then { m with tileB := v } else { m with tileA := v }

/-- Indices of the tile of an MX.LOADW: the list, or BASE upward (R75). -/
def State.lwIndices (s : State) (k c : Nat) : List Nat :=
  if lwIdxv c then (List.range (lwEntries c)).map (fun i => s.loftNum k (lwIdx c + 4 * i) 4)
  else (List.range (lwEntries c)).map (fun i => lwBase c + i)

/-- Start of MX.LOADW: a failure code, or the slot it loads (R75, R402). -/
def State.loadSlot (s : State) (k c : Nat) : Nat × Slot :=
  let f := mxFmtF c
  let idx := s.lwIndices k c
  let slot : Slot :=
    { wfmt := f, kRows := lwK c, nCols := lwN c, axis := lwAxis c, idx := idx,
      w := (List.range (lwK c)).flatMap (fun r => s.rowElems k (lwW c + r * lwPitch c) f (lwN c)),
      sc := if mxaIsMx f then (s.loft k (lwScale c) (lwK c / 32 * lwN c)).map BitVec.toNat else [] }
  if mxaGroup f = none then (0x0303, slot)
  else if (if lwIdxv c then !(rising idx) else decide (2 ^ 32 < lwBase c + lwEntries c)) then (0x0309, slot)
  else (0, slot)

/-- Weight code at row `r` and column `n`. -/
def Slot.code (x : Slot) (r n : Nat) : Nat := (x.w[r * x.nCols + n]?).getD 0
/-- Scale of block `j` of column `n`. -/
def Slot.scale (x : Slot) (j n : Nat) : Nat := (x.sc[j * x.nCols + n]?).getD 0
/-- Column `n` as values with their scales. -/
def Slot.col (x : Slot) (n : Nat) : List FVal :=
  (List.range x.kRows).map (fun r =>
    let v := mxaVal x.wfmt (x.code r n)
    if mxaIsMx x.wfmt then v.mul (e8m0 (x.scale (r / 32) n)) else v)
/-- Column `n` as integers (R55). -/
def Slot.colInt (x : Slot) (n : Nat) : List Int := (List.range x.kRows).map (fun r => toInt 8 (x.code r n))
/-- Whether a scale of column `n` is NaN. -/
def Slot.nanCol (x : Slot) (n : Nat) : Bool :=
  mxaIsMx x.wfmt && (List.range (x.kRows / 32)).any (fun j => decide (x.scale j n = 0xFF))

/-! ### Tiles, runs and promotions (R53-R55, R77, R83, R90) -/

/-- Place of element (i, n) in a tile's arrays. -/
def tix (i n : Nat) : Nat := 512 * i + n

def Tile.run (t : Tile) (i n : Nat) : Nat := FMap.get (fun _ => 0) t.runs (tix i n)
def Tile.hit (t : Tile) (i n : Nat) : Bool := FMap.get (fun _ => false) t.touched (tix i n)

/-- Every element of a tile, row by row. -/
def Tile.elems (t : Tile) : List (Nat × Nat) :=
  (List.range t.rows).flatMap (fun i => (List.range t.nCols).map (fun n => (i, n)))

/-- The total of an element as it stands: nothing at the first promotion of a TOT_INIT binding, else from the loft (R83). -/
def State.total (s : State) (k : Nat) (t : Tile) (i n : Nat) : Nat :=
  if t.first ∧ t.totInit then 0 else s.loftNum k (t.tot + i * t.totPitch + 8 * n) 8

/-- Promotion of an element's run into its total: the new total as 8 bytes, the cause of a first-NaN event, and whether
an INT64 total saturated (R54, R55). -/
def promoteElem (t : Tile) (i n total : Nat) : Nat × Nat × Bool :=
  if t.isInt then
    let a := addSat64 (toInt 64 total) (FMap.get (fun _ => 0) t.totals (tix i n))
    let b := addSat64 a.1 (toInt 32 (t.run i n))
    (ofInt 64 b.1, 0, a.2 || b.2)
  else
    let hi := total % 2 ^ 32
    let lo := total / 2 ^ 32
    let r := promote hi lo (t.run i n)
    (r.1 + r.2 * 2 ^ 32, nanCause [fp32.decode hi, fp32.decode lo, fp32.decode (t.run i n)] (fp32.decode r.1), false)

/-- Whether a tile's totals lie in the loft in rows that do not overlap, as R92 asks of the stream that binds it. -/
def Tile.placed (t : Tile) : Bool :=
  decide (t.nCols ≤ 512 ∧ 8 * t.nCols ≤ t.totPitch ∧ t.tot + (t.rows - 1) * t.totPitch + 8 * t.nCols ≤ loftSize)

/-- ELEMENT of a first-NaN event (R61). -/
def Tile.ord (t : Tile) (i n : Nat) : Nat := i * t.nCols + n

/-- A promotion that writes totals: a due one, or a drain with FINAL = 0 (R83, R90).  Gives the state, the tile with its
runs restarted, the first-NaN events, and whether a total saturated. -/
def State.promoteTile (s : State) (k : Nat) (t : Tile) : State × Tile × List (Nat × Nat) × Bool :=
  let r := t.elems.foldl (fun (acc : State × List (Nat × Nat) × Bool) e =>
    let (s, ev, sat) := acc
    let ad := t.tot + e.1 * t.totPitch + 8 * e.2
    if t.hit e.1 e.2 then
      let (v, c, b) := promoteElem t e.1 e.2 (s.total k t e.1 e.2)
      (s.putLoft k ad (toBytes 8 v), if c = 0 then ev else ev ++ [(t.ord e.1 e.2, c)], sat || b)
    else if t.first ∧ t.totInit then (s.putLoft k ad (zeros 8), ev, sat)
    else acc) (s, [], false)
  (r.1, { t with runs := [], totals := [], chunks := 0, first := false }, r.2.1, r.2.2)

/-- An INT64 saturation sets the sticky bit (R55, R94). -/
def State.satMxa (s : State) (k : Nat) (b : Bool) : State :=
  if b then s.modMxa k (fun m => { m with intSat := true }) else s

/-- Add a chunk to run (i, n): the tile and the cause of a first-NaN event, 0 for none (R53, R55, R60). -/
def Tile.addChunk (t : Tile) (i n chunkCode cause : Nat) (scaleNaN : Bool) : Tile × Nat :=
  let old := t.run i n
  let v := f32add old chunkCode
  let c := if f32nan v = false then 0
    else if scaleNaN then causeMxScale
    else if f32nan old ∨ cause = causeConsumed then causeConsumed else causeInvalid
  ({ t with runs := FMap.set (fun _ => 0) t.runs (tix i n) v,
            touched := FMap.set (fun _ => false) t.touched (tix i n) true }, c)

/-- Add an integer chunk to run (i, n); a run of magnitude 2^30 or more goes at once to its total (R55). -/
def Tile.addInt (t : Tile) (i n : Nat) (c : Int) : Tile :=
  let v := toInt 32 (t.run i n) + c
  let big := decide ((2 : Int) ^ 30 ≤ v ∨ v ≤ -(2 : Int) ^ 30)
  let t := { t with touched := FMap.set (fun _ => false) t.touched (tix i n) true,
                    runs := FMap.set (fun _ => 0) t.runs (tix i n) (if big then 0 else ofInt 32 v) }
  if big then
    { t with totals := FMap.set (fun _ => 0) t.totals (tix i n) (FMap.get (fun _ => 0) t.totals (tix i n) + v) }
  else t

/-- One activation row: codes of its elements, their scales, and the columns it reaches. -/
structure ActRow where
  codes : List Nat
  sc    : List Nat
  cols  : List Nat
  deriving DecidableEq, Repr

/-- The activations of a row as values with their scales (R70, R79). -/
def ActRow.vals (a : ActRow) (af : Nat) : List FVal :=
  (List.range a.codes.length).map (fun k =>
    let v := mxaVal af ((a.codes[k]?).getD 0)
    if mxaIsMx af then v.mul (e8m0 ((a.sc[k / 32]?).getD 0)) else v)
/-- Whether a scale of a row is NaN. -/
def ActRow.nanScale (a : ActRow) (af : Nat) : Bool := mxaIsMx af && a.sc.any (fun c => decide (c = 0xFF))

/-- Stream one activation row through a slot into row `i` of a tile; `af` is AFMT (R77, R79, R80). -/
def Tile.streamRow (t : Tile) (x : Slot) (af i : Nat) (a : ActRow) : Tile × List (Nat × Nat) :=
  let ai := a.codes.map (toInt 8)
  let av := a.vals af
  let anan := a.nanScale af
  a.cols.foldl (fun (acc : Tile × List (Nat × Nat)) n =>
    let (t, ev) := acc
    if t.isInt then
      (t.addInt i n ((List.zipWith (fun (p q : Int) => p * q) ai (x.colInt n)).foldl (fun (u v : Int) => u + v) 0), ev)
    else
      let (code, cause) := chunk (List.zip av (x.col n))
      let (t, c) := t.addChunk i n code cause (anan || x.nanCol n)
      (t, if c = 0 then ev else ev ++ [(t.ord i n, c)])) (t, [])

/-- The tile a stream binds (R77). -/
def bindTile (c totPitch : Nat) (x : Slot) (isInt : Bool) : Tile :=
  { rows := stRows c, nCols := x.nCols, isInt := isInt, tot := stTot c, totPitch := totPitch, p := stP c,
    totInit := stInit c, runs := [], touched := [], chunks := 0, first := true, cols := [], final := 0, totals := [] }

/-- Whether a stream matches a tile's binding (R77). -/
def Tile.binds (t u : Tile) : Bool :=
  decide (t.rows = u.rows ∧ t.nCols = u.nCols ∧ t.isInt = u.isInt ∧ t.tot = u.tot ∧ t.totPitch = u.totPitch ∧ t.p = u.p)

/-- Column indices a drain of FORM 1 uses: those of the slot, or free values where the slot's indices name K rows
(R84, assumption log 3). -/
def Slot.cols (x : Slot) (draw : Nat) : List Nat :=
  if x.axis then x.idx else (List.range x.nCols).map (fun n => Config.freeNat (draw + n) % 2 ^ 32)

/-! ### Starts -/

/-- TOT_PITCH of a stream. -/
def totPitchOf (c : Nat) : Nat := if mxOp c = 2 then stTotPitch c else spTotPitch c

/-- Rows of MX.SPSTREAM: the bytes of row i's runs; none when ROWPTR is out of order (R78, R81). -/
def State.spPtrs (s : State) (k c : Nat) : List Nat :=
  (List.range (stRows c + 1)).map (fun i => s.loftNum k (spPtr c + 4 * i) 4)

/-- Whether a list never falls. -/
def notFalling : List Nat → Bool
  | [] => true
  | [_] => true
  | x :: y :: r => decide (x ≤ y) && notFalling (y :: r)

/-- The runs of every row of MX.SPSTREAM; none for a malformed one (R81). -/
def State.spRows (s : State) (k c : Nat) : Option (List (List (Nat × Nat))) :=
  let ps := s.spPtrs k c
  if notFalling ps = false then none
  else (List.range (stRows c)).mapM (fun i =>
    let a := (ps[i]?).getD 0
    let n := (ps[i + 1]?).getD 0 - a
    parseRow (mxaBits (mxFmtF c) / 8) n (s.loft k (spRuns c + a) n))

/-- The alignment and bounds checks of a stream whose extent depends on the slot (R92). -/
def State.streamRegions (s : State) (k c : Nat) (x : Slot) : Nat :=
  let rows := stRows c
  let tp := totPitchOf c
  let ab := rowBytes (mxFmtF c) x.kRows
  let totBad := decide (loftSize < stTot c + (rows - 1) * tp + 8 * x.nCols)
  if mxOp c = 2 then
    if stActPitch c < ab ∨ tp < 8 * x.nCols then 0x0304
    else if loftSize < stAct c + (rows - 1) * stActPitch c + ab ∨ totBad ∨
            (mxaIsMx (mxFmtF c) ∧ loftSize < stAscale c + rows * (x.kRows / 32)) then 0x0305
    else 0
  else
    let ps := s.spPtrs k c
    if (spMode c ∧ spActPitch c < ab) ∨ tp < 8 * x.nCols ∨ ps.any (fun v => decide (v % 4 ≠ 0)) then 0x0304
    else if (spMode c ∧ loftSize < spAct c + (rows - 1) * spActPitch c + ab) ∨ totBad ∨
            ps.any (fun v => decide (loftSize < spRuns c + v)) then 0x0305
    else 0

/-- The start checks of a stream (R402): a code, or 0 with the slot and the binding it asks for. -/
def State.streamCheck (s : State) (k c : Nat) : Nat × Option (Slot × Tile) :=
  match mxaGroup (mxFmtF c) with
  | none => (0x0303, none)
  | some g =>
    match (s.mxa k).slot (mxSlot c) with
    | none => (0x0307, none)
    | some x =>
      if mxOp c = 3 ∧ x.axis ≠ spMode c then (0x0307, none)
      else if mxaGroup x.wfmt ≠ some g ∨ (mxOp c = 3 ∧ g = 4) then (0x0303, none)
      else
        let r := s.streamRegions k c x
        let b := bindTile c (totPitchOf c) x (decide (g = 3))
        if r ≠ 0 then (r, none)
        else if (match (s.mxa k).tile (mxTile c) with | some t => !(t.binds b) | none => false) then (0x0306, none)
        else if mxOp c = 3 ∧ s.spRows k c = none then (0x0309, none)
        else (0, some (x, b))

/-- The activation rows of a stream, with their row numbers (R71, R79, R80). -/
def State.actRows (s : State) (k c : Nat) (x : Slot) : List (Nat × ActRow) :=
  let f := mxFmtF c
  let all := List.range x.nCols
  if mxOp c = 2 then
    (List.range (stRows c)).map (fun i =>
      (i, { codes := s.rowElems k (stAct c + i * stActPitch c) f x.kRows,
            sc := if mxaIsMx f then (s.loft k (stAscale c + i * (x.kRows / 32)) (x.kRows / 32)).map BitVec.toNat else [],
            cols := all }))
  else
    let rows := (s.spRows k c).getD []
    (List.range (stRows c)).filterMap (fun i =>
      let es := (rows[i]?).getD []
      if spMode c then
        let cols := all.filter (fun n => es.any (fun e => decide (e.1 = (x.idx[n]?).getD 0)))
        if cols = [] then none
        else some (i, { codes := s.rowElems k (spAct c + i * spActPitch c) f x.kRows, sc := [], cols := cols })
      else
        let codes := x.idx.map (fun j => match es.find? (fun e => decide (e.1 = j)) with | some e => some e.2 | none => none)
        if codes.all Option.isNone then none
        else some (i, { codes := codes.map (fun o => o.getD 0), sc := [], cols := all }))

/-- Source of the first-NaN events of a command (R61). -/
def Desc.nanSrc (d : Desc) (unit op : Nat) : NanSrc := ⟨unit, op, d.stall, d.pc.toNat⟩

/-- Perform a stream that passed its checks: a due promotion first, then its chunks (R77, R90). -/
def State.runStream (s : State) (k : Nat) (d : Desc) (x : Slot) (b : Tile) : State :=
  let c := d.bits.toNat
  let t := ((s.mxa k).tile (mxTile c)).getD b
  let due := decide (t.p ≤ t.chunks)
  let pr := s.promoteTile k t
  let s1 := if due then (pr.1.satMxa k pr.2.2.2).nanEvents d.part (d.nanSrc 2 4) pr.2.2.1 else s
  let t := if due then pr.2.1 else t
  let r := (s.actRows k c x).foldl (fun (acc : Tile × List (Nat × Nat)) e =>
    let y := acc.1.streamRow x (mxFmtF c) e.1 e.2
    (y.1, acc.2 ++ y.2)) (t, [])
  let t := { r.1 with chunks := t.chunks + 1, cols := x.cols s.free, final := 0 }
  let s1 := if x.axis then s1 else { s1 with free := s1.free + x.nCols }
  (s1.modMxa k (fun m => m.setTile (mxTile c) (some t))).nanEvents d.part (d.nanSrc 2 3) r.2

/-- The start checks of MX.DRAIN (R402). -/
def drainCheck (c : Nat) (o : Option Tile) : Nat :=
  match o with
  | none => 0x030B
  | some t =>
    let fin := drFinal c
    let form := drForm c
    let size := outSize (drOfmt c)
    if fin ∧ ¬(if t.isInt then drOfmt c = 0 ∨ drOfmt c = 5 ∨ drOfmt c = 6 else drOfmt c ≤ 4) then 0x0303
    else if fin ∧ form = false ∧ drPitch c < t.nCols * size then 0x0304
    else if fin ∧ form = false ∧ loftSize < drOut c + (t.rows - 1) * drPitch c + t.nCols * size then 0x0305
    else if fin ∧ form ∧ (drPitch c < t.rows * t.nCols * 24 ∨ loftSize < drOut c + drPitch c + 4 * (t.rows + 1)) then 0x0305
    else 0

/-- The format of a floating output (R82). -/
def outFmt (o : Nat) : Fmt :=
  match o with
  | 0 => fp32
  | 1 => bf16
  | 2 => fp16
  | 3 => e4m3
  | _ => e5m2

/-- Conversion of a total to the output format: the code, the cause of a first-NaN event, and saturation (R49, R55, R83). -/
def outCode (isInt : Bool) (o total cause : Nat) : Nat × Nat × Bool :=
  if isInt then
    let v := toInt 64 total
    match o with
    | 0 => (fp32.encode (fOfInt v), 0, false)
    | 5 => let r := (fOfInt v).toRange (-(2 ^ 31)) (2 ^ 31 - 1); (ofInt 32 r.1, 0, r.2)
    | _ => (ofInt 64 v, 0, false)
  else
    let v := totalVal (total % 2 ^ 32) (total / 2 ^ 32)
    let f := outFmt o
    (f.encode v, if cause ≠ 0 then cause else if v.isNaN then nanCause [fp32.decode (total % 2 ^ 32), fp32.decode (total / 2 ^ 32)] v
      else if f.overNaN v then causeOverflow else 0,
     false)

/-- The output element of a final drain: code, cause, saturation (R83). -/
def State.outElem (s : State) (k c : Nat) (t : Tile) (i n : Nat) : Nat × Nat × Bool :=
  if t.hit i n then
    let (v, cause, b) := promoteElem t i n (s.total k t i n)
    let r := outCode t.isInt (drOfmt c) v cause
    (r.1, r.2.1, r.2.2 || b)
  else outCode t.isInt (drOfmt c) (s.total k t i n) 0

/-- The output of a drain with FORM = 1: row ranges and runs (R84). -/
def formRuns (t : Tile) (size : Nat) (out : List ((Nat × Nat) × (Nat × Nat × Bool))) : List Nat × List Byte :=
  (List.range t.rows).foldl (fun (acc : List Nat × List Byte) i =>
    let es := out.filterMap (fun e => if e.1.1 = i ∧ t.hit i e.1.2 then some ((t.cols[e.1.2]?).getD 0, e.2.1) else none)
    let bs := acc.2 ++ rowRuns size es
    (acc.1 ++ [bs.length], bs)) ([0], [])

/-- Perform a drain that passed its checks: loft writes, first-NaN events; gives the size of its handle and whether it
saturated (R73, R83, R84). -/
def State.runDrain (s : State) (k : Nat) (d : Desc) (t : Tile) : State × Nat × Bool :=
  let c := d.bits.toNat
  if drFinal c = false then
    let pr := s.promoteTile k t
    ((pr.1.modMxa k (fun m => m.setTile (mxTile c) (some pr.2.1))).nanEvents d.part (d.nanSrc 2 4) pr.2.2.1,
      (t.rows - 1) * t.totPitch + 8 * t.nCols, pr.2.2.2)
  else
    let size := outSize (drOfmt c)
    let out := (if drForm c then t.elems.filter (fun e => t.hit e.1 e.2) else t.elems).map
      (fun e => (e, s.outElem k c t e.1 e.2))
    let ev := out.filterMap (fun e => if e.2.2.1 = 0 then none else some (t.ord e.1.1 e.1.2, e.2.2.1))
    let sat := out.any (fun e => e.2.2.2)
    let (s1, n) :=
      if drForm c then
        let (ptr, bs) := formRuns t size out
        ((s.putLoft k (drOut c) bs).putLoft k (drOut c + drPitch c) (ptr.flatMap (toBytes 4)), bs.length)
      else
        (out.foldl (fun s e => s.putLoft k (drOut c + e.1.1 * drPitch c + e.1.2 * size) (toBytes size e.2.1)) s,
          (t.rows - 1) * drPitch c + t.nCols * size)
    (s1.nanEvents d.part (d.nanSrc 2 4) ev, n, sat)

/-! ### Order (R86) -/

/-- Whether engine run `r` uses slot `b`. -/
def usesSlot (r : Option MxRun) (b : Bool) : Bool :=
  match r with
  | some x => mxSlot x.cmd.bits.toNat == b
  | none => false
/-- Whether engine run `r` uses tile `b`. -/
def usesTile (r : Option MxRun) (b : Bool) : Bool :=
  match r with
  | some x => mxTile x.cmd.bits.toNat == b
  | none => false

/-- Whether the command at the head of the queue may start (R86, R90). -/
def Mxa.mayStart (m : Mxa) (c : Nat) : Bool :=
  match mxOp c with
  | 1 => m.load.isNone && !(usesSlot m.stream (mxSlot c))
  | 5 => m.load.isNone && m.stream.isNone && m.drain.isNone && m.ctrl.isNone
  | 4 => m.drain.isNone && (match m.tile (mxTile c) with | some t => decide (1 ≤ t.final) | none => true)
  | _ => m.stream.isNone && !(usesSlot m.load (mxSlot c)) && !(usesTile m.drain (mxTile c)) &&
         (match m.tile (mxTile c) with | some t => decide (t.chunks < t.p) || m.drain.isNone | none => true)

/-- A command that started, on its engine. -/
def Mxa.begin (m : Mxa) (d : Desc) (size : Nat) (sat : Bool) : Mxa :=
  let r : MxRun := { cmd := d, size := size, sat := sat }
  match mxOp d.bits.toNat with
  | 1 => { m with load := some r }
  | 4 => { m with drain := some r }
  | 5 => { m with ctrl := some r }
  | _ => { m with stream := some r }

/-- MX.RESET (R85): slots unloaded, tiles emptied, the halted state and its record cleared. -/
def Mxa.resetAll (m : Mxa) : Mxa :=
  { m with slot0 := none, slot1 := none, tileA := none, tileB := none, halted := false, errCode := 0, errOp := 0,
           errStall := 0 }

/-- MXA_COMMAND_START (R86): the head of shed `sh`'s queue starts when its engine is free and its hazards are clear; a
command that fails its start checks halts the MXA (R93). -/
def execMxaCommandStart (sh : Nat) (s : State) : Out1 :=
  if 32 ≤ sh then .fault .noSuchUnit
  else
    let m := s.mxa sh
    match m.queue with
    | [] => .next s
    | d :: rest =>
      let c := d.bits.toNat
      if (s.shed sh).asleep ∨ m.held ≠ [] ∨ m.mayStart c = false then .next s
      else
        let s := (s.modMxa sh (fun m => { m with queue := rest })).touch sh
        let go : State → Nat → Bool → Out1 := fun s n sat => .next (s.modMxa sh (fun m => m.begin d n sat))
        match mxOp c with
        | 1 =>
          let (e, slot) := s.loadSlot sh c
          if e ≠ 0 then .next (s.mxFail sh d e true)
          else go (s.modMxa sh (fun m => m.setSlot (mxSlot c) (some slot))) (lwK c * lwPitch c) false
        | 4 =>
          let o := m.tile (mxTile c)
          let e := drainCheck c o
          (match o with
           | some t =>
             if e ≠ 0 then .next (s.mxFail sh d e true)
             else let (s, n, sat) := s.runDrain sh d t; go s n sat
           | none => .next (s.mxFail sh d e true))
        | 5 => go (s.modMxa sh Mxa.resetAll) 0 false
        | _ =>
          (match s.streamCheck sh c with
           | (0, some (x, b)) =>
             let n := if mxOp c = 2 then stRows c * stActPitch c else ((s.spPtrs sh c).getLast?).getD 0
             go (s.runStream sh d x b) n false
           | (e, _) => .next (s.mxFail sh d e true))

/-- STREAM_ROW_FINAL (R86): the next row of the latest stream into a tile is final. -/
def execStreamRowFinal (sh : Nat) (tileB : Bool) (s : State) : Out1 :=
  if 32 ≤ sh then .fault .noSuchUnit
  else match (s.mxa sh).tile tileB with
    | some t =>
      if t.final < t.rows then
        .next (s.modMxa sh (fun m => m.setTile tileB (some { t with final := t.final + 1 })))
      else .next s
    | none => .next s

/-! ### Completion -/

/-- The run on engine `e`: 0 weight loader, 1 streamer, 2 drainer, 3 control. -/
def Mxa.runOf (m : Mxa) (e : Nat) : Option MxRun :=
  match e with
  | 0 => m.load
  | 1 => m.stream
  | 2 => m.drain
  | 3 => m.ctrl
  | _ => none

/-- Engine `e` becomes free. -/
def Mxa.free (m : Mxa) (e : Nat) : Mxa :=
  let m := { m with held := m.held.filter (· ≠ e) }
  match e with
  | 0 => { m with load := none }
  | 1 => { m with stream := none }
  | 2 => { m with drain := none }
  | _ => { m with ctrl := none }

/-- Loft address of the handle of a command (R73). -/
def mxHandleAddr (c : Nat) (t : Option Tile) : Nat :=
  match mxOp c with
  | 4 => if drFinal c then drOut c else (match t with | some t => t.tot | none => 0)
  | _ => bits c 32 25

/-- MXA_COMMAND_COMPLETE (R73): the command on engine `eng` completes and performs its completion; a drain leaves its tile
empty and reports a saturation (R83).  A push that is not accepted is held (R149). -/
def execMxaCommandComplete (sh eng : Nat) (s : State) : Out1 :=
  if 32 ≤ sh then .fault .noSuchUnit
  else
    let m := s.mxa sh
    match m.runOf eng with
    | none => .next s
    | some r =>
      let c := r.cmd.bits.toNat
      let t := m.tile (mxTile c)
      let drain := decide (eng = 2)
      if drain && (match t with | some t => decide (t.final < t.rows) | none => false) then .next s
      else
        match s.signal r.cmd (handleOf (mxHandleAddr c t) sh r.size (dGen c)) with
        | .wait s' =>
          .next (s'.modMxa sh (fun m => { m with held := if eng ∈ m.held then m.held else m.held ++ [eng] }))
        | .refuse _ => .next s
        | .ok s' =>
          let s' := s'.modMxa sh (fun m => (if drain then m.setTile (mxTile c) none else m).free eng)
          let s' := if drain ∧ r.sat then (s'.satMxa sh true).logPart r.cmd.part 0x0D0E 1 4 sh r.cmd.head else s'
          .next (s'.touch sh)

end Sys2Proof.Machine
end

