-- ==== Sys2Proof/Machine/Tables.lean ====
section
/-!
DEFINITION. Reads and writes of memory by samplers, row engines and DMA engines, and the tables they name: versions,
captures and switches, home maps and row-table headers (R162-R166, R198-R202, R217, R246).
-/

namespace Sys2Proof.Machine

/-! ### A unit at work -/

/-- How a unit's reads go through an engine: `back` at the precedence of migration and replication (R214, R251), `rows` as
those of a GATHER or POOL (R222), `noAlloc` without allocation in the row cache (R203). -/
structure How where
  back    : Bool
  rows    : Bool
  noAlloc : Bool
  deriving DecidableEq, Repr

/-- Foreground work without a mark of its own. -/
def plainly : How := { back := false, rows := false, noAlloc := false }

/-- A unit at work: the state as it has changed it, and the sectors of HBM it has touched, in order. -/
structure Work where
  st      : State
  how     : How
  touched : List Touch

/-- Work of a unit: it may stop with a code, and keeps what it has done to the state. -/
abbrev UM := ExceptT Nat (StateM Work)

/-- The state as the unit's work has left it. -/
def now : UM State := do pure (← get).st
/-- Change it. -/
def act (f : State → State) : UM Unit := modify (fun w => { w with st := f w.st })
/-- Sectors of HBM are touched. -/
def touch (p : Nat) (write rows : Bool) (ks : List Nat) : UM Unit := modify (fun w =>
  { w with touched := w.touched ++ touches p write (!write && w.st.mayFill p rows w.how.noAlloc) ks })

/-- Run a unit's work, whatever its turn. -/
def UM.on {α : Type} (m : UM α) (how : How) (s : State) : Except Nat α × Work := m { st := s, how := how, touched := [] }

/-- What a unit throws when it has to wait for a row that is being copied (R219): above every code and entry. -/
def ePause : Nat := 2 ^ 64

/-- Whether work has stopped to wait. -/
def paused {α : Type} : Except Nat α → Bool
  | .error e => decide (e = ePause)
  | .ok _ => false

/-- Perform a unit's work if every sector it touches has its turn at its engine; none: it waits (R194, R195; log 50). -/
def UM.run {α : Type} (m : UM α) (how : How) (s : State) : Option (Except Nat α × State) :=
  let r := m.on how s
  if s.haveTurn how.back r.2.touched && !(paused r.1) then some (r.1, r.2.st.passAll how.back r.2.touched) else none

/-- What a unit's work gives, without performing any of it. -/
def UM.look {α : Type} (m : UM α) (s : State) : Except Nat α := (m.on plainly s).1

def ePoison : Nat := 0x070B

/-- How a unit reads: as foreground work, as run-ahead (R188), or once more what the same work has read or will read. -/
inductive Reading where
  | fore | ahead | again
  deriving DecidableEq, Repr

/-- Read `n` bytes at stall address `a` for partition `p`; `unm` is the code for a region outside it (R125, R245, R246).
Foreground reads count in STACK_LOAD (R217); a run-ahead read is abandoned for an error that was corrected, too (R188). -/
def rd (p : Nat) (mode : Reading) (unm a n : Nat) : UM (List Byte) := do
  let s ← now
  match s.physRange p none a n with
  | none => throw unm
  | some ks =>
    let d := (if mode = .fore then s.countLoad p ks else s).sense (hbmSectors ks)
    if mode ≠ .again then
      act (fun _ => d.1)
      touch p false (← get).how.rows ks
    if d.2 ∨ (mode = .ahead ∧ (hbmSectors ks).any (fun c => decide (s.check c ≠ 0))) then throw ePoison
    pure (ks.map d.1.byte)

/-- Read a number of `n` bytes. -/
def rdNum (p : Nat) (mode : Reading) (unm a n : Nat) : UM Nat := do
  let bs ← rd p mode unm a n
  pure (ofBytes bs)

/-- Write keyed bytes; a partial write of a poisoned sector is not made and stops the unit (R246). -/
def wrKeyed (p : Nat) (ks : List Nat) (bs : List Byte) : UM Unit := do
  let s ← now
  let r := s.writeAll (ks.zip bs)
  act (fun _ => r.1)
  touch p true false ks
  if r.2 then throw ePoison

/-- Write bytes at stall address `a`. -/
def wr (p : Nat) (unm a : Nat) (bs : List Byte) : UM Unit := do
  match (← now).physRange p none a bs.length with
  | none => throw unm
  | some ks =>
    act (fun s => s.countLoad p ks)
    wrKeyed p ks bs

/-- Whether a stall address lies in a loft (R125). -/
def inLoft (a : Nat) : Bool := decide (0x100000000 ≤ a ∧ a < 0x100000000 + 2 ^ 30)
/-- Whether a stall address lies in the HBM range (R125). -/
def inHbm (a : Nat) : Bool := decide (2 ^ 48 ≤ a ∧ a < 2 ^ 49)

/-- The handle of a buffer at stall address `a` in a loft (R150). -/
def handleAt (a size gen : Nat) : Nat := handleOf ((a - 0x100000000) % 2 ^ 25) ((a - 0x100000000) / 2 ^ 25) size gen

/-! ### Table descriptors (R198) -/

def tdBase (d : Nat) : Nat := bits d 0 64
def tdVersion (d : Nat) : Nat := bits d 64 16
def tdKind (d : Nat) : Nat := bits d 80 4
def tdPend (d : Nat) : Bool := bit d 84
def tdPendBase (d : Nat) : Nat := bits d 96 64
def tdPendVersion (d : Nat) : Nat := bits d 160 16
def tdFormer (d : Nat) : Nat := bits d 176 16

/-- Whether a descriptor in execution of partition p holds version `v` of table `t` captured (R169, R200). -/
def State.captured (s : State) (p t v : Nat) : Bool :=
  s.sheds.any (fun e => s.owns p e.1 &&
    (match e.2.sampler.cur with | some c => c.caps.contains (t, v) | none => false)) ||
  s.engines.any (fun e => match FMap.get (fun _ => none) e.2.cur p with
    | some c => c.caps.contains (t, v)
    | none => false)

/-- Whether the former version of a table is still captured (R198, R200). -/
def State.priorLive (s : State) (p t : Nat) : Bool :=
  let d := s.obj (kTable p t)
  bit d 85 && s.captured p t (tdFormer d)

/-- The descriptor as it reads: FORMER_VERSION only while PRIOR_LIVE is 1 (R198). -/
def State.tableWord (s : State) (p t : Nat) : Nat :=
  let d := s.obj (kTable p t)
  if s.priorLive p t then d else setBits (setBits d 85 1 0) 176 16 0

/-- Discard the held run-ahead results of partition p that `bad` picks, counting each (R187). -/
def State.dropAhead (s : State) (p : Nat) (bad : Sampler → Ahead → Bool) : State :=
  (s.shedsOf p).foldl (fun s k =>
    let x := (s.shed k).sampler
    let n := (x.held.filter (bad x)).length
    if n = 0 then s
    else (s.bumpObj (kRaDiscarded p) n).modShed k
      (fun y => { y with sampler := { x with held := x.held.filter (fun a => !(bad x a)) } })) s

/-- The pending switch of a table applies (R187, R189, R200, R219). -/
def State.applySwitch (s : State) (p t : Nat) : State :=
  let d := s.obj (kTable p t)
  let live := s.captured p t (tdVersion d)
  let e := setBits (setBits (setBits (setBits (setBits d 0 64 (tdPendBase d)) 64 16 (tdPendVersion d)) 84 1 0)
    85 1 (b2n live)) 176 16 (tdVersion d)
  let s := s.setObj (kTable p t) e
  let s := s.dropAhead p (fun _ a => a.caps.any (fun c => decide (c.1 = t)))
  { s with hints := s.hints.filter (fun h => decide (¬(h.part = p ∧ h.table = t))),
           fwd := s.fwd.filter (fun f => decide (¬(f.part = p ∧ f.table = t))) }

/-- Apply every pending switch of partition p whose former version is no longer live (R200). -/
def State.applySwitches (s : State) (p : Nat) : State :=
  (List.range 256).foldl (fun s t =>
    if tdPend (s.obj (kTable p t)) ∧ s.priorLive p t = false then s.applySwitch p t else s) s

/-- Whether a requested version is a live one (E_VERSION, R199). -/
def State.versionLive (s : State) (p t v : Nat) : Bool :=
  let d := s.obj (kTable p t)
  decide (v = tdVersion d) || (s.priorLive p t && decide (v = tdFormer d))

/-- Request a switch that is not refused (R199, R200): it applies at once while the partition is stopped. -/
def State.requestSwitch (s : State) (p t base v : Nat) : State :=
  let d := s.obj (kTable p t)
  let s := s.setObj (kTable p t) (setBits (setBits (setBits d 84 1 1) 96 64 base) 160 16 v)
  if (s.part p).phase = .stopped ∧ s.priorLive p t = false then s.applySwitch p t else s

/-- The captures of the tables `ts` now (R169, R200). -/
def State.capture (s : State) (p : Nat) (ts : List Nat) : List (Nat × Nat) :=
  ts.map (fun t => (t, tdVersion (s.obj (kTable p t))))

/-! ### Home maps (R165) -/

/-- A home map entry: first vertex, device, partition. -/
abbrev Home := Nat × Nat × Nat

/-- Read a home map; `bad` is the code of one out of order. -/
def rdHomes (p : Nat) (mode : Reading) (unm bad a n : Nat) : UM (List Home) := do
  if n = 0 then pure []
  else do
    let bs ← rd p mode unm a (16 * n)
    let hs : List Home := (List.range n).map (fun i =>
      let e := field bs (16 * i) 8
      (bits e 0 40, bits e 40 17, bits e 57 5))
    if (hs.headD (1, 0, 0)).1 ≠ 0 ∨ rising (hs.map Prod.fst) = false then throw bad
    pure hs

/-- The home of a vertex or row by a map; none when the map is empty (R165, R202). -/
def homeOf (hs : List Home) (v : Nat) : Option (Nat × Nat) :=
  ((hs.filter (fun h => decide (h.1 ≤ v))).getLast?).map (fun h => h.2)

/-! ### Row tables (R201, R202) -/

/-- A row-table header. -/
structure RowTab where
  rowsBase  : Nat
  first     : Nat
  count     : Nat
  len       : Nat
  pitch     : Nat
  fmt       : Nat
  cls       : Nat
  ordered   : Bool
  homeCount : Nat
  homeMap   : Nat
  list      : Nat
  listCount : Nat
  orderCap  : Nat
  pool      : Nat
  poolGrad  : Nat
  orderBuf  : Nat
  flags     : Nat          -- the byte of FLAGS
  resv      : Nat          -- the reserved bytes
  deriving DecidableEq, Repr

/-- Spell a header out of its 96 bytes (R201). -/
def rowTabOf (b : List Byte) : RowTab :=
  { rowsBase := field b 0 8, first := field b 8 8, count := field b 16 8, len := field b 24 4, pitch := field b 28 4,
    fmt := field b 32 1, cls := field b 33 1, ordered := bit (field b 34 1) 0, homeCount := field b 36 4,
    homeMap := field b 40 8, list := field b 48 8, listCount := field b 56 4, orderCap := field b 60 4,
    pool := field b 64 8, poolGrad := field b 72 8, orderBuf := field b 80 8, flags := field b 34 1,
    resv := field b 35 1 + field b 88 8 }

/-- Bytes of a row (R43, R45, R201). -/
def RowTab.rowSize (t : RowTab) : Nat :=
  match t.fmt with
  | 0 => 4 * t.len
  | 1 => 2 * t.len
  | 2 => 2 * t.len
  | 3 => 4 * t.len
  | 4 => 8 * t.len
  | 5 => 4 + t.len
  | 6 => 4 + ceilDiv t.len 2
  | 7 => 132 * ceilDiv t.len 64
  | _ => 0

/-- Bytes of a row in whole sectors. -/
def RowTab.rowSpan (t : RowTab) : Nat := roundUp t.rowSize 32

/-- Spacing of replica gradient rows (R216). -/
def RowTab.gradPitch (t : RowTab) : Nat := 32 + roundUp (t.len * 4) 32

/-- What a header breaks of R201, 0 for nothing: E_FIELD for reserved values and counts beyond their range, E_ALIGN for an
address or pitch that is no multiple of 32 and a pitch below the row, E_BOUNDS for an address outside the partition's HBM
(R228; the codes are log 56). -/
def State.headerCode (s : State) (p : Nat) (t : RowTab) : Nat :=
  let as := [t.rowsBase, t.homeMap, t.list, t.pool, t.poolGrad, t.orderBuf]
  if t.len = 0 ∨ 65536 < t.len ∨ 7 < t.fmt ∨ 1 < t.cls ∨ 1 < t.flags ∨ t.resv ≠ 0 ∨ 65536 < t.homeCount ∨
     2 ^ 20 < t.listCount ∨ 2 ^ 40 ≤ t.first then 0x0701
  else if as.any (fun a => decide (a % 32 ≠ 0)) ∨ t.pitch % 32 ≠ 0 ∨ t.pitch < t.rowSize then 0x0703
  else if as.any (fun a => decide (a ≠ 0) && !(inHbm a && s.mapped p none a 32)) then 0x0704
  else 0

/-- A row table with its lists: home map; replica rows (class 0) or overrides (class 1). -/
structure Rows where
  tab   : RowTab
  homes : List Home
  reps  : List Nat
  overs : List (Nat × Nat × Nat × Nat)   -- row, device, partition, slot
  deriving DecidableEq, Repr

/-- Read a row table's header and lists at base `a`; 0x070B is poison, `unm` a region outside the partition, 0x0708 a list
out of order, and what the header breaks (R201, R228). -/
def rdRows (p : Nat) (mode : Reading) (unm a : Nat) : UM Rows := do
  let b ← rd p mode unm a 96
  let t := rowTabOf b
  let c := (← now).headerCode p t
  if c ≠ 0 then throw c
  let hs ← rdHomes p mode unm 0x0708 t.homeMap t.homeCount
  let n := if t.list = 0 then 0 else t.listCount
  if t.cls = 1 then
    let bs ← rd p mode unm t.list (16 * n)
    let os := (List.range n).map (fun i =>
      let e := field bs (16 * i) 16
      (bits e 0 40, bits e 40 17, bits e 57 5, bits e 64 32))
    if rising (os.map (fun o => o.1)) = false then throw 0x0708
    pure { tab := t, homes := hs, reps := [], overs := os }
  else
    let bs ← rd p mode unm t.list (8 * n)
    let rs := (List.range n).map (fun i => bits (field bs (8 * i) 8) 0 40)
    if rising rs = false then throw 0x0708
    pure { tab := t, homes := hs, reps := rs, overs := [] }

/-- Where a row is found (R202). -/
inductive Place where
  | here (a : Nat)                      -- stall address on this module
  | away (dev part : Nat)               -- another module or partition
  | outside                             -- homed here, and outside the home's range
  deriving DecidableEq, Repr

/-- The home of row `r` as partition `p` of device `me` names it, without replicas (R202 rules 1, 2). -/
def Rows.home (x : Rows) (me p r : Nat) : Place :=
  match (if x.tab.cls = 1 then x.overs.find? (fun o => decide (o.1 = r)) else none) with
  | some (_, d, q, slot) => if d = me ∧ q = p then .here (x.tab.pool + slot * x.tab.pitch) else .away d q
  | none =>
    match homeOf x.homes r with
    | some (d, q) =>
      if d = me ∧ q = p then
        (if r < x.tab.first ∨ x.tab.first + x.tab.count ≤ r then .outside
         else .here (x.tab.rowsBase + (r - x.tab.first) * x.tab.pitch))
      else .away d q
    | none =>
      if r < x.tab.first ∨ x.tab.first + x.tab.count ≤ r then .outside
      else .here (x.tab.rowsBase + (r - x.tab.first) * x.tab.pitch)

/-- Where a read of row `r` goes: a replica in class 0 where there is one (R202 rule 3). -/
def Rows.readAt (x : Rows) (me p r : Nat) : Place :=
  match x.home me p r with
  | .away d q =>
    if x.tab.cls = 0 then
      match indexOf? (fun k => decide (k = r)) x.reps with
      | some k => .here (x.tab.pool + k * x.tab.pitch)
      | none => .away d q
    else .away d q
  | y => y

/-- The forwarding entry for a row homed here (R218, R219). -/
def State.forward? (s : State) (p t r : Nat) : Option Fwd :=
  s.fwd.find? (fun f => decide (f.part = p ∧ f.table = t ∧ f.row = r ∧ f.copier = none))

/-- Whether a row homed here is being copied: requests for it wait (R219). -/
def State.copying (s : State) (p t r : Nat) : Bool :=
  s.fwd.any (fun f => decide (f.part = p ∧ f.table = t ∧ f.row = r) && f.copier.isSome)

/-- ADDR of a request for a forwarded row: the row, and above its 40 bits the slot plus one, by which the destination finds
it (log 17). -/
def Fwd.name (f : Fwd) : Nat := f.row % 2 ^ 40 + (if f.slot + 1 < 2 ^ 24 then (f.slot + 1) * 2 ^ 40 else 0)

/-- ADDR of a request for row `r`. -/
def State.rowName (s : State) (p t r : Nat) : Nat :=
  match s.forward? p t r with
  | some f => f.name
  | none => r

/-- A unit waits while a row is being copied. -/
def settled (p t r : Nat) : UM Unit := do
  if (← now).copying p t r then throw ePause

end Sys2Proof.Machine
end

