-- ==== Sys2Proof/Machine/RowWork.lean ====
section
/-!
DEFINITION. The work of a row-engine descriptor: gathers, pools, replays, scatters, ordered contributions, replicas and
the 8-bit-moment optimiser (R194-R219, R226, R227).
-/

namespace Sys2Proof.Machine

/-! ### Fields (R203, R226) -/

def reOp (d : Nat) : Nat := bits d 0 8
def reLform (d : Nat) : Nat := bits d 10 2
def reOfmt (d : Nat) : Nat := bits d 12 2
def reIfmt (d : Nat) : Nat := bits d 14 2
def reSmode (d : Nat) : Nat := bits d 16 2
def reTable (d : Nat) : Nat := bits d 24 8
def reCount (d : Nat) : Nat := bits d 32 32
def reList (d : Nat) : Nat := bits d 64 64
def reSrc (d : Nat) : Nat := bits d 128 64
def reDst (d : Nat) : Nat := bits d 256 64
def reSpitch (d : Nat) : Nat := bits d 320 32
def reDpitch (d : Nat) : Nat := bits d 352 32
def reSeq (d : Nat) : Nat := bits d 384 16
def reVersion (d : Nat) : Nat := bits d 400 16
def reTable2 (d : Nat) : Nat := bits d 416 8
def reUnique (d : Nat) : Nat := bits d 448 64
-- OPT8
def opDense (d : Nat) : Bool := bit d 10
def opPfmt (d : Nat) : Bool := bit d 11
def opGrad (d : Nat) : Nat := bits d 128 64
def opPsrc (d : Nat) : Nat := bits d 256 64
def opPdst (d : Nat) : Nat := bits d 320 64
def opMsrc (d : Nat) : Nat := bits d 384 64
def opMdst (d : Nat) : Nat := bits d 448 64
def opRowLen (d : Nat) : Nat := bits d 512 32
def opPpitch (d : Nat) : Nat := bits d 544 32
def opMpitch (d : Nat) : Nat := bits d 576 32
def opGpitch (d : Nat) : Nat := bits d 608 32
/-- FP32 field `i` of OPT8: LR, B1, OMB1, B2, OMB2, EPS, WD, C1, C2, CLIP. -/
def opF (d i : Nat) : Nat := bits d (640 + 32 * i) 32

/-! ### Codes (R228) -/

def eTable : Nat := 0x0702
def eBoundsR : Nat := 0x0704
def eFmt : Nat := 0x0705
def eRow : Nat := 0x0707
def eList : Nat := 0x0708
def eFwdFull : Nat := 0x0709
def eSpill : Nat := 0x070C
def eRemote : Nat := 0x070F

/-- Name entry `i` as the failing one: a code, and above it the entry plus one (R228). -/
def atEntry {α : Type} (i : Nat) (m : UM α) : UM α :=
  tryCatch m (fun e => throw (if e < 2 ^ 16 then e + 2 ^ 16 * (i + 1) else e))

/-! ### Formats -/

/-- A float format of OFMT, IFMT or ROW_FMT: 0 FP32, 1 BF16, 2 FP16. -/
def ffmt (k : Nat) : Fmt :=
  match k with
  | 0 => fp32
  | 1 => bf16
  | _ => fp16
/-- Its size in bytes. -/
def fsize (k : Nat) : Nat := if k = 0 then 4 else 2

/-- Elements of a row of float codes as values. -/
def floatRow (k : Nat) (bs : List Byte) : List FVal :=
  (List.range (bs.length / fsize k)).map (fun i => (ffmt k).decode (field bs (fsize k * i) (fsize k)))

/-- Elements of a table row as values, each with the cause of its NaN (R45, R201). -/
def RowTab.values (t : RowTab) (bs : List Byte) : List (FVal × Nat) :=
  if t.fmt ≤ 2 then ((floatRow t.fmt bs).take t.len).map (fun v => (v, causeConsumed))
  else
    let b := if t.fmt = 5 then 8 else 4
    let s := field bs 0 2
    let o := field bs 2 2
    let c := if (fp16.decode s).isNaN || (fp16.decode o).isNaN then causeConsumed else causeInvalid
    (List.range t.len).map (fun i => (rowDec s o (rowCode bs b i), c))

/-- OP of the first-NaN event of an element that a gather converts or dequantises (R61). -/
def RowTab.readOp (t : RowTab) : Nat := if t.fmt ≤ 2 then 2 else 5

/-! ### Rows -/

/-- The descriptor in execution at engine `e` for partition `p`. -/
def State.rcur (s : State) (e p : Nat) : Option RCur := FMap.get (fun _ => none) (s.engine e).cur p
def State.setRcur (s : State) (e p : Nat) (c : Option RCur) : State :=
  s.modEngine e (fun x => { x with cur := FMap.set (fun _ => none) x.cur p c })
def State.modRcur (s : State) (e p : Nat) (f : RCur → RCur) : State :=
  match s.rcur e p with
  | some c => s.setRcur e p (some (f c))
  | none => s

/-- A forwarding entry that leads a row into a partition of this module (R219). -/
def State.slotHere (s : State) (p t r : Nat) : Option Fwd :=
  s.fwd.find? (fun f => decide (f.dev = s.device ∧ f.dpart = p ∧ f.table = t ∧ f.row = r ∧ f.copier = none))

/-- A place at the home, with the forwarding entries of this module (R202 rule 4, R219). -/
def State.placed (s : State) (x : Rows) (p t r : Nat) (y : Place) : Place :=
  match y with
  | .away d q => .away d q
  | _ =>
    match s.forward? p t r with
    | some f => .away f.dev f.dpart
    | none =>
      match y, s.slotHere p t r with
      | .outside, some f => .here (x.tab.pool + f.slot * x.tab.pitch)
      | _, _ => y

/-- Where a row's home is, for writes and adds. -/
def State.homePlace (s : State) (x : Rows) (p t r : Nat) : Place := s.placed x p t r (x.home s.device p r)

/-- Where a row is read (R202). -/
def State.readPlace (s : State) (x : Rows) (p t r : Nat) : Place :=
  match x.home s.device p r with
  | .away d q => (match x.readAt s.device p r with | .here a => .here a | _ => .away d q)
  | y => s.placed x p t r y

/-- Count a request for a row homed here (R217). -/
def State.countRow (s : State) (p t : Nat) : State := s.bump48 (kTableLoad p t) 1

/-- Space-saving count of a remote row read (R213): row, count and the error of the count. -/
def hotNote (l : List (Nat × Nat × Nat)) (r : Nat) : List (Nat × Nat × Nat) :=
  if l.any (fun e => decide (e.1 = r)) then l.map (fun e => if e.1 = r then (e.1, e.2.1 + 1, e.2.2) else e)
  else if l.length < 64 then l ++ [(r, 1, 0)]
  else
    let low := (l.map (fun e => e.2.1)).foldl min ((l.headD (0, 0, 0)).2.1)
    match indexOf? (fun e => decide (e.2.1 = low)) l with
    | some k => modifyAt l k (fun _ => (r, low + 1, low))
    | none => l

/-- Note a foreground read of a remote row of a class 0 table. -/
def State.noteHot (s : State) (x : Rows) (p t r : Nat) : State :=
  match x.home s.device p r with
  | .away _ _ =>
    if x.tab.cls = 0 then
      s.modPart p (fun y => { y with hot := FMap.set (fun _ => []) y.hot t (hotNote (FMap.get (fun _ => []) y.hot t) r) })
    else s
  | _ => s

/-- Read row `r` of table `t` for a descriptor of engine `e`: from memory here, or from what has arrived (R202, R205). -/
def fetchRow (e p t : Nat) (x : Rows) (r : Nat) : UM (List Byte) := do
  if 2 ^ 40 ≤ r then throw eRow
  settled p t r
  let s ← now
  let home := x.home s.device p r
  match s.readPlace x p t r with
  | .here a =>
    act (fun _ => (match home with | .away _ _ => s | _ => s.countRow p t).noteHot x p t r)
    rd p .fore eBoundsR a x.tab.rowSpan
  | .away _ _ =>
    act (fun _ => s.noteHot x p t r)
    match (match s.rcur e p with | some c => c.reads.find? (fun (y : (Nat × Nat) × List Byte) => decide (y.1 = (t, r))) | none => none) with
    | some y => pure y.2
    | none => throw eRemote
  | .outside => throw eRow

/-- Raise a first-NaN event of a descriptor (R61, R211). -/
def nanOf (p : Nat) (src : NanSrc) (cause elem : Nat) : UM Unit := do
  if cause = 0 then pure ()
  else act (fun s => s.nanEvent p src cause elem)

/-- Write bytes without counting a request, for the second half of a read-modify-write. -/
def wrBack (p : Nat) (a : Nat) (bs : List Byte) : UM Unit := do
  let s ← now
  match s.physRange p none a bs.length with
  | none => throw eBoundsR
  | some ks => wrKeyed p ks bs

/-- A transaction to be sent for entry `i` of the descriptor of engine `e` (R269). -/
def pushTodo (e p i : Nat) (ps : List Packet) : UM Unit :=
  act (fun s => s.modRcur e p (fun c => { c with todo := c.todo ++ [(i, ps)] }))

/-! ### Lists -/

/-- Bytes of a list entry (R203). -/
def lformSize (l : Nat) : Nat :=
  match l with
  | 0 => 8
  | 1 => 4
  | 2 => 12
  | _ => 16

/-- Entry `i` of a descriptor's list, as a number. -/
def rdEntry (p d i : Nat) : UM Nat := rdNum p .fore eBoundsR (reList d + lformSize (reLform d) * i) (lformSize (reLform d))

/-- The row an entry names (R203). -/
def entryRow (l e : Nat) : Nat := if l = 1 then bits e 0 32 else bits e 0 40

/-- A hop entry (R180): DST, SRC, COEF. -/
def hopEntry (e : Nat) : Nat × Nat × Nat := (bits e 0 32, bits e 32 32, bits e 64 32)

/-! ### GATHER (R205) -/

def gatherOne (e p d : Nat) (src : Nat → NanSrc) (x : Rows) (i : Nat) : UM Unit := do
  let n ← rdEntry p d i
  let bs ← fetchRow e p (reTable d) x (entryRow (reLform d) n)
  if reOfmt d = 3 then wr p eBoundsR (reDst d + i * reDpitch d) (bs.take x.tab.rowSpan)
  else
    let vs := x.tab.values bs
    wr p eBoundsR (reDst d + i * reDpitch d) (vs.flatMap (fun v => toBytes (fsize (reOfmt d)) ((ffmt (reOfmt d)).encode v.1)))
    (List.range vs.length).forM (fun j =>
      let v := (vs[j]?).getD (.fin false 0 0, 0)
      nanOf p (src x.tab.readOp) (if v.1.isNaN then v.2 else 0) (i * x.tab.len + j))

def gatherWork (e p d : Nat) (src : Nat → NanSrc) (x : Rows) : UM Nat := do
  (List.range (reCount d)).forM (fun i => atEntry i (gatherOne e p d src x i))
  let w := if reOfmt d = 3 then x.tab.rowSpan else x.tab.len * fsize (reOfmt d)
  pure ((reCount d - 1) * reDpitch d + w)

/-! ### Weighted sums (R206, R207) -/

/-- Consecutive lists of at most 128 elements. -/
def chunks128 {α : Type} : Nat → List α → List (List α)
  | 0, _ => []
  | _, [] => []
  | n + 1, l => l.take 128 :: chunks128 n (l.drop 128)

/-- Σ coefficient × x over a segment, element `j`: the FP32 run and the cause of a NaN (R50-R53). -/
def segElem (seg : List (Nat × List FVal)) (j : Nat) : Nat × Nat :=
  (chunks128 seg.length seg).foldl (fun (acc : Nat × Nat) c =>
    let r := chunk (c.map (fun y => (fp32.decode y.1, (y.2[j]?).getD (.fin false 0 0))))
    let v := f32add acc.1 r.1
    let c := firstCause acc.2 r.2
    (v, if f32nan v = false then 0 else if c ≠ 0 then c else causeInvalid)) (0, 0)

/-- Group list entries that share a key and stand together. -/
def groupRuns : List (Nat × Nat × Nat × Nat) → List (List (Nat × Nat × Nat × Nat))
  | [] => []
  | x :: xs => match groupRuns xs with
    | [] => [[x]]
    | [] :: gs => [x] :: gs
    | (y :: g) :: gs => if x.1 = y.1 then (x :: y :: g) :: gs else [x] :: (y :: g) :: gs

/-- Elements of a row that fills its pitch on both sides (R206, R207; log 16). -/
def pitchLen (d osize : Nat) : Nat := min (reSpitch d / fsize (reIfmt d)) (reDpitch d / osize)

/-- Source row of a POOL entry as FP32 values (R206 SMODE). -/
def poolRow (e p d : Nat) (x : Option Rows) (sv : Nat) : UM (List FVal) := do
  let cvt : List FVal → List FVal := fun vs => vs.map (fun v => fp32.decode (fp32.encode v))
  match reSmode d, x with
  | 1, _ => do
    let bs ← rd p .fore eBoundsR (reSrc d + sv * reSpitch d) (pitchLen d (fsize (reOfmt d)) * fsize (reIfmt d))
    pure (cvt (floatRow (reIfmt d) bs))
  | 0, some x => do
    let u ← rdNum p .fore eBoundsR (reUnique d + 8 * sv) 8
    let bs ← fetchRow e p (reTable d) x (bits u 0 40)
    pure (cvt ((x.tab.values bs).map Prod.fst))
  | _, some x => do
    let bs ← fetchRow e p (reTable d) x sv
    pure (cvt ((x.tab.values bs).map Prod.fst))
  | _, none => throw eTable

/-- All hop entries of a list: key (DST or SRC), other end, coefficient, place. -/
def hopList (p d : Nat) (bySrc : Bool) : UM (List (Nat × Nat × Nat × Nat)) :=
  (List.range (reCount d)).mapM (fun i => atEntry i (do
    let n ← rdEntry p d i
    let h := hopEntry n
    pure (if bySrc then (h.2.1, h.1, h.2.2, i) else (h.1, h.2.1, h.2.2, i))))

def poolWork (e p d : Nat) (src : Nat → NanSrc) (x : Option Rows) : UM Nat := do
  let es ← hopList p d false
  let len := match x with | some y => y.tab.len | none => pitchLen d (fsize (reOfmt d))
  let r ← (groupRuns es).foldlM (fun (acc : Option Nat × Nat) g => do
    let k := (g.headD (0, 0, 0, 0)).1
    let i := (g.headD (0, 0, 0, 0)).2.2.2
    atEntry i (do
      if (match acc.1 with | some m => decide (k < m) | none => false) then throw eList
      let seg ← g.mapM (fun y => atEntry y.2.2.2 (do
        let vs ← poolRow e p d x y.2.1
        pure (y.2.2.1, vs)))
      let out := (List.range len).map (segElem seg)
      wr p eBoundsR (reDst d + k * reDpitch d)
        (out.flatMap (fun o => toBytes (fsize (reOfmt d)) ((ffmt (reOfmt d)).encode (fp32.decode o.1))))
      (List.range len).forM (fun j => nanOf p (src 6) ((out[j]?).getD (0, 0)).2 (k * len + j))
      pure (some k, max acc.2 (k * reDpitch d + len * fsize (reOfmt d))))) (none, 0)
  pure r.2

def replayWork (p d : Nat) (src : Nat → NanSrc) : UM Nat := do
  let es ← hopList p d true
  let len := pitchLen d 4
  let sorted := sortBy (fun (a b : Nat × Nat × Nat × Nat) => decide (a.1 ≤ b.1)) es
  (groupRuns sorted).forM (fun g =>
    let k := (g.headD (0, 0, 0, 0)).1
    atEntry (g.headD (0, 0, 0, 0)).2.2.2 (do
      let seg ← g.mapM (fun y => atEntry y.2.2.2 (do
        let bs ← rd p .fore eBoundsR (reSrc d + y.2.1 * reSpitch d) (len * fsize (reIfmt d))
        pure (y.2.2.1, (floatRow (reIfmt d) bs).map (fun v => fp32.decode (fp32.encode v)))))
      let out := (List.range len).map (segElem seg)
      let old ← rd p .fore eBoundsR (reDst d + k * reDpitch d) (4 * len)
      let new := (List.range len).map (fun j =>
        let o := (out[j]?).getD (0, 0)
        let w := field old (4 * j) 4
        let v := f32add w o.1
        let c := firstCause o.2 (if f32nan w then causeConsumed else 0)
        (v, if f32nan v = false then 0 else if c ≠ 0 then c else causeInvalid))
      wrBack p (reDst d + k * reDpitch d) (new.flatMap (fun o => toBytes 4 o.1))
      (List.range len).forM (fun j => nanOf p (src 7) ((new[j]?).getD (0, 0)).2 (k * len + j))))
  pure 0

/-! ### Row adds at the home (R208, R209) -/

/-- Who contributes: device, partition, sequence (R209). -/
structure Contrib where
  dev  : Nat
  part : Nat
  seq  : Nat
  deriving DecidableEq, Repr

/-- Add FP32 codes into a row from element `first` (R56, R208). -/
def addElems (p : Nat) (x : RowTab) (a first : Nat) (vals : List Nat) (src : NanSrc) (elem0 : Nat) : UM Unit := do
  let z := fsize x.fmt
  let f := ffmt x.fmt
  let old ← rd p .fore eBoundsR (a + z * first) (z * vals.length)
  let new := (List.range vals.length).map (fun j =>
    let o := f.decode (field old (z * j) z)
    let v := fp32.decode ((vals[j]?).getD 0)
    let r := o.add v
    (f.encode r, nanCause [o, v] r))
  wrBack p (a + z * first) (new.flatMap (fun n => toBytes z n.1))
  (List.range vals.length).forM (fun j => nanOf p src ((new[j]?).getD (0, 0)).2 (elem0 + j))

/-- Bytes of an order-buffer entry (R209). -/
def RowTab.orderSize (t : RowTab) : Nat := 32 + roundUp (4 * t.len) 32

/-- Header of an order-buffer entry (R209). -/
def orderHeader (row : Nat) (c : Contrib) : Nat :=
  row % 2 ^ 40 + (c.dev % 2 ^ 17) * 2 ^ 40 + (c.part % 32) * 2 ^ 57 + (c.seq % 2 ^ 40) * 2 ^ 64

def State.orderCount (s : State) (p t : Nat) : Nat := FMap.get (fun _ => 0) (s.part p).orders t
def State.setOrderCount (s : State) (p t n : Nat) : State :=
  s.modPart p (fun x => { x with orders := FMap.set (fun _ => 0) x.orders t n })

/-- The newest buffered entry with this header (R209). -/
def findOrder (p : Nat) (x : RowTab) (h : Nat) : Nat → UM (Option Nat)
  | 0 => pure none
  | n + 1 => do
    let w ← rdNum p .again eBoundsR (x.orderBuf + n * x.orderSize) 16
    if w = h % 2 ^ 128 then pure (some n) else findOrder p x h n

/-- A contribution to the row at stall address `a` spills (R209): sticky bit, and once a step and table an event, whose unit
is the engine that adds it (R401). -/
def State.noteSpill (s : State) (p t a stall head : Nat) : State :=
  let e := engineOf ((s.phys p none a).getD 0)
  let s := s.setObj (kReStatus p) (s.obj (kReStatus p) ||| 1)
  if t ∈ (s.part p).spilled then s
  else (s.modPart p (fun x => { x with spilled := x.spilled ++ [t] })).reportError p eSpill stall 6 e head 0xFFFFFFFF 0

/-- STRICT of DETERMINISM (R354). -/
def State.strict (s : State) (p : Nat) : Bool := bit (s.obj (kDeterminism p)) 0

/-- An add that stays in arrival order sets DET_LOST under STRICT (R354). -/
def State.noteArrival (s : State) (p : Nat) : State :=
  if s.strict p then s.modPart p (fun x => { x with detLost := true }) else s

/-- Work stops before it writes bytes whose sectors it could not store in part (R246). -/
def writable (p a n : Nat) : UM Unit := do
  let s ← now
  match s.physRange p none a n with
  | none => throw eBoundsR
  | some ks =>
    let d := s.sense (partSectors ks)
    act (fun _ => d.1)
    if d.2 then throw ePoison

/-- A contribution to a row homed here at stall address `a`: buffered for an ordered table, else added at once
(R208, R209); nothing is counted of one that fails (R270).  `head` is the first 8 bytes of the descriptor, for a report. -/
def contribute (p t : Nat) (x : RowTab) (a row first : Nat) (vals : List Nat) (c : Contrib) (src : NanSrc)
    (elem0 head : Nat) : UM Unit := do
  let s ← now
  let done : UM Unit := act (fun s => s.countRow p t)
  if (x.ordered || (s.strict p && decide (x.orderBuf ≠ 0))) = false then
    addElems p x a first vals src elem0
    act (fun s => s.noteArrival p)
    done
  else
    let n := s.orderCount p t
    let h := orderHeader row c
    let slot ← (if first = 0 then pure none else findOrder p x h n)
    match slot with
    | some k =>
      writable p (x.orderBuf + k * x.orderSize + 32 + 4 * first) (4 * vals.length)
      wr p eBoundsR (x.orderBuf + k * x.orderSize + 32 + 4 * first) (vals.flatMap (toBytes 4))
      done
    | none =>
      if first = 0 ∧ n < x.orderCap then
        let body := toBytes 32 h ++ vals.flatMap (toBytes 4)
        wr p eBoundsR (x.orderBuf + n * x.orderSize) (body ++ zeros (x.orderSize - body.length))
        act (fun s => s.setOrderCount p t (n + 1))
        done
      else
        addElems p x a first vals src elem0
        act (fun s => (if first = 0 then s.noteSpill p t a src.stall head else s).noteArrival p)
        done

/-- The ROW_ATOMIC packets of one row (R267): at most 1,024 elements each. -/
def rowAtomics (s : State) (p t dev part row seq : Nat) (vals : List Nat) : List Packet :=
  (List.range (ceilDiv vals.length 1024)).map (fun i =>
    mkPacket s.device { kind := pkRowAtomic, vl := s.dataVl p, dev := dev, part := part, src := p, addr := s.rowName p t row,
                        aux := t + (1024 * i % 2 ^ 16) * 2 ^ 8 + (seq % 2 ^ 40) * 2 ^ 24 }
      (((vals.drop (1024 * i)).take 1024).flatMap (toBytes 4)) none)

/-- Sum contributions element by element in list order, one rounding each: codes and causes (R208). -/
def sumRows (len : Nat) (rows : List (List Nat)) : List (Nat × Nat) :=
  (List.range len).map (fun j =>
    match rows.map (fun r => (r[j]?).getD 0) with
    | [] => (0, 0)
    | v :: vs => vs.foldl (fun (acc : Nat × Nat) w =>
        let r := f32add acc.1 w
        (r, if acc.2 ≠ 0 then firstCause acc.2 (if f32nan w then causeConsumed else 0)
            else nanCause [fp32.decode acc.1, fp32.decode w] (fp32.decode r))) (v, 0))

/-- Send one merged row to its target (R208). -/
def scatterRow (e p d : Nat) (src : Nat → NanSrc) (head : Nat) (x : Rows) (i pos row : Nat) (vals : List Nat) : UM Unit := do
  if 2 ^ 40 ≤ row then throw eRow
  settled p (reTable d) row
  let s ← now
  let t := reTable d
  let seq := reSeq d * 2 ^ 24 + pos
  match s.homePlace x p t row with
  | .here a => contribute p t x.tab a row 0 vals ⟨s.device, p, seq⟩ (src 7) (pos * x.tab.len) head
  | .outside => throw eRow
  | .away dv q =>
    match (if x.tab.cls = 0 then indexOf? (fun k => decide (k = row)) x.reps else none) with
    | some k =>
      let g := x.tab.poolGrad + k * x.tab.gradPitch
      let fl ← rd p .fore eBoundsR g 32
      wrBack p g (splice fl 0 [(fl.headD 0) ||| 1])
      act (fun s => s.noteArrival p)
      addElems p { x.tab with fmt := 0 } (g + 32) 0 vals (src 7) (pos * x.tab.len)
    | none => pushTodo e p i (rowAtomics s p t dv q row seq vals)

def scatterWork (e p d : Nat) (src : Nat → NanSrc) (head : Nat) (x : Rows) : UM Nat := do
  let len := x.tab.len
  let es ← (List.range (reCount d)).mapM (fun i => atEntry i (do
    let n ← rdEntry p d i
    let a := if reLform d = 3 then bits n 64 64 else reSrc d + i * reSpitch d
    let bs ← rd p .fore eBoundsR a (len * fsize (reIfmt d))
    pure (entryRow (reLform d) n, i, (floatRow (reIfmt d) bs).map (fun v => fp32.encode v))))
  let sorted := sortBy (fun (a b : Nat × Nat × List Nat) => decide (a.1 ≤ b.1)) es
  let rows := dedup (sorted.map Prod.fst)
  (List.range rows.length).forM (fun pos =>
    let r := (rows[pos]?).getD 0
    let g := sorted.filter (fun y => decide (y.1 = r))
    let i := (g.headD (0, 0, [])).2.1
    atEntry i (do
      let sum := sumRows len (g.map (fun y => y.2.2))
      (List.range len).forM (fun j => nanOf p (src 7) ((sum[j]?).getD (0, 0)).2 (pos * len + j))
      scatterRow e p d src head x i pos r (sum.map Prod.fst)))
  pure 0

/-! ### Replicas and ordered tables (R209, R214, R216) -/

def flushWork (e p d : Nat) (src : Nat → NanSrc) (head : Nat) (x : Rows) : UM Nat := do
  (List.range x.reps.length).forM (fun k => atEntry k (do
    let g := x.tab.poolGrad + k * x.tab.gradPitch
    let row := (x.reps[k]?).getD 0
    let bs ← rd p .fore eBoundsR g (32 + 4 * x.tab.len)
    if bit (field bs 0 1) 0 then
      let vals := (List.range x.tab.len).map (fun j => field bs (32 + 4 * j) 4)
      settled p (reTable d) row
      let s ← now
      let seq := reSeq d * 2 ^ 24 + k
      match s.homePlace x p (reTable d) row with
      | .here a => contribute p (reTable d) x.tab a row 0 vals ⟨s.device, p, seq⟩ (src 7) (k * x.tab.len) head
      | .away dv q => pushTodo e p k (rowAtomics s p (reTable d) dv q row seq vals)
      | .outside => throw eRow
      wrBack p g (zeros (32 + 4 * x.tab.len))
    else pure ()))
  pure 0

/-- APPLY_ORDERED (R209).  Its additions name the APPLY_ORDERED and the stall that issued it, those of contributions that
arrived as ROW_ATOMIC too: R62 leaves their source open (the model's choice, log 53). -/
def applyOrderedWork (p d : Nat) (src : Nat → NanSrc) (x : Rows) : UM Nat := do
  let s ← now
  let n := s.orderCount p (reTable d)
  let t := x.tab
  let es ← (List.range n).mapM (fun i => atEntry i (do
    let bs ← rd p .fore eBoundsR (t.orderBuf + i * t.orderSize) (32 + 4 * t.len)
    let h := field bs 0 16
    let key := bits h 0 40 * 2 ^ 80 + bits h 40 17 * 2 ^ 45 + bits h 57 5 * 2 ^ 40 + bits h 64 40
    pure (key, bits h 0 40, (List.range t.len).map (fun j => field bs (32 + 4 * j) 4))))
  let sorted := sortBy (fun (a b : Nat × Nat × List Nat) => decide (a.1 ≤ b.1)) es
  (List.range sorted.length).forM (fun i => atEntry i (do
    let y := (sorted[i]?).getD (0, 0, [])
    let s ← now
    match s.homePlace x p (reTable d) y.2.1 with
    | .here a => addElems p t a 0 y.2.2 (src 7) (i * t.len)
    | _ => throw eRow))
  act (fun s => s.setOrderCount p (reTable d) 0)
  pure 0

def replicateWork (e p d : Nat) (x : Rows) : UM Nat := do
  (List.range x.reps.length).forM (fun k => atEntry k (do
    let row := (x.reps[k]?).getD 0
    settled p (reTable d) row
    let s ← now
    let bs ← (match s.homePlace x p (reTable d) row with
      | .here a => rd p .fore eBoundsR a x.tab.rowSpan
      | .away _ _ =>
        match (match s.rcur e p with | some c => c.reads.find? (fun (y : (Nat × Nat) × List Byte) => decide (y.1 = (reTable d, row))) | none => none) with
        | some y => pure y.2
        | none => throw eRemote
      | .outside => throw eRow)
    wr p eBoundsR (x.tab.pool + k * x.tab.pitch) bs))
  pure 0

/-! ### The 8-bit-moment optimiser (R227) -/

/-- The update of one parameter: new p, m, v. -/
def opt8Elem (d p g m v : Nat) : Nat × Nat × Nat :=
  let gc := f32mul g (opF d 9)
  let m1 := f32fma (opF d 1) m (f32mul (opF d 2) gc)
  let v1 := f32fma (opF d 3) v (f32mul (f32mul (opF d 4) gc) gc)
  let u := f32div (f32mul m1 (opF d 7)) (f32add (f32sqrt (f32mul v1 (opF d 8))) (opF d 5))
  let u := f32fma (opF d 6) p u
  (f32fma (f32neg (opF d 0)) u p, m1, v1)

/-- The first place of a list that satisfies `f`. -/
def firstAt (f : Nat → Bool) (xs : List Nat) : Nat := (indexOf? f xs).getD 0

/-- One block of `n` parameters: from addresses of parameters, gradients and moments; `elem0` numbers its first one.  A
moment that cannot be encoded makes one event for the block, whose ELEMENT is its first value that is not finite, before the
events of the block's parameters: R44 and R60 leave these points open (the model's choice, log 53). -/
def opt8Block (p d : Nat) (src : NanSrc) (n pa pd ga ma md elem0 : Nat) : UM Unit := do
  let k := if opPfmt d then 1 else 0
  let z := fsize k
  let ps ← rd p .fore eBoundsR pa (z * n)
  let gs ← rd p .fore eBoundsR ga (4 * n)
  let ms ← rd p .fore eBoundsR ma 132
  let r := (List.range n).map (fun i =>
    let pv := fp32.encode ((ffmt k).decode (field ps (z * i) z))
    let g := field gs (4 * i) 4
    let m := momDec1 (field ms 0 2) (field ms (4 + i) 1)
    let v := momDec2 (field ms 2 2) (field ms (68 + i) 1)
    let y := opt8Elem d pv g m v
    let nanIn := [pv, g, m, v].any f32nan || (List.range 10).any (fun j => f32nan (opF d j))
    (y, if f32nan y.1 then (if nanIn then causeConsumed else causeInvalid) else 0))
  let m1 := r.map (fun y => y.1.2.1)
  let v1 := r.map (fun y => y.1.2.2)
  let e1 := momEnc1 m1
  let e2 := momEnc2 v1
  wr p eBoundsR md (toBytes 2 e1.1 ++ toBytes 2 e2.1 ++ e1.2.1.flatMap (toBytes 1) ++ zeros (64 - n) ++
    e2.2.1.flatMap (toBytes 1) ++ zeros (64 - n))
  wr p eBoundsR pd (r.flatMap (fun y => toBytes z ((ffmt k).encode (fp32.decode y.1.1))))
  nanOf p src (if e1.2.2 then causeCoded else 0) (elem0 + firstAt (fun m => !(f32fin m)) m1)
  nanOf p src (if e2.2.2 then causeCoded else 0) (elem0 + firstAt (fun v => !(f32fin v)) v1)
  (List.range n).forM (fun i => nanOf p src ((r[i]?).getD ((0, 0, 0), 0)).2 (elem0 + i))

/-- The blocks of `len` parameters. -/
def opt8Row (p d : Nat) (src : NanSrc) (len pa pd ga ma md elem0 : Nat) (dense : Bool) : UM Unit :=
  let z := if opPfmt d then 2 else 4
  (List.range (ceilDiv len 64)).forM (fun b =>
    let m := opt8Block p d src (min 64 (len - 64 * b)) (pa + 64 * z * b) (pd + 64 * z * b) (ga + 256 * b) (ma + 132 * b)
      (md + 132 * b) (elem0 + 64 * b)
    if dense then atEntry b m else m)

def opt8Work (p d : Nat) (src : Nat → NanSrc) : UM Nat := do
  if opDense d then opt8Row p d (src 9) (reCount d) (opPsrc d) (opPdst d) (opGrad d) (opMsrc d) (opMdst d) 0 true
  else (List.range (reCount d)).forM (fun i => atEntry i (do
    let r ← rdNum p .fore eBoundsR (reList d + 4 * i) 4
    opt8Row p d (src 9) (opRowLen d) (opPsrc d + r * opPpitch d) (opPdst d + r * opPpitch d) (opGrad d + i * opGpitch d)
      (opMsrc d + r * opMpitch d) (opMdst d + r * opMpitch d) (i * opRowLen d) false))
  pure 0

end Sys2Proof.Machine
end

