-- ==== Sys2Proof/Machine/RowEngine.lean ====
section
/-!
DEFINITION. Row-engine descriptors: arrival and issue checks, start, transactions to other modules, migration, completion
and failure (R196-R204, R218, R219, R228, R229, R231).
-/

namespace Sys2Proof.Machine

/-! ### Issue checks (R203, R204, R228; their order is log 15) -/

/-- The fields of the 64-byte descriptor, as place and width, with a number each. -/
def reField (k : Nat) : Nat × Nat :=
  match k with
  | 0 => (10, 2)     -- LFORM
  | 1 => (12, 2)     -- OFMT
  | 2 => (14, 2)     -- IFMT
  | 3 => (16, 2)     -- SMODE
  | 4 => (18, 1)     -- NOALLOC
  | 5 => (24, 8)     -- TABLE
  | 6 => (32, 32)    -- COUNT
  | 7 => (64, 64)    -- LIST
  | 8 => (128, 64)   -- SRC
  | 9 => (256, 64)   -- DST
  | 10 => (320, 32)  -- SPITCH
  | 11 => (352, 32)  -- DPITCH
  | 12 => (384, 16)  -- SEQ
  | 13 => (400, 16)  -- VERSION
  | _ => (448, 64)   -- UNIQUE

/-- The fields an operation uses (R204). -/
def reUses (d : Nat) : List Nat :=
  match reOp d with
  | 1 => [0, 1, 4, 5, 6, 7, 9, 11]
  | 2 => [0, 1, 3, 4, 6, 7, 9, 11] ++
         (match reSmode d with | 0 => [5, 14] | 1 => [2, 8, 10] | _ => [5])
  | 3 => [0, 2, 6, 7, 8, 9, 10, 11]
  | 4 => [0, 2, 5, 6, 7, 8, 10, 12]
  | 5 => [5, 12]
  | 6 => [5]
  | 8 => [5, 8, 13]
  | 9 => [5]
  | 10 => [0, 5, 6, 7]
  | _ => []

/-- Whether a descriptor breaks E_FIELD; `n` is its length in 32-byte units (R203, R204, R226). -/
def reBadField (d n : Nat) : Bool :=
  if reOp d = 7 then
    decide (n ≠ 4 ∨ 2 ≤ dCmpl d ∨ bits d 12 20 ≠ 0 ∨ bits d 240 16 ≠ 0 ∨ bits d 960 64 ≠ 0 ∨ reCount d = 0 ∨
      (opDense d ∧ (reList d ≠ 0 ∨ opRowLen d ≠ 0 ∨ opPpitch d ≠ 0 ∨ opMpitch d ≠ 0 ∨ opGpitch d ≠ 0)))
  else if reOp d = 0 ∨ 10 < reOp d then true
  else
    let u := reUses d
    decide (n ≠ 2 ∨ dCmpl d = 3 ∨ bits d 19 5 ≠ 0 ∨ bits d 240 16 ≠ 0 ∨ bits d 424 24 ≠ 0) ||
    (List.range 15).any (fun k => !(u.contains k) && decide (bits d (reField k).1 (reField k).2 ≠ 0)) ||
    decide (reOp d ≠ 10 ∧ reTable2 d ≠ 0xFF) ||
    (u.contains 2 && decide (reIfmt d = 3)) || (u.contains 3 && decide (reSmode d = 3)) ||
    (u.contains 6 && decide (reCount d = 0 ∨ 2 ^ 24 < reCount d)) ||
    (decide (dCmpl d = 2) && !(inLoft (reDst d)))

/-- Whether an address or pitch is no multiple of 32 (E_ALIGN). -/
def reBadAlign (d : Nat) : Bool :=
  (if reOp d = 7 then
     [opGrad d, opPsrc d, opPdst d, opMsrc d, opMdst d] ++
     (if opDense d then [] else [reList d, opPpitch d, opMpitch d, opGpitch d])
   else
     [(7, reList d), (8, reSrc d), (9, reDst d), (10, reSpitch d), (11, reDpitch d), (14, reUnique d)].filterMap
       (fun f => if (reUses d).contains f.1 then some f.2 else none)).any (fun a => decide (a % 32 ≠ 0))

/-- The regions a descriptor names, as far as it gives their extent: lists and contiguous arrays whole, rows under a pitch
up to the first sector of the last one, and where a list picks the rows, the first sector (R228). -/
def reRegions (d : Nat) : List (Nat × Nat) :=
  if reOp d = 7 then
    let z := if opPfmt d then 2 else 4
    if opDense d then
      [(opGrad d, 4 * reCount d), (opPsrc d, z * reCount d), (opPdst d, z * reCount d),
       (opMsrc d, 132 * ceilDiv (reCount d) 64), (opMdst d, 132 * ceilDiv (reCount d) 64)]
    else [(reList d, 4 * reCount d), (opGrad d, (reCount d - 1) * opGpitch d + 32), (opPsrc d, 32), (opPdst d, 32),
          (opMsrc d, 32), (opMdst d, 32)]
  else
    let rows : Nat → Nat := fun pitch => (reCount d - 1) * pitch + 32
    (if (reUses d).contains 7 then [(reList d, lformSize (reLform d) * reCount d)] else []) ++
    (match reOp d with
     | 1 => [(reDst d, rows (reDpitch d))]
     | 2 => (reDst d, 32) :: (if reSmode d = 1 then [(reSrc d, 32)] else if reSmode d = 0 then [(reUnique d, 8)] else [])
     | 3 => [(reSrc d, 32), (reDst d, 32)]
     | 4 => if reLform d = 3 then [] else [(reSrc d, rows (reSpitch d))]
     | 8 => [(reSrc d, 32)]
     | _ => [])

/-- Whether a region that a descriptor names leaves the partition (E_BOUNDS). -/
def State.reBadBounds (s : State) (p d : Nat) : Bool :=
  (reRegions d).any (fun r => !(s.mapped p none r.1 r.2)) || (decide (reOp d = 8) && !(inHbm (reSrc d)))

/-- The first issue check that fails; 0 for none. -/
def State.reCheck (s : State) (p d n : Nat) : Nat :=
  if reBadField d n then 0x0701
  else if reBadAlign d then 0x0703
  else if s.reBadBounds p d then eBoundsR
  else if s.badTarget p d then 0x070A
  else 0

/-! ### Failure and arrival -/

/-- The issuing stall's tag for a descriptor is freed (R126, R196). -/
def State.freeDesc (s : State) (d : Desc) : State :=
  s.giveTag d.stall d.tagId

/-- RE_STATUS records a failure (R231). -/
def State.reStatus (s : State) (p code stall : Nat) : State :=
  let v := setBits (setBits (s.obj (kReStatus p)) 16 16 code) 32 10 stall
  s.setObj (kReStatus p) (v ||| (if code = eFwdFull then 2 else 0) ||| (if code = ePoison then 4 else 0))

/-- A descriptor of engine `e` fails with an entry index (R228, R229). -/
def State.reFail (s : State) (e : Nat) (d : Desc) (code entry fcode : Nat) : State :=
  ((s.reStatus d.part code d.stall).failDesc d code 6 e entry fcode).freeDesc d

/-- Descriptors queued at engine `e` for partition `p`. -/
def State.rowQueue (s : State) (e p : Nat) : List Desc := FMap.get (fun _ => []) (s.engine e).queues p
def State.setRowQueue (s : State) (e p : Nat) (q : List Desc) : State :=
  s.modEngine e (fun x => { x with queues := FMap.set (fun _ => []) x.queues p q })

/-- No failing entry (R228). -/
def noEntry : Nat := 0xFFFFFFFF

/-- A descriptor reaches its coordinator: failed at issue, or one of 4 queued for its partition (R196). -/
def reArrive (ok : Nat → Bool) (k : Nat) (s : State) : Out1 :=
  arrive k (fun m => decide (m.op = .ucmd ∧ m.kind = 6) && ok (reOp m.data.toNat))
    (fun s m => decide (4 ≤ (s.rowQueue m.idx m.part).length))
    (fun s m =>
      let c := s.reCheck m.part m.data.toNat m.n
      if c ≠ 0 then s.reFail m.idx m.desc c noEntry 0
      else s.setRowQueue m.idx m.part (s.rowQueue m.idx m.part ++ [m.desc])) s

/-- GATHER arrives (R205); a reserved OP fails with E_FIELD. -/
def execGather (k : Nat) (s : State) : Out1 := reArrive (fun o => decide (o = 1 ∨ o = 0 ∨ 10 < o)) k s
/-- POOL arrives (R206). -/
def execPool (k : Nat) (s : State) : Out1 := reArrive (fun o => decide (o = 2)) k s
/-- REPLAY arrives (R207). -/
def execReplay (k : Nat) (s : State) : Out1 := reArrive (fun o => decide (o = 3)) k s
/-- SCATTER arrives (R208). -/
def execScatter (k : Nat) (s : State) : Out1 := reArrive (fun o => decide (o = 4)) k s
/-- FLUSH arrives (R216). -/
def execFlush (k : Nat) (s : State) : Out1 := reArrive (fun o => decide (o = 5)) k s
/-- APPLY_ORDERED arrives (R209). -/
def execApplyOrdered (k : Nat) (s : State) : Out1 := reArrive (fun o => decide (o = 6)) k s
/-- OPT8 arrives (R226). -/
def execOpt8 (k : Nat) (s : State) : Out1 := reArrive (fun o => decide (o = 7)) k s
/-- TSWITCH arrives (R199). -/
def execTswitch (k : Nat) (s : State) : Out1 := reArrive (fun o => decide (o = 8)) k s
/-- REPLICATE arrives (R214). -/
def execReplicate (k : Nat) (s : State) : Out1 := reArrive (fun o => decide (o = 9)) k s
/-- MIGRATE arrives (R218). -/
def execMigrate (k : Nat) (s : State) : Out1 := reArrive (fun o => decide (o = 10)) k s

/-! ### Transactions -/

/-- Give the packets of a transaction its tag. -/
def withTag (n : Nat) (k : Packet) : Packet := { k with hdr := BitVec.ofNat 256 (setBits k.hdr.toNat 96 16 n) }

/-- What a transaction is for: a READ brings a row, anything else is acknowledged (R269). -/
def rowUse (e p i : Nat) (k : Packet) (len : Nat) : TagUse :=
  if hKind k.h = pkRead then .row e p (bits (hAux k.h) 32 8) (bits (hAddr k.h) 0 40) len i else .write e p i

/-- Send what a descriptor has to send while tags are free (R269, R282 for a destination without a route).  READs ask for
rows of `len` bytes. -/
def State.pump (len : Nat) : Nat → State → Nat → Nat → State
  | 0, s, _, _ => s
  | n + 1, s, e, p =>
    match s.rcur e p with
    | none => s
    | some c =>
      match c.todo with
      | [] => s
      | (i, ps) :: rest =>
        match ps with
        | [] => State.pump len n (s.setRcur e p (some { c with todo := rest })) e p
        | k :: _ =>
          if s.routable (hDstDev k.h) = false then
            s.setRcur e p (some { c with todo := [], err := if c.err = 0 then eRemote else c.err,
                                         errIdx := if c.err = 0 then i else c.errIdx,
                                         fcode := if c.err = 0 then 0x0906 else c.fcode })
          else match s.freeTag with
            | none => s
            | some t =>
              let s := s.setRcur e p (some { c with todo := rest, tags := c.tags ++ [t] })
              let s := s.holdTag t p (rowUse e p i k len)
              State.pump len n (ps.foldl (fun s k => s.emit (withTag t k)) s) e p

/-! ### Start checks and needs -/

/-- The table a descriptor names, if its operation reads through one. -/
def reNamesTable (d : Nat) : Bool := (reUses d).contains 5 && decide (reOp d ≠ 8)

/-- Tables a descriptor captures (R200). -/
def reCaps (d : Nat) : List Nat :=
  (if reNamesTable d then [reTable d] else []) ++ (if reOp d = 10 ∧ reTable2 d ≠ 0xFF then [reTable2 d] else [])

/-- Whether the formats are outside R204. -/
def reBadFmt (d : Nat) (x : Option Rows) : Bool :=
  let rf := match x with | some y => y.tab.fmt | none => 0
  let cls := match x with | some y => y.tab.cls | none => 0
  let dec := decide (rf ≤ 2 ∨ rf = 5 ∨ rf = 6)
  match reOp d with
  | 1 => decide (1 < reLform d ∨ 7 < rf) || (decide (reOfmt d ≠ 3) && !dec)
  | 2 => decide (reLform d ≠ 2 ∨ reOfmt d = 3) || !dec
  | 3 => decide (reLform d ≠ 2)
  | 4 => decide (reLform d = 2 ∨ 2 < rf)
  | 5 => decide (cls ≠ 0)
  | 6 => decide (2 < rf)
  | 9 => decide (cls ≠ 0)
  | 10 => decide (reLform d ≠ 3 ∨ cls ≠ 1)
  | _ => false

/-- Whether a header field the operation needs is 0 (E_TABLE): ROWS_BASE with rows homed here by range, HOME_MAP with
entries, POOL for a replica index that is read or an override homed here, and the fields of R209, R214 and R216. -/
def State.reNoField (s : State) (p d : Nat) (x : Rows) : Bool :=
  let t := x.tab
  let reads := decide (reOp d = 1 ∨ reOp d = 2)
  let here := x.overs.any (fun o => decide (o.2.1 = s.device ∧ o.2.2.1 = p))
  decide (t.count ≠ 0 ∧ t.rowsBase = 0) || decide (t.homeCount ≠ 0 ∧ t.homeMap = 0) ||
  (decide (t.pool = 0) && (here || (reads && !x.reps.isEmpty))) ||
  match reOp d with
  | 4 => (t.ordered && decide (t.orderBuf = 0)) || (decide (t.poolGrad = 0) && !x.reps.isEmpty)
  | 5 => decide (t.list = 0 ∨ t.poolGrad = 0)
  | 6 => decide (t.orderBuf = 0)
  | 9 => decide (t.list = 0 ∨ t.pool = 0)
  | _ => false

/-- Whether a region whose extent the table's rows give leaves the partition, found at the start (R205, R208, R228). -/
def State.reBadRows (s : State) (p d : Nat) (x : Rows) : Bool :=
  match reOp d with
  | 1 => !(s.mapped p none (reDst d) ((reCount d - 1) * reDpitch d +
           (if reOfmt d = 3 then x.tab.rowSpan else x.tab.len * fsize (reOfmt d))))
  | 4 => decide (reLform d ≠ 3) &&
         !(s.mapped p none (reSrc d) ((reCount d - 1) * reSpitch d + x.tab.len * fsize (reIfmt d)))
  | _ => false

/-- Read the table of a descriptor at its captured base, with the start checks (R204, R228). -/
def rePrep (p d base : Nat) (mode : Reading) : UM (Option Rows) := do
  if reNamesTable d then
    let x ← rdRows p mode eBoundsR base
    let s ← now
    if s.reNoField p d x then throw eTable
    if reBadFmt d (some x) then throw eFmt
    if s.reBadRows p d x then throw eBoundsR
    pure (some x)
  else
    if reBadFmt d none then throw eFmt
    pure none

/-- The first elements of a list of computations, up to one that fails. -/
def upTo {α : Type} : List (UM α) → UM (List α)
  | [] => pure []
  | m :: ms => do
    match ← tryCatch (do let a ← m; pure (some a)) (fun _ => pure none) with
    | none => pure []
    | some a => do
      let rest ← upTo ms
      pure (a :: rest)

/-- Rows a descriptor has to read from other modules: entry and row (R202, R205, R206, R214). -/
def reNeeds (p d : Nat) (x : Rows) : UM (List (Nat × Nat)) :=
  let entry : Nat → UM Nat := fun i => rdNum p .again eBoundsR (reList d + lformSize (reLform d) * i) (lformSize (reLform d))
  match reOp d with
  | 1 => upTo ((List.range (reCount d)).map (fun i => do
      let n ← entry i
      pure (i, entryRow (reLform d) n)))
  | 2 => upTo ((List.range (reCount d)).map (fun i => do
      let n ← entry i
      if reSmode d = 0 then
        let u ← rdNum p .again eBoundsR (reUnique d + 8 * (hopEntry n).2.1) 8
        pure (i, bits u 0 40)
      else pure (i, (hopEntry n).2.1)))
  | 9 => pure ((List.range x.reps.length).map (fun k => (k, (x.reps[k]?).getD 0)))
  | _ => pure []

/-- Where a needed row is read: replicas serve all but REPLICATE. -/
def State.needPlace (s : State) (p d : Nat) (x : Rows) (r : Nat) : Place :=
  if reOp d = 9 then s.homePlace x p (reTable d) r else s.readPlace x p (reTable d) r

/-- The READs a descriptor has to send: one a row (R267). -/
def State.reReads (s : State) (p d : Nat) (x : Rows) (rows : List (Nat × Nat)) : List (Nat × List Packet) :=
  (rows.foldl (fun (acc : List Nat × List (Nat × List Packet)) e =>
    if acc.1.contains e.2 ∨ 2 ^ 40 ≤ e.2 then acc
    else match s.needPlace p d x e.2 with
      | .away dv q =>
        (e.2 :: acc.1, acc.2 ++ [(e.1, [mkPacket s.device
          { kind := pkRead, sub := 1, vl := s.dataVl p, dev := dv, part := q, src := p, addr := s.rowName p (reTable d) e.2,
            aux := reTable d * 2 ^ 32 } [] none])])
      | _ => acc) ([], [])).2

/-! ### Work -/

/-- The captured base of a descriptor's table. -/
def RCur.base (c : RCur) (t : Nat) : Nat :=
  match c.bases.find? (fun b => decide (b.1 = t)) with
  | some b => b.2
  | none => 0

/-- How an operation's accesses go through an engine (R203, R214, R218, R222). -/
def reHow (d : Nat) : How :=
  { back := decide (reOp d = 9 ∨ reOp d = 10), rows := decide (reOp d = 1 ∨ reOp d = 2),
    noAlloc := decide (reOp d = 1 ∨ reOp d = 2) && bit d 18 }

/-- Perform the work of a descriptor whose rows have all arrived. -/
def reWork (e p : Nat) (c : RCur) : UM Nat := do
  let d := c.desc.bits.toNat
  let src : Nat → NanSrc := fun op => ⟨3, op, c.desc.stall, c.desc.pc.toNat⟩
  let x ← rePrep p d (c.base (reTable d)) .again
  match reOp d, x with
  | 1, some x => gatherWork e p d src x
  | 2, x => poolWork e p d src x
  | 3, _ => replayWork p d src
  | 4, some x => scatterWork e p d src c.desc.head x
  | 5, some x => flushWork e p d src c.desc.head x
  | 6, some x => applyOrderedWork p d src x
  | 7, _ => opt8Work p d src
  | 9, some x => replicateWork e p d x
  | _, _ => pure 0

/-- A work's failure in its descriptor: code and entry. -/
def RCur.failed (c : RCur) (er : Nat) : RCur :=
  { c with err := er % 2 ^ 16, errIdx := if er / 2 ^ 16 = 0 then noEntry else er / 2 ^ 16 - 1, ready := true }

/-- Bytes of a row of the descriptor's table, for READs. -/
def State.rowLen (s : State) (p : Nat) (c : RCur) : Nat :=
  match (rdRows p .again eBoundsR (c.base (reTable c.desc.bits.toNat))).look s with
  | .ok x => x.tab.rowSpan
  | .error _ => 0

/-- Send what a running descriptor has to send. -/
def State.rowSend (s : State) (e p : Nat) : State :=
  match s.rcur e p with
  | some c => State.pump (s.rowLen p c) c.todo.length s e p
  | none => s

/-- A failed descriptor with nothing outstanding ends (R229); rows whose copy was not acknowledged stay where they were. -/
def State.rowEnd (s : State) (e p : Nat) : State :=
  match s.rcur e p with
  | some c =>
    if c.err ≠ 0 ∧ c.ready ∧ c.todo = [] ∧ c.tags = [] then
      let s := { s with fwd := s.fwd.filter (fun f => !(decide (f.part = p) && decide (f.copier.map Prod.fst = some e))) }
      (s.setRcur e p none).reFail e c.desc c.err c.errIdx c.fcode
    else s
  | none => s

/-- The rows of other modules that a descriptor still has to read, as its table and the forwarding entries stand now; none
while one of its rows is being copied (R219). -/
def State.reMissing (s : State) (p : Nat) (c : RCur) : Option (List (Nat × List Packet)) :=
  let d := c.desc.bits.toNat
  match (rePrep p d (c.base (reTable d)) .again).look s with
  | .ok (some x) =>
    (match (reNeeds p d x).look s with
     | .ok rows =>
       if rows.any (fun r => s.copying p (reTable d) r.2) then none
       else some (s.reReads p d x (rows.filter (fun r => !(c.reads.any (fun y => decide (y.1 = (reTable d, r.2)))))))
     | .error _ => some [])
  | _ => some []

/-- Go on with the running descriptor of partition `p` at engine `e`: send, and perform the work once every row it reads
from elsewhere has arrived and every sector it touches has its turn (R194, R195). -/
def State.rowAdvance (s : State) (e p : Nat) : State :=
  let s := s.rowSend e p
  match s.rcur e p with
  | none => s
  | some c =>
    if c.ready ∨ c.todo ≠ [] ∨ c.tags ≠ [] ∨ (reOp c.desc.bits.toNat = 10 ∧ c.err = 0) then s.rowEnd e p
    else if c.err ≠ 0 then (s.setRcur e p (some { c with ready := true })).rowEnd e p
    else match s.reMissing p c with
    | none => s
    | some (t :: ts) => (s.setRcur e p (some { c with todo := t :: ts })).rowSend e p
    | some [] =>
      match (reWork e p c).run (reHow c.desc.bits.toNat) s with
      | none => s
      | some r =>
        let s := match r.1 with
          | .ok n => r.2.modRcur e p (fun c => { c with ready := true, size := n })
          | .error er => r.2.modRcur e p (fun c => c.failed er)
        (s.rowSend e p).rowEnd e p

/-- TSWITCH (R199, R203): completes when its request is accepted. -/
def State.startSwitch (s : State) (e p : Nat) (d : Desc) (c : RCur) : State :=
  let b := d.bits.toNat
  let t := reTable b
  if tdKind (s.obj (kTable p t)) = 0 then s.reFail e d eTable noEntry 0
  else if s.versionLive p t (reVersion b) then s.reFail e d 0x0706 noEntry 0
  else (s.requestSwitch p t (reSrc b) (reVersion b)).setRcur e p (some { c with ready := true })

/-- Start a descriptor: captures, start checks, and the READs it needs (R200, R228); none while the sectors of its table's
header and lists do not have their turn. -/
def State.rowStart (s : State) (e p : Nat) (d : Desc) : Option State :=
  let b := d.bits.toNat
  let c : RCur :=
    { desc := d, caps := s.capture p (reCaps b), bases := (reCaps b).map (fun t => (t, tdBase (s.obj (kTable p t)))),
      err := 0, errIdx := noEntry, fcode := 0, tags := [], todo := [], reads := [], ready := false, bound := false,
      next := 0, size := 0 }
  if reOp b = 8 then some (s.startSwitch e p d c)
  else if (reCaps b).any (fun t => decide (tdKind (s.obj (kTable p t)) ≠ 4)) then some (s.reFail e d eTable noEntry 0)
  else (rePrep p b (c.base (reTable b)) .fore).run (reHow b) s |>.map fun r =>
    match r with
    | (.error er, s) => s.reFail e d (er % 2 ^ 16) noEntry 0
    | (.ok none, s) => (s.setRcur e p (some c)).rowAdvance e p
    | (.ok (some x), s) =>
      match (reNeeds p b x).look s with
      | .error _ => (s.setRcur e p (some c)).rowAdvance e p
      | .ok rows => (s.setRcur e p (some { c with todo := s.reReads p b x rows })).rowAdvance e p

/-- ROW_DESCRIPTOR_START (R196): engine `e` starts partition `p`'s next descriptor, or goes on with the one in execution. -/
def execRowDescriptorStart (e p : Nat) (s : State) : Out1 :=
  if 384 ≤ e ∨ 32 ≤ p then .fault .noSuchUnit
  else match s.rcur e p with
    | some _ => .next (s.rowAdvance e p)
    | none =>
      match s.rowQueue e p with
      | [] => .next s
      | d :: rest => .next (((s.setRowQueue e p rest).rowStart e p d).getD s)

/-- ROW_DESCRIPTOR_COMPLETE (R145, R196): every transaction is acknowledged; the completion is performed, or waits for its
queue. -/
def execRowDescriptorComplete (e p : Nat) (s : State) : Out1 :=
  if 384 ≤ e ∨ 32 ≤ p then .fault .noSuchUnit
  else match s.rcur e p with
    | none => .next s
    | some c =>
      if c.ready = false ∨ c.todo ≠ [] ∨ c.tags ≠ [] then .next (s.rowSend e p)
      else if c.err ≠ 0 then .next (s.rowEnd e p)
      else
        let d := c.desc.bits.toNat
        match s.signal c.desc (handleAt (reDst d) c.size (dGen d)) with
        | .wait t => .next t
        | .refuse _ => .next s
        | .ok t => .next ((t.setRcur e p none).freeDesc c.desc)

/-! ### Migration (R218) -/

/-- WRITE packets that copy bytes to an HBM offset of partition `q` of device `dv` (R267). -/
def State.writePackets (s : State) (p dv q off : Nat) (bs : List Byte) : List Packet :=
  let n := ceilDiv bs.length 4096
  (List.range n).map (fun i =>
    mkPacket s.device { kind := pkWrite, vl := s.dataVl p, last := decide (i + 1 = n), dev := dv, part := q, src := p,
                        addr := off + 4096 * i, aux := if i + 1 = n then bs.length * 2 ^ 32 else 0 }
      ((bs.drop (4096 * i)).take 4096) none)

/-- The HBM offset of the POOL slot of a migrated row at its destination's current version (R218): the destination's own
header on this module gives it; on another module only that module knows it, and the offset is free (log 17). -/
def slotOffset (me t dv q slot : Nat) : UM Nat := do
  let s ← now
  if dv = me then
    let y ← rdRows q .fore eBoundsR (tdBase (s.obj (kTable q t)))
    pure (y.tab.pool + slot * y.tab.pitch - 2 ^ 48)
  else
    act State.draw
    pure (32 * Config.freeNat s.free % 2 ^ 48)

/-- Copy one row of table `t`; its forwarding entry is installed once the copy is acknowledged (R218, R219; log 17). -/
def migrateRow (e p t base i row dv q slot : Nat) : UM Unit := do
  let x ← rdRows p .fore eBoundsR base
  settled p t row
  let s ← now
  if 16384 ≤ s.fwd.length then throw eFwdFull
  match s.homePlace x p t row with
  | .here a =>
    let bs ← rd p .fore eBoundsR a x.tab.rowSpan
    let dst ← slotOffset s.device t dv q slot
    pushTodo e p i (s.writePackets p dv q dst bs)
    let f : Fwd := { part := p, table := t, row := row, dev := dv, dpart := q, slot := slot, dst := dst, old := a,
                     len := x.tab.rowSpan, copier := some (e, i) }
    act (fun s => { s with fwd := s.fwd ++ [f] })
  | _ => throw eRow

/-- Copy the next entry of a MIGRATE: its row, and the TABLE2 row of the same number. -/
def migrateEntry (e p : Nat) (c : RCur) : UM Unit := do
  let d := c.desc.bits.toNat
  let i := c.next
  atEntry i (do
    let n ← rdEntry p d i
    let row := bits n 0 40
    let dv := bits n 40 17
    let q := bits n 57 5
    let slot := bits n 64 32
    migrateRow e p (reTable d) (c.base (reTable d)) i row dv q slot
    if reTable2 d ≠ 0xFF then migrateRow e p (reTable2 d) (c.base (reTable2 d)) i row dv q slot)

/-- MIGRATE_COPY (R218): after the step boundary, and while the table's order buffer is empty, the next entry is copied.  In
a partition that does not run no boundary comes, and the accepted MIGRATE runs to completion (R197; log 56). -/
def execMigrateCopy (e p : Nat) (s : State) : Out1 :=
  if 384 ≤ e ∨ 32 ≤ p then .fault .noSuchUnit
  else match s.rcur e p with
    | none => .next s
    | some c =>
      let d := c.desc.bits.toNat
      if reOp d ≠ 10 ∨ (c.bound = false ∧ s.partRuns p) ∨ c.ready ∨ s.orderCount p (reTable d) ≠ 0 then .next s
      else match (migrateEntry e p c).run (reHow d) s with
        | none => .next s
        | some r =>
          let s := match r.1 with
            | .ok _ => r.2.modRcur e p (fun c =>
                { c with next := c.next + 1, ready := decide (reCount d ≤ c.next + 1) })
            | .error er => r.2.modRcur e p (fun c => c.failed er)
          .next ((s.rowSend e p).rowEnd e p)

end Sys2Proof.Machine
end

