-- ==== Sys2Proof/Machine/Dma.lean ====
section
/-!
DEFINITION. A shed's DMA engine: COPY, COMPRESS and EXPAND, on this module and to another one, and the requests for table
switches (R190, R199, R223-R225, R228).
-/

namespace Sys2Proof.Machine

/-! ### Fields (R224) -/

def dmEsize (d : Nat) : Nat := 2 ^ bits d 10 2
def dmRemote (d : Nat) : Bool := bit d 12
def dmPart (d : Nat) : Nat := bits d 13 5
def dmDev (d : Nat) : Nat := bits d 18 17
def dmSrc (d : Nat) : Nat := bits d 64 64
def dmDst (d : Nat) : Nat := bits d 128 64
def dmRows (d : Nat) : Nat := bits d 256 32
def dmBytes (d : Nat) : Nat := bits d 288 32
def dmSpitch (d : Nat) : Nat := bits d 320 32
def dmDpitch (d : Nat) : Nat := bits d 352 32
def dmPtr (d : Nat) : Nat := bits d 384 64
def dmThresh (d : Nat) : Nat := bits d 448 8
def dmCap (d : Nat) : Nat := bits d 456 32

/-! ### Issue checks -/

/-- Whether a descriptor breaks E_FIELD; fields its operation does not use must be 0 (R224, R228; log 57). -/
def dmBadField (d n : Nat) : Bool :=
  decide (n ≠ 2 ∨ reOp d = 0 ∨ 3 < reOp d ∨ dCmpl d = 3 ∨ bits d 10 2 = 3 ∨ bits d 35 29 ≠ 0 ∨ bits d 240 16 ≠ 0 ∨
          bits d 488 24 ≠ 0 ∨ dmRows d = 0 ∨ 2 ^ 24 < dmRows d ∨ dmBytes d % dmEsize d ≠ 0) ||
  (decide (reOp d = 1) && decide (dmPtr d ≠ 0 ∨ dmThresh d ≠ 0 ∨ dmCap d ≠ 0)) ||
  (decide (reOp d = 3) && decide (dmThresh d ≠ 0 ∨ dmCap d ≠ 0 ∨ dmSpitch d ≠ 0)) ||
  (!(dmRemote d) && decide (dmPart d ≠ 0 ∨ dmDev d ≠ 0)) ||
  (dmRemote d && decide (reOp d ≠ 1)) || decide (100 < dmThresh d ∧ dmThresh d ≠ 0xFF) ||
  (decide (dCmpl d = 2) && (dmRemote d || !(inLoft (dmDst d))))

/-- Whether a loft address, or the pitch of several rows in a loft, is no multiple of 32, or the row-pointer array no
multiple of 4 (E_ALIGN, R224, R228). -/
def dmBadAlign (d : Nat) : Bool :=
  ([dmSrc d] ++ (if dmRemote d then [] else [dmDst d]) ++ (if reOp d = 1 then [] else [dmPtr d])).any
    (fun a => inLoft a && decide (a % 32 ≠ 0)) ||
  (decide (1 < dmRows d) && ((decide (reOp d ≠ 3) && inLoft (dmSrc d) && decide (dmSpitch d % 32 ≠ 0)) ||
    (decide (reOp d ≠ 2) && !(dmRemote d) && inLoft (dmDst d) && decide (dmDpitch d % 32 ≠ 0)))) ||
  (decide (reOp d ≠ 1) && decide (dmPtr d % 4 ≠ 0))

/-- Whether a region whose extent the descriptor gives leaves the partition (E_BOUNDS). -/
def State.dmBadBounds (s : State) (p d : Nat) : Bool :=
  let span : Nat → Nat → Nat × Nat := fun a pitch => (a, (dmRows d - 1) * pitch + dmBytes d)
  let rs : List (Nat × Nat) := match reOp d with
    | 1 => [span (dmSrc d) (dmSpitch d)] ++ (if dmRemote d then [] else [span (dmDst d) (dmDpitch d)])
    | 2 => [span (dmSrc d) (dmSpitch d), (dmDst d, dmCap d), (dmPtr d, 4 * (dmRows d + 1))]
    | _ => [(dmSrc d, 1), span (dmDst d) (dmDpitch d), (dmPtr d, 4 * (dmRows d + 1))]
  rs.any (fun r => !(s.mapped p none r.1 r.2)) || (dmRemote d && !(inHbm (dmDst d)))

/-- The first issue check that fails; 0 for none. -/
def State.dmCheck (s : State) (p d n : Nat) : Nat :=
  if dmBadField d n then 0x0701
  else if dmBadAlign d then 0x0703
  else if s.dmBadBounds p d then eBoundsR
  else if s.badTarget p d then 0x070A
  else 0

/-- A descriptor of shed `k`'s DMA engine fails (R228, R229). -/
def State.dmFail (s : State) (k : Nat) (d : Desc) (code entry fcode : Nat) : State :=
  ((s.reStatus d.part code d.stall).failDesc d code 0 k entry fcode).freeDesc d

def State.dma (s : State) (k : Nat) : Dma := (s.shed k).dma
def State.modDma (s : State) (k : Nat) (f : Dma → Dma) : State := s.modShed k (fun x => { x with dma := f x.dma })

/-- A descriptor reaches a DMA engine: failed at issue, or one of 32 queued (R224). -/
def dmArrive (ok : Nat → Bool) (k : Nat) (s : State) : Out1 :=
  arrive k (fun m => decide (m.op = .ucmd ∧ m.kind = 0) && ok (reOp m.data.toNat))
    (fun s m => decide (32 ≤ (s.dma m.idx).queue.length))
    (fun s m =>
      let c := s.dmCheck m.part m.data.toNat m.n
      if c ≠ 0 then s.dmFail m.idx m.desc c noEntry 0
      else (s.modDma m.idx (fun x => { x with queue := x.queue ++ [m.desc] })).touch m.idx) s

/-- COPY arrives (R224); a reserved OP fails with E_FIELD. -/
def execCopy (k : Nat) (s : State) : Out1 := dmArrive (fun o => decide (o ≠ 2 ∧ o ≠ 3)) k s
/-- COMPRESS arrives (R225). -/
def execCompress (k : Nat) (s : State) : Out1 := dmArrive (fun o => decide (o = 2)) k s
/-- EXPAND arrives (R225). -/
def execExpand (k : Nat) (s : State) : Out1 := dmArrive (fun o => decide (o = 3)) k s

/-! ### Work -/

/-- COPY on this module (R224): each row unchanged. -/
def copyWork (p d : Nat) : UM Nat := do
  (List.range (dmRows d)).forM (fun i => atEntry i (do
    let bs ← rd p .fore eBoundsR (dmSrc d + i * dmSpitch d) (dmBytes d)
    wr p eBoundsR (dmDst d + i * dmDpitch d) bs))
  pure ((dmRows d - 1) * dmDpitch d + dmBytes d)

/-- The packets of a COPY to another module: one WRITE transfer (R267, R269). -/
def copyPackets (p d : Nat) : UM (List Packet) := do
  let rows ← (List.range (dmRows d)).mapM (fun i => atEntry i (do
    let bs ← rd p .fore eBoundsR (dmSrc d + i * dmSpitch d) (dmBytes d)
    let s ← now
    pure (s.writePackets p (dmDev d) (dmPart d) (dmDst d - 2 ^ 48 + i * dmDpitch d) bs)))
  let ps := rows.flatten
  let n := ps.length
  pure ((List.range n).filterMap (fun i => (ps[i]?).map (fun k =>
    let h := setBits (setBits k.hdr.toNat 15 1 (b2n (i + 1 = n))) 192 64
      (if i + 1 = n then dmRows d * dmBytes d * 2 ^ 32 else 0)
    { k with hdr := BitVec.ofNat 256 h })))

/-- COMPRESS (R225). -/
def compressWork (p d : Nat) : UM Nat := do
  let s ← now
  let th := if dmThresh d = 0xFF then bits (s.obj (kCompress p)) 0 7 else dmThresh d
  let z := dmEsize d
  wr p eBoundsR (dmPtr d) (zeros 4)
  (List.range (dmRows d)).foldlM (fun (off : Nat) i => atEntry i (do
    let bs ← rd p .fore eBoundsR (dmSrc d + i * dmSpitch d) (dmBytes d)
    let n := dmBytes d / z
    let es := (List.range n).map (fun j => (j, field bs (z * j) z))
    let nz := es.filter (fun e => decide (e.2 ≠ 0))
    let out := rowRuns z (if nz.length * 100 < th * n then nz else es)
    if dmCap d < off + out.length then throw 0x070D
    wr p eBoundsR (dmDst d + off) out
    wr p eBoundsR (dmPtr d + 4 * (i + 1)) (toBytes 4 (off + out.length))
    pure (off + out.length))) 0

/-- EXPAND (R225): dense, zero-filled rows. -/
def expandWork (p d : Nat) : UM Nat := do
  let z := dmEsize d
  let n := dmBytes d / z
  (List.range (dmRows d)).forM (fun i => atEntry i (do
    let a ← rdNum p .fore eBoundsR (dmPtr d + 4 * i) 4
    let b ← rdNum p .fore eBoundsR (dmPtr d + 4 * (i + 1)) 4
    if b < a ∨ a % 4 ≠ 0 ∨ b % 4 ≠ 0 then throw 0x070E
    let bs ← rd p .fore eBoundsR (dmSrc d + a) (b - a)
    match parseRow z (b - a) bs with
    | none => throw 0x070E
    | some es =>
      if es.any (fun e => decide (n ≤ e.1)) then throw 0x070E
      wr p eBoundsR (dmDst d + i * dmDpitch d)
        ((List.range n).flatMap (fun j => toBytes z (match es.find? (fun e => decide (e.1 = j)) with
          | some e => e.2
          | none => 0)))))
  pure ((dmRows d - 1) * dmDpitch d + dmBytes d)

/-- DMA_DESCRIPTOR_START (R194, R224): the next descriptor of shed `sh` is performed, once every sector of HBM it touches has
its turn; a COPY to another module waits for a tag. -/
def execDmaDescriptorStart (sh : Nat) (s : State) : Out1 :=
  if 32 ≤ sh then .fault .noSuchUnit
  else
    let x := s.dma sh
    match x.queue with
    | [] => .next s
    | d :: rest =>
      let b := d.bits.toNat
      let p := d.part
      if x.cur.isSome ∨ (s.shed sh).asleep ∨ (dmRemote b ∧ s.freeTag = none) then .next s
      else
        let u := (s.modDma sh (fun x => { x with queue := rest })).touch sh
        let c : RCur := { desc := d, caps := [], bases := [], err := 0, errIdx := noEntry, fcode := 0, tags := [],
                          todo := [], reads := [], ready := true, bound := false, next := 0, size := 0 }
        let fail : State → Nat → Out1 := fun s er =>
          .next (s.dmFail sh d (er % 2 ^ 16) (if er / 2 ^ 16 = 0 then noEntry else er / 2 ^ 16 - 1) 0)
        let run : State → RCur → Out1 := fun s c => .next (s.modDma sh (fun x => { x with cur := some c }))
        if dmRemote b then
          match s.freeTag, (copyPackets p b).run plainly u with
          | some t, some (.ok ps, u) =>
            if s.routable (dmDev b) = false then .next (u.dmFail sh d eRemote 0 0x0906)
            else if ps = [] then run u c
            else run (ps.foldl (fun s k => s.emit (withTag t k)) (u.holdTag t p (.dma sh none))) { c with tags := [t] }
          | _, some (.error er, u) => fail u er
          | _, _ => .next s
        else
          match ((match reOp b with | 1 => copyWork p b | 2 => compressWork p b | _ => expandWork p b)).run plainly u with
          | some (.ok n, u) => run u { c with size := n }
          | some (.error er, u) => fail u er
          | none => .next s

/-- DMA_DESCRIPTOR_COMPLETE (R145): the transfer is acknowledged; the completion is performed, or the descriptor fails. -/
def execDmaDescriptorComplete (sh : Nat) (s : State) : Out1 :=
  if 32 ≤ sh then .fault .noSuchUnit
  else match (s.dma sh).cur with
    | none => .next s
    | some c =>
      if c.tags ≠ [] then .next s
      else
        let s' := (s.modDma sh (fun x => { x with cur := none })).touch sh
        if c.err ≠ 0 then .next (s'.dmFail sh c.desc c.err c.errIdx c.fcode)
        else
          let d := c.desc.bits.toNat
          match s'.signal c.desc (handleAt (dmDst d) c.size (dGen d)) with
          | .ok t => .next (t.freeDesc c.desc)
          | .wait t => .next (t.modDma sh (fun x => { x with cur := some c }))
          | .refuse _ => .next s

end Sys2Proof.Machine
end

