-- ==== Sys2Proof/Machine/Hbm.lean ====
section
/-!
DEFINITION. HBM: requests at a row engine's window and their sector accesses, error correction and poison, the row
cache, refresh, recalibration, patrol scrub and the clearing of frames (R194, R195, R220-R222, R233-R252).
-/

namespace Sys2Proof.Machine

/-! ### The row cache (R220-R222) -/

/-- CACHE_COUNTER_HALVE (R220): every 2²⁴ accesses, between two of them, every use counter of engine `e` is halved. -/
def execCacheCounterHalve (e : Nat) (s : State) : Out1 :=
  if 384 ≤ e then .fault .noSuchUnit
  else if (s.engine e).accesses < 2 ^ 24 then .next s
  else .next (s.modEngine e (fun x => { x with
    accesses := x.accesses - 2 ^ 24, cache := x.cache.map (fun l => { l with uses := l.uses / 2 }) }))

/-- PREFETCH_HINT (R189, R221): the hint at place `k` is dropped and counted if the window has no free entry; else its
sector is read into a line at use count 0, once no other request waits and the channel has a slot (R251). -/
def execPrefetchHint (k : Nat) (s : State) : Out1 :=
  match s.hints[k]? with
  | none => .next s
  | some h =>
    let e := h.engine
    let rest := { s with hints := removeAt s.hints k }
    if 256 ≤ (s.engine e).occupied then
      .next (rest.modEngine e (fun x =>
        { x with hints := (x.hints + 1) % 2 ^ 48, wrap := x.wrap || decide (x.hints + 1 = 2 ^ 48) }))
    else if (s.engine e).cache.any (fun l => decide (l.sector = h.sector)) ∨ s.cachePolicy h.part ≠ 0 then .next rest
    else if s.pcWaits e (h.sector % 2) ∨ s.frontSlot e (h.sector % 2) = false then .next s
    else .next (((rest.decodeSector (32 * h.sector) []).1.pass false
        { sector := h.sector, part := h.part, write := false, fills := false }).modEngine e
      (fun x => x.fill h.part (s.cacheWays h.part) h.sector 0))

/-! ### Requests of stalls (R195) -/

/-- REQUEST_ENTER_WINDOW (R195): the request that part `j` of the outstanding access at place `k` belongs to, its sectors
in one block, enters the engine's window, or waits while it is full, or while the memory throttle takes this cycle of the
engine (R366; log 34).  It counts in STACK_LOAD (R217). -/
def execRequestEnterWindow (st k j : Nat) (s : State) : Out1 :=
  if 1024 ≤ st then .fault .noSuchUnit
  else
    let x := s.stall st
    match x.acc[k]? with
    | none => .next s
    | some a => match a.parts[j]? with
      | none => .next s
      | some q0 =>
        let mine := (List.range a.parts.length).filter (fun i =>
          match a.parts[i]? with
          | some q => decide (q.stage = .issued ∧ isHbm q.phys ∧ q.phys / 512 = q0.phys / 512)
          | none => false)
        let e := engineOf q0.phys
        if mine = [] ∨ 256 ≤ (s.engine e).occupied ∨
           mine.any (fun i => match a.parts[i]? with | some q => !(x.mayPerform a q) | none => false) then .next s
        else
          let turn := (s.engine e).turns
          let s := s.modEngine e (fun g => { g with turns := (turn + 1) % 16 })
          if 16 ≤ turn + s.power.mt then .next s
          else
          let reqs := mine.filterMap (fun i => (a.parts[i]?).map (fun q =>
            ({ stall := st, seq := a.seq, part := i, sector := q.phys / 32, write := decide (a.kind ≠ .load),
               since := s.clock } : WinReq)))
          let s := s.bump48 (kStackLoad (e / 32) (s.partOf st)) 1
          let s := s.modEngine e (fun g => { g with window := g.window ++ reqs, emptyAt := s.clock })
          .next (s.setStall st (x.setAcc k { a with parts := mine.foldl (fun ps i =>
            modifyAt ps i (fun q => { q with stage := .windowed })) a.parts }))

/-- SECTOR_ACCESS (R195, R245, R246): the channel performs the request at place `k` of engine `e`'s window; a read, or the
read of a partial store, decodes the sector with the symbol errors `errs` of this transfer. -/
def execSectorAccess (e k : Nat) (errs : List (Nat × BitVec 8)) (s : State) : Out1 :=
  if 384 ≤ e then .fault .noSuchUnit
  else match (s.engine e).window[k]? with
    | none => .next s
    | some r =>
      let x := s.stall r.stall
      if s.windowTurn e k = false then .next s
      else match indexOf? (fun a => decide (a.seq = r.seq)) x.acc with
        | none => .next (s.leaveWindow e k)
        | some n =>
          match x.acc[n]? with
          | none => .next s
          | some a => match a.parts[r.part]? with
            | none => .next (s.leaveWindow e k)
            | some q =>
              if a.kind = .aadd ∨ a.kind = .acas ∨ x.mayPerform a q = false then .next s
              else
                let u := (s.leaveWindow e k).pass false (s.touchOf r)
                let whole := decide (a.kind = .store ∧ (storeBytes a q).length = 32)
                let d := if whole then (u, false) else u.decodeSector (r.sector * 32) errs
                .next (d.1.performPart r.stall n r.part d.2)

/-! ### Refresh and recalibration (R248, R249) -/

/-- REFRESH (R248): a refresh of pseudo-channel `pc` of channel `ch` falls due and is postponed while requests wait, up to
8; or one is issued, forced when 8 are postponed, pulled in up to 8 ahead when the pseudo-channel is idle. -/
def execRefresh (k ch pc : Nat) (postpone : Bool) (s : State) : Out1 :=
  if 12 ≤ k ∨ 32 ≤ ch ∨ 2 ≤ pc then .fault .noSuchUnit
  else if (s.hbm k).phase ≠ .ready then .next s
  else
    let d := (s.hbm k).debtOf ch pc
    let busy := s.pcWaits (32 * k + ch) pc
    let put : State → Nat → State := fun s v =>
      s.modHbm k (fun x => { x with debt := FMap.set (fun _ => 8) x.debt (2 * ch + pc) v })
    if postpone then (if d < 16 ∧ (busy ∨ d < 8) then .next (put s (d + 1)) else .next s)
    else if 16 ≤ d then .next (put (s.bumpStack k 6) (d - 1))
    else if 8 < d ∨ (busy = false ∧ 0 < d) then .next (put s (d - 1))
    else .next s

/-- RECALIBRATION (R249, R251): a channel that is due is recalibrated in an idle gap, once its window has been empty for
2 µs; or by force after 100 ms, which is counted, but after a forced refresh. -/
def execRecalibration (k ch : Nat) (s : State) : Out1 :=
  if 12 ≤ k ∨ 32 ≤ ch then .fault .noSuchUnit
  else
    let e := 32 * k + ch
    let forced := s.calForced e && !(s.refreshForced e 0) && !(s.refreshForced e 1)
    if (s.hbm k).phase ≠ .ready ∨ (s.calIdle e = false ∧ forced = false) then .next s
    else
      let s := if s.calForced e then s.bumpStack k 7 else s
      .next (s.modHbm k (fun x => { x with
        calAt := FMap.set (fun _ => 0) x.calAt ch s.clock, calTemp := FMap.set (fun _ => 0) x.calTemp ch x.temp,
        calDue := FMap.set (fun _ => 0) x.calDue ch 0 }))

/-- Channels whose stack's reading has moved by 5 °C since their last recalibration fall due (R249). -/
def Stack.markDue (x : Stack) (time : Nat) : Stack :=
  (List.range 32).foldl (fun x ch =>
    let d := x.temp - FMap.get (fun _ => 0) x.calTemp ch
    if 80 ≤ d.natAbs ∧ FMap.get (fun _ => 0) x.calDue ch = 0 then
      { x with calDue := FMap.set (fun _ => 0) x.calDue ch (time + 1) }
    else x) x

/-! ### Patrol scrub and clearing (R240, R250) -/

/-- Sectors of one stack. -/
def stackSectors : Nat := 32 * 3906250 * 16

/-- PATROL_SCRUB (R250, R251): in a slot that is left to it, the scrub of stack `k` reads its next sector, with the symbol
errors `errs` of this transfer, corrects or poisons it, and goes on; after the last one a pass is complete. -/
def execPatrolScrub (k : Nat) (errs : List (Nat × BitVec 8)) (s : State) : Out1 :=
  if 12 ≤ k then .fault .noSuchUnit
  else
    let key := s.scrubKey k
    let e := engineOf key
    if (s.hbm k).phase ≠ .ready ∨ s.scrubTurn k = false ∨ s.scrubSlot e (key / 32 % 2) = false then .next s
    else
      let d := (s.useSlot e (key / 32 % 2) 4).decodeSector key errs
      .next (d.1.modHbm k (fun x =>
        if x.scrub + 1 = stackSectors then { x with scrub := 0, passes := sat32 x.passes 1 }
        else { x with scrub := x.scrub + 1 }))

/-- `n` bytes from a physical key become zeros with fresh check symbols. -/
def State.wipe (s : State) (key n : Nat) : State :=
  { s with mem := s.mem.filter (fun e => !(decide (key ≤ e.1 ∧ e.1 < key + n))),
           ecc := s.ecc.filter (fun e => !(decide (key / 32 ≤ e.1 ∧ e.1 < (key + n) / 32))) }

/-- The pseudo-channels of yard `y`: engine and pseudo-channel (R5, R234). -/
def yardSlots (y : Nat) : List (Nat × Nat) := (List.range 192).map (fun i => (96 * y + i / 2, i % 2))

/-- FRAME_CLEARING (R240, R251): a released frame is written with zeros and fresh check symbols, in slots of every channel of
its yard that are left to it, and then is free, or its CLEARING ends. -/
def execFrameClearing (y f : Nat) (s : State) : Out1 :=
  if 4 ≤ y ∨ 715 ≤ f then .fault .noSuchUnit
  else if (s.frame y f).clearing = false ∨ (yardSlots y).any (fun c => !(s.backSlot c.1 c.2)) then .next s
  else
    let t := (yardSlots y).foldl (fun s c => s.useSlot c.1 c.2 5) s
    .next ((t.wipe (hbmKey y (f * 2 ^ 28)) (2 ^ 28)).setFrame y f { s.frame y f with clearing := false })

end Sys2Proof.Machine
end

