-- ==== Sys2Proof/Machine/Llyn.lean ====
section
/-!
DEFINITION. Llyn ports: flits, the replay buffer, credits, training, failover, and fabric time (R253-R262, R274-R276,
R279-R281, R292, R293).
-/

namespace Sys2Proof.Machine

/-! ### Credits (R260) -/

/-- Credits that come back for lane `l`: on VL0 the pool of responses fills first, since a return names the lane only
(log 18). -/
def Port.regain (x : Port) (l n : Nat) : Port :=
  if l = 0 then
    let room := laneSize 16 - x.credit 16
    let a := min n room
    let y := x.setCredit 16 (x.credit 16 + a)
    y.setCredit 0 (y.credit 0 + (n - a))
  else x.setCredit l (x.credit l + n)

/-- A port's link is up. -/
def Port.linked (x : Port) : Bool := decide (x.phase = .up ∨ x.phase = .notReady)

/-! ### Flits (R255, R256) -/

/-- What the link field of a flit says. -/
structure LinkField where
  seq   : Nat
  ack   : Nat
  ftype : Nat
  nak   : Bool
  nrdy  : Bool
  cvl0  : Nat
  ccnt0 : Nat
  cvl1  : Nat
  ccnt1 : Nat
  fill  : Nat
  ctrl  : Nat
  deriving DecidableEq, Repr

def LinkField.word (l : LinkField) : Nat :=
  l.seq % 2 ^ 16 + (l.ack % 2 ^ 16) * 2 ^ 16 + (l.ftype % 4) * 2 ^ 32 + b2n l.nak * 2 ^ 34 + b2n l.nrdy * 2 ^ 35 +
  (l.cvl0 % 16) * 2 ^ 36 + (l.ccnt0 % 4096) * 2 ^ 40 + (l.cvl1 % 16) * 2 ^ 52 + (l.ccnt1 % 4096) * 2 ^ 56 +
  (l.fill % 256) * 2 ^ 72 + (l.ctrl % 2 ^ 48) * 2 ^ 80

def linkField (w : Nat) : LinkField :=
  { seq := bits w 0 16, ack := bits w 16 16, ftype := bits w 32 2, nak := bit w 34, nrdy := bit w 35,
    cvl0 := bits w 36 4, ccnt0 := bits w 40 12, cvl1 := bits w 52 4, ccnt1 := bits w 56 12, fill := bits w 72 8,
    ctrl := bits w 80 48 }

/-- A flit: link field, packet area padded with zeros, CRC-64/XZ over the 248 bytes before it. -/
def mkFlit (l : LinkField) (area : List Byte) : BitVec 2048 :=
  let b := toBytes 16 l.word ++ slice area 0 232
  BitVec.ofNat 2048 (ofBytes (b ++ toBytes 8 (crc64 b)))

/-- Take up to 4,095 credits of the first buffer that owes some. -/
def Port.takeReturn (x : Port) : Port × Nat × Nat :=
  match (List.range 17).find? (fun l => decide (0 < x.owed l)) with
  | none => (x, 0, 0)
  | some l =>
    let n := min 4095 (x.owed l)
    (x.setOwed l (x.owed l - n), (if l = 16 then 0 else l), n)

/-- ACK of the next flit: the last data flit received in order, 0 before the first (R256); with a NAK, the flit before the
one expected, so that the replay begins there (R258, R261; log 47). -/
def Port.ackNow (x : Port) : Nat := if x.nak then x.rxSeq.toNat + 65535 else x.lastAck.toNat

/-- Put a flit on the wire, with the current ACK, up to two credit returns, and a NAK that is due (R256). -/
def Port.put (x : Port) (ftype seq ctrl : Nat) (area : List Byte) : Port :=
  let (x, v0, c0) := x.takeReturn
  let (x, v1, c1) := x.takeReturn
  let l : LinkField :=
    { seq := seq, ack := x.ackNow, ftype := ftype, nak := x.nak, nrdy := x.nrdy, cvl0 := v0, ccnt0 := c0,
      cvl1 := v1, ccnt1 := c1, fill := if ftype = 0 then area.length else 0, ctrl := ctrl }
  { x with out := x.out ++ [mkFlit l area], nak := false, nrdy := false }

/-- A 48-bit byte count that wraps with a sticky bit (R292). -/
def add48 (c n : Nat) (w : Bool) : Nat × Bool := ((c + n) % 2 ^ 48, w || decide (2 ^ 48 ≤ c + n))

/-- The bytes of a packet on the stream (R255, R260). -/
def Packet.stream (k : Packet) : List Byte :=
  toBytes 32 k.h ++ k.pay ++ zeros (roundUp k.pay.length 8 - k.pay.length) ++
  (match k.trailer with | some t => toBytes 32 t.toNat | none => [])

/-- The first queued packet of its buffer whose credits are held (R260); VL0 responses have a buffer of their own, so they
do not wait for requests (R264). -/
def Port.ready? (x : Port) : Option Nat :=
  (List.range x.txq.length).find? (fun i =>
    match x.txq[i]? with
    | some q => decide (q.pkt.cost ≤ x.credit (laneOf q.pkt.h)) &&
        (x.txq.take i).all (fun j => decide (laneOf j.pkt.h ≠ laneOf q.pkt.h))
    | none => false)

/-- Start packets until a flit is full; their credits are debited once (R260).  The packets started are answered too. -/
def Port.fillTx : Nat → Port → Port × List Queued
  | 0, x => (x, [])
  | n + 1, x =>
    if 232 ≤ (x.tx.flatMap Prod.snd).length then (x, [])
    else match x.ready? with
      | none => (x, [])
      | some i => match x.txq[i]? with
        | none => (x, [])
        | some q =>
          let k := q.pkt
          let c := add48 x.txBytes k.pay.length x.txWrap
          let y := x.setCredit (laneOf k.h) (x.credit (laneOf k.h) - k.cost)
          let r := Port.fillTx n { y with txq := removeAt x.txq i, tx := x.tx ++ [(hFlow k.h, k.stream)], txBytes := c.1,
                                          txWrap := c.2 }
          (r.1, q :: r.2)

/-- Drop `n` bytes from the front of the packet stream. -/
def dropStream : Nat → List (Flow × List Byte) → List (Flow × List Byte)
  | _, [] => []
  | n, (f, bs) :: r => if bs.length ≤ n then dropStream (n - bs.length) r else (f, bs.drop n) :: r

/-- Flows whose bytes are among the first `n` of the packet stream. -/
def streamFlows : Nat → List (Flow × List Byte) → List Flow
  | _, [] => []
  | n, (f, bs) :: r => if n = 0 then [] else f :: streamFlows (n - bs.length) r

/-- Whether a flit slot of the port may start packets: all but `mt` of every 16 under the memory throttle (R366). -/
def Port.mayStart (x : Port) (mt : Nat) : Bool := decide (x.slot + mt < 16)

/-- The next flit of a port: control after training, a replay, new data while fewer than 4,096 flits are unacknowledged,
or idle (R255-R259); with the packets it starts, none in a slot that the throttle takes. -/
def Port.nextFlit (x : Port) (time ctrl mt : Nat) : Port × List Queued :=
  let idle : Port → Port := fun x => x.put 1 x.txSeq.toNat 0 []
  if x.resume then ({ x.put 2 x.txSeq.toNat ctrl [] with resume := false }, [])
  else if 0 < x.resend ∧ x.await = false then
    let i := x.replay.length - x.resend
    match x.replay[i]? with
    | none => ({ idle x with resend := 0 }, [])
    | some r =>
      let y := x.put 0 r.seq.toNat 0 r.area
      ({ y with resend := x.resend - 1, replay := modifyAt x.replay i (fun r => { r with time := time }) }, [])
  else if x.phase = .up ∧ x.await = false ∧ x.replay.length < 4096 then
    let r := if x.mayStart mt then x.fillTx 8 else (x, [])
    let x := r.1
    let area := (x.tx.flatMap Prod.snd).take 232
    if area = [] then (idle x, r.2)
    else
      let y := x.put 0 x.txSeq.toNat 0 area
      ({ y with txSeq := x.txSeq + 1, tx := dropStream area.length x.tx,
                replay := x.replay ++ [{ seq := x.txSeq, area := area, time := time, flows := streamFlows area.length x.tx }] },
       r.2)
  else (idle x, [])

/-- Packets that only pass through have been started: their space at the ports they came in by is freed (R260, R275). -/
def State.freeCame (s : State) (l : List Queued) : State :=
  l.foldl (fun s q => match q.came with | some c => s.modPort c (fun x => x.free q.pkt) | none => s) s

/-- FLIT_SEND (R255): the port sends its next flit, in its next flit slot. -/
def execFlitSend (k : Nat) (s : State) : Out1 :=
  if 12 ≤ k then .fault .noSuchUnit
  else if (s.port k).linked = false then .next s
  else
    let r := (s.port k).nextFlit s.clock (Config.freeNat s.free) s.power.mt
    .next ((s.draw.setPort k { r.1 with slot := ((s.port k).slot + 1) % 16 }).freeCame r.2)

/-! ### Links that go down and come up (R258, R259, R262, R293) -/

/-- Whether fabric time has a route to its root (R279, R280). -/
def State.timeRoute (s : State) : Bool :=
  (s.twins (bits (s.obj kTimeCtrl) 1 17)).any (fun k => (s.port k).linked)

/-- A module that has lost its route to the root clears SYNCED (R280). -/
def State.resync (s : State) : State :=
  { s with fabric := { s.fabric with synced := s.fabric.synced && (bit (s.obj kTimeCtrl) 0 || s.timeRoute) } }

/-- A port takes its link down and retrains: the first attempt may start at once (R259, R293). -/
def State.linkFails (s : State) (k : Nat) : State :=
  ((s.bumpObj (kPort k 5) 1).modPort k (fun x =>
    { x with phase := .training, downSeen := true, downAt := s.clock, nextTry := s.clock, backoff := 1000000, count := 0,
             nak := false, nrdy := false, skipping := false, resend := 0, resume := false, await := false })).resync

/-- A replay from the oldest unacknowledged flit; after 16 consecutive ones the port retrains (R258). -/
def State.startReplay (s : State) (k : Nat) : State :=
  let x := s.port k
  match x.replay with
  | [] => s
  | r :: _ =>
    let n := if 0 < x.count ∧ x.start = r.seq then x.count + 1 else 1
    if 16 < n then s.linkFails k
    else (s.bumpObj (kPort k 4) 1).setPort k { x with resend := x.replay.length, count := n, start := r.seq }

/-- LINK_DOWN (R262): the link goes down; packets stay in place. -/
def execLinkDown (k : Nat) (s : State) : Out1 :=
  if 12 ≤ k then .fault .noSuchUnit
  else if (s.port k).linked then .next (s.linkFails k) else .next s

/-- REPLAY_TIMEOUT (R258): the oldest unacknowledged flit has gone 2 µs without acknowledgement. -/
def execReplayTimeout (k : Nat) (s : State) : Out1 :=
  if 12 ≤ k then .fault .noSuchUnit
  else
    let x := s.port k
    match x.replay with
    | [] => .next s
    | r :: _ => if x.phase = .up ∧ x.resend = 0 ∧ r.time + 2000 ≤ s.clock then .next (s.startReplay k) else .next s

/-- NRDY_RETRY (R261): 100 µs after an NRDY answer the sender replays; such replays do not count. -/
def execNrdyRetry (k : Nat) (s : State) : Out1 :=
  if 12 ≤ k then .fault .noSuchUnit
  else
    let x := s.port k
    if x.phase ≠ .notReady ∨ s.clock < x.nrdyAt + 100000 then .next s
    else .next (s.setPort k { x with resend := x.replay.length, nrdyAt := s.clock,
                                     phase := if x.replay = [] then .up else .notReady })

/-- TRAINING_ATTEMPT (R259, R292): an attempt runs after its wait; `ok` brings the link up to port `pport` of device
`partner`, otherwise the wait doubles up to 1 s.  A port that trains for the first time since Spring returns its whole
buffer (R260). -/
def execTrainingAttempt (k : Nat) (ok : Bool) (partner pport : Nat) (s : State) : Out1 :=
  if 12 ≤ k then .fault .noSuchUnit
  else
    let x := s.port k
    if (x.phase ≠ .training ∧ x.phase ≠ .waiting) ∨ s.clock < x.nextTry ∨ bit (s.obj (kPort k 2)) 0 = false then .next s
    else
      let s := s.bumpObj (kPort k 3) 1
      if ok = false then
        .next (s.setPort k { x with phase := .waiting, nextTry := s.clock + x.backoff,
                                    backoff := min (2 * x.backoff) 1000000000 })
      else
        let y := if x.trained then x
          else (List.range 17).foldl (fun (x : Port) l => x.setOwed l (laneSize l)) x
        .next (s.setPort k { y with
          phase := .up, trained := true, resume := true, await := true, backoff := 1000000, count := 0,
          partner := partner % 2 ^ 17 + (pport % 16) * 2 ^ 17 + 2 ^ 31 })

/-! ### Receiving (R257, R258, R261, R262) -/

/-- A module that is not ready discards data flits: in Spring, and in Autumn once intake has stopped (R261). -/
def State.intakeClosed (s : State) : Bool :=
  decide (s.season.phase = .spring) || (decide (s.season.phase = .autumn) && s.season.started)

/-- One more flit with a bad CRC; multiples of ERR_THRESH are logged (R292, R390). -/
def State.countCrc (s : State) (k : Nat) : State :=
  let old := s.obj (kPort k 6)
  let s := s.bumpObj (kPort k 6) 1
  let n := s.obj (kPort k 6)
  let th := s.obj (kPort k 0xA)
  if th ≠ 0 ∧ n ≠ old ∧ n % th = 0 then s.logModule 0x0D03 1 none 0x11 k n else s

/-- Ask for a replay unless one is already asked for (R258). -/
def Port.askReplay (x : Port) : Port := if x.skipping then x else { x with nak := true, skipping := true }

/-- Acknowledged flits leave the replay buffer (R256, R257). -/
def Port.acked (x : Port) (ack : Nat) : Port :=
  match x.replay with
  | [] => x
  | r :: _ =>
    let n := (ack + 1 + 65536 - r.seq.toNat) % 65536
    if x.replay.length < n ∨ n = 0 then x
    else
      let y := { x with replay := x.replay.drop n, resend := min x.resend (x.replay.length - n) }
      if y.phase = .notReady then { y with phase := .up } else y

/-- Whole packets at the front of a packet stream, and the rest of it (R260, R262). -/
def cutPackets : Nat → List Byte → List Packet × List Byte
  | 0, bs => ([], bs)
  | n + 1, bs =>
    if bs.length < 32 then ([], bs)
    else
      let h := ofBytes (bs.take 32)
      let body := roundUp (hLen h) 8
      let size := 32 + body + (if hFol h then 32 else 0)
      if bs.length < size then ([], bs)
      else
        let k : Packet :=
          { hdr := BitVec.ofNat 256 h, pay := slice bs 32 (hLen h),
            trailer := if hFol h then some (BitVec.ofNat 256 (field bs (32 + body) 32)) else none }
        let r := cutPackets n (bs.drop size)
        (k :: r.1, r.2)

/-- A packet has come in whole at port `k`: it waits to be applied here, or goes on towards its destination (R262); until
it is sent on it keeps its space (R275). -/
def State.landPacket (s : State) (k : Nat) (p : Packet) : State :=
  let s := s.modPort k (fun x =>
    let c := add48 x.rxBytes p.pay.length x.rxWrap
    { x with rxBytes := c.1, rxWrap := c.2 })
  if hDstDev p.h = s.device then s.land k p else s.emitFrom p (some k)

/-- A data flit that was accepted: its packets land. -/
def State.acceptData (s : State) (k : Nat) (area : List Byte) : State :=
  let x := s.port k
  let r := cutPackets 40 (x.rx ++ area)
  let s := s.setPort k { x with rx := r.2, rxSeq := x.rxSeq + 1, lastAck := x.rxSeq, skipping := false }
  r.1.foldl (fun s p => s.landPacket k p) s

/-- A data flit with a good CRC (R257, R258, R261). -/
def State.dataFlit (s : State) (k : Nat) (l : LinkField) (area : List Byte) : State :=
  let x := s.port k
  if s.intakeClosed then s.setPort k { x with nak := true, nrdy := true, skipping := true }
  else
    let back := (x.rxSeq.toNat + 65536 - l.seq) % 65536
    if back = 0 then s.acceptData k (area.take (min 232 l.fill))
    else if back ≤ 32768 then s
    else s.setPort k x.askReplay

/-- FLIT_RECEIVE (R257): CRC and SEQ are checked; the flit is accepted, discarded, or answered with NAK or NRDY.  Every
flit's ACK, NAK and credit returns are taken.  With the flit come the codewords that the FEC corrected, and those it failed
on (R292). -/
def execFlitReceive (k : Nat) (flit : BitVec 2048 × Nat × Nat) (s : State) : Out1 :=
  if 12 ≤ k then .fault .noSuchUnit
  else if (s.port k).linked = false then .next s
  else
    let s := (s.bumpObj (kPort k 7) flit.2.1).bumpObj (kPort k 8) flit.2.2
    let b := toBytes 256 flit.1.toNat
    if crc64 (b.take 248) ≠ ofBytes (b.drop 248) then .next ((s.countCrc k).modPort k Port.askReplay)
    else
      let l := linkField (ofBytes (b.take 16))
      if l.ftype = 3 then .next s
      else
        let s := s.modPort k (fun x => ((x.acked l.ack).regain l.cvl0 l.ccnt0).regain l.cvl1 l.ccnt1)
        let s :=
          if l.nak = false then s
          else if l.nrdy then
            (s.bumpObj (kPort k 9) 1).modPort k (fun x =>
              { x with phase := .notReady, nrdyAt := s.clock, resend := 0 })
          else s.startReplay k
        let s :=
          if l.ftype = 2 ∧ (s.port k).await then
            s.modPort k (fun x => { x with await := false, resend := x.replay.length })
          else s
        .next (if l.ftype = 0 ∧ (s.port k).linked then s.dataFlit k l ((b.drop 16).take 232) else s)

/-! ### Moves between twins (R275) -/

/-- The queued packets of port `k` whose flow has nothing unacknowledged there go where the flow goes now. -/
def State.reroute (s : State) (k : Nat) : State :=
  let x := s.port k
  let stay := x.txq.filter (fun q => x.holds (hFlow q.pkt.h))
  let go := x.txq.filter (fun q => !(x.holds (hFlow q.pkt.h)))
  go.foldl (fun s q => s.emitFrom q.pkt q.came) (s.setPort k { x with txq := stay })

/-- FAILOVER (R275): a port has been down for FAILOVER_MS; its flows move to the twin as their flits are acknowledged. -/
def execFailover (k : Nat) (s : State) : Out1 :=
  if 12 ≤ k then .fault .noSuchUnit
  else if (s.port k).linked ∨ s.clock < (s.port k).downAt + s.obj kFailoverMs * 1000000 then .next s
  else .next ((s.modPort k (fun x => { x with moved := true })).reroute k)

/-- FLOW_MOVE_BACK (R275): a port that is up takes its flows back, each once it has nothing unacknowledged elsewhere. -/
def execFlowMoveBack (k : Nat) (s : State) : Out1 :=
  if 12 ≤ k then .fault .noSuchUnit
  else if (s.port k).linked = false then .next s
  else
    let s := s.modPort k (fun x => { x with moved := false })
    .next (((List.range 12).filter (fun j => decide (j ≠ k))).foldl (fun s j => s.reroute j) s)

/-! ### Fabric time (R279-R281) -/

/-- Hops along a ring. -/
def ringHops (size a b : Nat) : Nat := min ((b + size - a) % size) ((a + size - b) % size)

/-- Hops from the root: along the torus, or free in table mode, where the route beyond the first hop is not this
module's (assumption log 3). -/
def State.rootHops (s : State) : Nat :=
  let root := bits (s.obj kTimeCtrl) 1 17
  let me := s.device
  let (dx, dy, dz) := s.dims
  if bit (s.obj kTopology) 0 then Config.freeNat s.free % 128
  else ringHops dx (bits me 0 6) (bits root 0 6) + ringHops dy (bits me 6 6) (bits root 6 6) +
    ringHops dz (bits me 12 5) (bits root 12 5)

/-- The one-way delay of a link (R279): half the round trip, which is what passed here between the sending of a control
flit at `sent` and the coming of its answer `now`, less what passed there between its coming at `rcvd` and the answer's
sending at `back`.  How an odd round trip is halved is free (log 3). -/
def oneWay (now sent rcvd back free : Nat) : Nat :=
  let trip := now - sent - (back - rcvd)
  trip / 2 + (if trip % 2 = 1 then free % 2 else 0)

/-- A new time from the parent (R280): fabric time steps to it until the first Summer, and forward by more than 1 ms;
otherwise it is slewed. -/
def State.correctTime (s : State) (t : Nat) : State :=
  let off : Int := (t : Int) - (s.time : Int)
  let f := { s.fabric with synced := true, hops := s.rootHops, offset := BitVec.ofInt 32 off, slew := 0, slewed := 0 }
  let s := s.draw
  if s.season.everSummer = false ∨ 1000000 < off then { s with fabric := f, time := t }
  else { s with fabric := { f with slew := off } }

/-- TIME_EXCHANGE (R279): link `k` measures its delay, every 1 ms, by the timestamps of two control flits (`far`: when the
first came there, and when its answer left); on the route towards the root the parent's time plus that
delay corrects fabric time. -/
def execTimeExchange (k sent : Nat) (far : Nat × Nat) (s : State) : Out1 :=
  if 12 ≤ k then .fault .noSuchUnit
  else
    let x := s.port k
    let due := match x.timedAt with | some t => decide (t + 1000000 ≤ s.clock) | none => true
    if x.linked = false ∨ due = false ∨ s.season.phase = .noPower then .next s
    else
      let d := oneWay s.time sent far.1 far.2 (Config.freeNat s.free)
      let t := s.draw.setPort k { x with delay := d, timedAt := some s.clock }
      let c := s.obj kTimeCtrl
      if bit c 0 ∨ !((s.twins (bits c 1 17)).contains k) then .next t else .next (t.correctTime (far.2 + d))

end Sys2Proof.Machine
end

