-- ==== Sys2Proof/Machine/PacketOps.lean ====
section
/-!
DEFINITION. Packets applied at their destination: writes, reads, row adds, messages, flag operations, trailers, and the
responses that end transactions (R137, R144, R149, R219, R264-R272, R277, R282).
-/

namespace Sys2Proof.Machine

/-! ### Refusals (R270) -/

/-- Refuse a READ (R270). -/
def State.readErr (s : State) (h code : Nat) : State :=
  s.send { kind := pkReadResp, sub := hSub h, vl := respVl h, err := true, dev := hSrcDev h, part := hSrcPart h,
           src := hDstPart h, tag := hTag h, code := code, addr := hAddr h } []

/-- Refuse a COLLECTIVE packet that came in at port `k`: logged and counted, not answered (R270, R401). -/
def State.strayColl (s : State) (k h code : Nat) : State :=
  (s.logPart (hDstPart h) code 1 0x11 k (h % 2 ^ 64)).bumpObj kStray 1

/-- A discarded response (R271). -/
def State.stray (s : State) : State := s.bumpObj kStray 1

/-! ### Taking a packet -/

/-- A unit address of this module in its local form. -/
def State.localForm (s : State) (a : Nat) : Nat := if uaDevice a = s.device ∧ uaLocal a = false then 2 ^ 46 + a % 2 ^ 46 else a

/-- The yard of the unit a VL0 request names (R149). -/
def reqYard (h : Nat) : Nat :=
  let k := uaKind (hAddr h)
  let i := uaIndex (hAddr h)
  if k = 6 then i / 96 else kindShed k i / 8

/-- Whether a packet is a VL0 request. -/
def isVl0Req (h : Nat) : Bool := decide (hKind h = pkFlagSet ∨ (hKind h = pkMessage ∧ hSub h ≤ 2))

/-- Whether two packets are applied in the order they came: those of one flow, of which VL0 responses do not wait for
requests (R264, R265). -/
def sameOrder (h g : Nat) : Bool := decide ((hSrcDev h, hDstDev h, laneOf h) = (hSrcDev g, hDstDev g, laneOf g))

/-- Whether packet `e` at port `k` waits for an earlier one: of its flow, at any port, as a flow may have moved (R265,
R275), or for a VL0 request one to the same yard at its port (R149). -/
def State.waitsFor (s : State) (k : Nat) (e : Arrived) : Bool :=
  (List.range 13).any (fun i => (s.port i).ing.any (fun q => decide (q.stamp < e.stamp) &&
    (sameOrder e.pkt.h q.pkt.h ||
     (decide (i = k) && isVl0Req e.pkt.h && isVl0Req q.pkt.h && decide (reqYard q.pkt.h = reqYard e.pkt.h)))))

/-- The packet at place `j` of port `k`, or of this module's own traffic when `k` is 12, if it can be applied now and `ok`
takes its header. -/
def State.nextPacket (s : State) (k j : Nat) (ok : Nat → Bool) : Option Arrived :=
  match (s.port k).ing[j]? with
  | some e => if ok e.pkt.h ∧ e.busy = false ∧ s.waitsFor k e = false then some e else none
  | none => none

/-- Apply a packet: its buffer space is freed (R260).  `f` answers none while the packet has to wait. -/
def onPacket (k j : Nat) (ok : Nat → Bool) (s : State) (f : State → Arrived → Option State) : Out1 :=
  if loopPort < k then .fault .noSuchUnit
  else match s.nextPacket k j ok with
    | none => .next s
    | some e => .next ((f (s.unload k e.stamp e.pkt) e).getD s)

/-- Packet with stamp `st` has been performed, and keeps its place until its pushes are accepted (R149). -/
def State.keepPlace (s : State) (k st : Nat) : State :=
  s.modPort k (fun x => { x with ing := x.ing.map (fun e => if e.stamp = st then { e with busy := true } else e) })

/-- The same for a push, which waits in its buffer while its target is full; QFULL or DLFULL notes the wait (R149,
R161). -/
def onPush (k j : Nat) (ok : Nat → Bool) (s : State) (f : State → Arrived → Accept) : Out1 :=
  if loopPort < k then .fault .noSuchUnit
  else match s.nextPacket k j ok with
    | none => .next s
    | some e =>
      match f s e with
      | .ok t => .next (if (t.port k).ing.any (fun q => decide (q.stamp = e.stamp) && q.busy) then t
                        else t.unload k e.stamp e.pkt)
      | .wait t => .next { s with sheds := t.sheds }
      | .refuse _ => .next s

/-! ### WRITE and its trailer (R267-R269) -/

/-- Keys of `n` bytes at HBM offset `o` of partition `p`. -/
def State.hbmRange (s : State) (p o n : Nat) : Option (List Nat) := (List.range n).mapM (fun i => s.hbmOff p (o + i))

/-- Fields of a trailer (R268). -/
def trTarget (t : BitVec 256) : Nat := bits t.toNat 0 64
def trOp (t : BitVec 256) : Nat := bits t.toNat 64 8
def trHandle (t : BitVec 256) : Nat := bits t.toNat 128 64

/-- The code a trailer is refused with; 0 for none (R26, R268). -/
def State.trailerCode (s : State) (p : Nat) (t : BitVec 256) : Nat :=
  let a := s.localForm (trTarget t)
  if 3 ≤ trOp t ∨ bits t.toNat 72 56 ≠ 0 ∨ bits t.toNat 192 64 ≠ 0 ∨ (trOp t ≠ 2 ∧ trHandle t ≠ 0) then 0x0901
  else if uaLocal a = false then 0x0905
  else match s.resolveHere p a (if trOp t = 2 then [3] else [2]) with
    | .plain _ _ => 0
    | .pen _ => 0
    | _ => 0x0905

/-- The code a WRITE is refused with before memory is looked at; 0 for none (R270). -/
def State.writeCode (s : State) (e : Arrived) : Nat :=
  let h := e.pkt.h
  let t := match e.pkt.trailer with | some t => s.trailerCode (hDstPart h) t | none => 0
  if e.code ≠ 0 then e.code
  else if t ≠ 0 then t
  else if (s.hbmRange (hDstPart h) (hAddr h) e.pkt.pay.length).isNone then 0x0903
  else 0

/-- Write the payload of a packet for partition `q` at `ks`: whole, or not at all when a sector that is covered in part is
poisoned, with the code of the refusal (R246, R270). -/
def State.landData (s : State) (q : Nat) (ks : List Nat) (bs : List Byte) : State × Nat :=
  let c := partSectors ks
  let d := s.sense c
  if d.2 then (d.1.passAll false (touches q false false (c.map (32 * ·))), 0x0904)
  else (((d.1.countLoad q ks).writeThrough q (ks.zip bs)).1, 0)

/-- Whether a transfer record is the one of a header. -/
def Trailer.isOf (t : Trailer) (h : Nat) : Bool := decide (t.dev = hSrcDev h ∧ t.part = hSrcPart h ∧ t.tag = hTag h)

/-- The ACK of a WRITE transfer (R269). -/
def State.ackWrite (s : State) (t : Trailer) (deferred : Bool) : State :=
  s.send { kind := pkMessage, sub := 4, vl := t.vl + 1, dev := t.dev, part := t.part, src := t.dpart, tag := t.tag,
           addr := t.addr.toNat, aux := b2n deferred } []

/-- Count a packet of a transfer; the transfer is acknowledged when all its bytes are written, unless a trailer has yet to
be applied (R268, R269). -/
def State.noteTransfer (s : State) (p : Packet) (bad : Bool) : State :=
  let h := p.h
  let old : Trailer := (s.fabric.trailers.find? (fun t => t.isOf h)).getD
    { dev := hSrcDev h, part := hSrcPart h, tag := hTag h, bytes := 0, total := none, trailer := none,
      addr := 0, dpart := hDstPart h, vl := hVl h, bad := false }
  let t : Trailer :=
    { old with bytes := old.bytes + (if bad then 0 else p.pay.length), bad := old.bad || bad,
               total := if hLast h then some (bits (hAux h) 32 32) else old.total,
               trailer := if hLast h then p.trailer else old.trailer, addr := BitVec.ofNat 64 (hAddr h) }
  let rest := s.fabric.trailers.filter (fun u => !(u.isOf h))
  let gone := { s with fabric := { s.fabric with trailers := rest } }
  if t.bad ∧ hLast h then gone
  else if t.bad = false ∧ t.total = some t.bytes ∧ t.trailer = none then gone.ackWrite t false
  else { s with fabric := { s.fabric with trailers := rest ++ [t] } }

/-! ### Rows that have moved (R219) -/

/-- A packet goes on to the destination of a forwarding entry, with a new ADDR (R219). -/
def State.passOn (s : State) (p : Packet) (f : Fwd) (addr : Nat) : State :=
  s.emit { p with hdr := BitVec.ofNat 256 (setBits (setBits (setBits p.h 32 17 f.dev) 49 5 f.dpart) 128 64 addr) }

/-- The moved or moving row in whose old place `n` bytes at HBM offset `o` of partition `p` lie (R219; log 17). -/
def State.oldRow (s : State) (p o n : Nat) : Option Fwd :=
  s.fwd.find? (fun f => decide (f.part = p ∧ f.old ≤ 2 ^ 48 + o ∧ 2 ^ 48 + o + n ≤ f.old + f.len ∧ 0 < n))

/-- Where those bytes lie at the destination. -/
def Fwd.shift (f : Fwd) (o : Nat) : Nat := f.dst + (2 ^ 48 + o - f.old)

/-- WRITE (R267): the payload is written at the partition's HBM offset, goes on to where its row has moved (R219), or the
packet is refused.  A reserved KIND is refused here too. -/
def execPktWrite (k j : Nat) (s : State) : Out1 :=
  onPacket k j (fun h => decide (hKind h = pkWrite ∨ 8 ≤ hKind h)) s fun s e =>
    let h := e.pkt.h
    let q := hDstPart h
    let c := s.writeCode e
    if 8 ≤ hKind h then some (s.nack h 0x0901)
    else if c ≠ 0 then some ((s.nack h c).noteTransfer e.pkt true)
    else match s.oldRow q (hAddr h) e.pkt.pay.length with
      | some f => if f.copier = none then some (s.passOn e.pkt f (f.shift (hAddr h))) else none
      | none =>
        let r := s.landData q ((s.hbmRange q (hAddr h) e.pkt.pay.length).getD []) e.pkt.pay
        s.ifOpen (if r.2 = 0 then r.1.noteTransfer e.pkt false else (r.1.nack h r.2).noteTransfer e.pkt true)

/-- FLAG_ON_LAST_TRAILER (R268): the trailer at place `k` is applied once its transfer is whole, and the transfer is
acknowledged; a push to a full queue is deferred to the source. -/
def execFlagOnLastTrailer (k : Nat) (s : State) : Out1 :=
  match s.fabric.trailers[k]? with
  | none => .next s
  | some t =>
    match t.trailer with
    | none => .next s
    | some tr =>
      if t.total ≠ some t.bytes then .next s
      else
        let s := { s with fabric := { s.fabric with trailers := removeAt s.fabric.trailers k } }
        let a := s.localForm (trTarget tr)
        let op : MOp := if trOp tr = 0 then .set else if trOp tr = 1 then .clear else .hpush
        let m : Mesh := { op := op, target := BitVec.ofNat 64 a, a2 := BitVec.ofNat 64 (trHandle tr), data := 0, n := 0,
                          stall := noStall, pc := 0, part := t.part, dev := some t.dev, depth := 0, reply := .none }
        match s.resolveHere t.dpart a (if trOp tr = 2 then [3] else [2]) with
        | .pen _ => .next ({ s with mesh := s.mesh ++ [m] }.ackWrite t false)
        | .plain 2 i => .next ((s.writeFlag i (decide (trOp tr = 0))).ackWrite t false)
        | .plain _ i =>
          (match s.pushQueue i kindHandle noStall t.dpart (BitVec.ofNat 256 (trHandle tr)) with
           | .ok u => .next (u.ackWrite t false)
           | .wait u => .next (u.ackWrite t true)
           | .refuse code => .next ((s.reportError t.dpart code noStall 3 i a 0 0).ackWrite t false))
        | _ => .next (s.ackWrite t false)

/-! ### READ and ROW_ATOMIC (R202, R219, R267) -/

/-- READ_RESP packets of up to 4,096 bytes (R267). -/
def State.respond (s : State) (h : Nat) (bs : List Byte) : State :=
  (List.range (ceilDiv bs.length 4096)).foldl (fun s i =>
    s.send { kind := pkReadResp, sub := hSub h, vl := respVl h, dev := hSrcDev h, part := hSrcPart h, src := hDstPart h,
             tag := hTag h, addr := hAddr h, aux := 4096 * i } ((bs.drop (4096 * i)).take 4096)) s

/-- The row of a request by row, and the slot that a forwarded one names (log 17). -/
def hRow (h : Nat) : Nat := bits (hAddr h) 0 40
def hSlot (h : Nat) : Option Nat := if bits (hAddr h) 40 24 = 0 then none else some (bits (hAddr h) 40 24 - 1)

/-- Where a row that another module asks for lies here: its stall address, or a code (R202, R219, R270). -/
def State.servedAt (s : State) (x : Rows) (p t h : Nat) : Except Nat Nat :=
  match hSlot h with
  | some k => .ok (x.tab.pool + k * x.tab.pitch)
  | none =>
    match x.home s.device p (hRow h) with
    | .here a => .ok a
    | _ => match s.slotHere p t (hRow h) with
      | some f => .ok (x.tab.pool + f.slot * x.tab.pitch)
      | none => .error 0x0903

/-- The work of a served request: its failures are told by the codes of R270. -/
def served {α : Type} (m : UM α) : UM α :=
  tryCatch m (fun e => throw (if e = ePoison then 0x0904 else if e = ePause ∨ e / 256 = 9 then e else 0x0903))

/-- The row table of a served request. -/
def servedRows (p t : Nat) : UM Rows := do
  let d := (← now).obj (kTable p t)
  if tdKind d ≠ 4 then throw 0x0903
  rdRows p .fore 0x0903 (tdBase d)

/-- The bytes of a READ: one row, as its home sends it, or raw bytes (R202, R267). -/
def servedRead (h : Nat) : UM (List Byte) := served (do
  let p := hDstPart h
  if hSub h = 1 then
    let t := bits (hAux h) 32 8
    let x ← servedRows p t
    match (← now).servedAt x p t h with
    | .error e => throw e
    | .ok a => do
      let bs ← rd p .fore 0x0903 a x.tab.rowSpan
      act (fun s => s.countRow p t)
      pure bs
  else
    let n := bits (hAux h) 0 32
    if n < 32 ∨ 262144 < n ∨ n % 32 ≠ 0 then throw 0x0901
    rd p .fore 0x0903 (2 ^ 48 + hAddr h) n)

/-- The state after a refused request: nothing of it is performed, but what its reads met is known (R246, R270). -/
def State.afterRefusal (s t : State) : State := { s with objs := t.objs, hbms := t.hbms, ecc := t.ecc, mem := t.mem, logs := t.logs }

/-- The moved or moving row that a READ asks for. -/
def State.readMoved (s : State) (h : Nat) : Option Fwd :=
  if hSub h = 1 then s.fwd.find? (fun f => decide (f.part = hDstPart h ∧ f.table = bits (hAux h) 32 8 ∧ f.row = hRow h))
  else s.oldRow (hDstPart h) (hAddr h) (bits (hAux h) 0 32)

/-- READ (R267): raw bytes or one table row are sent back, the request goes on to where a row has moved, or it is
refused. -/
def execPktRead (k j : Nat) (s : State) : Out1 :=
  onPacket k j (fun h => decide (hKind h = pkRead)) s fun s e =>
    let h := e.pkt.h
    if e.code ≠ 0 then some (s.readErr h e.code)
    else match s.readMoved h with
      | some f =>
        if f.copier = none then some (s.passOn e.pkt f (if hSub h = 1 then f.name else f.shift (hAddr h))) else none
      | none =>
        match (servedRead h).run plainly s with
        | none => none
        | some (.ok bs, s) => some (s.respond h bs)
        | some (.error c, s) => some (s.readErr h c)

/-- A row add at the home (R208-R210, R267); the answer tells whether the row is complete. -/
def servedAdd (p : Packet) : UM Bool := served (do
  let h := p.h
  let t := bits (hAux h) 0 8
  let first := bits (hAux h) 8 16
  let seq := bits (hAux h) 24 40
  let q := hDstPart h
  let x ← servedRows q t
  let n := p.pay.length / 4
  if 2 < x.tab.fmt ∨ x.tab.len < first + n then throw 0x0903
  match (← now).servedAt x q t h with
  | .error e => throw e
  | .ok a =>
    let vals := (List.range n).map (fun i => field p.pay (4 * i) 4)
    contribute q t x.tab a (hRow h) first vals ⟨hSrcDev h, hSrcPart h, seq⟩
      ⟨3, 7, noStall, hSrcDev h + hSrcPart h * 2 ^ 17⟩ first 0
    pure (decide (x.tab.len ≤ first + n)))

/-- ROW_ATOMIC (R267, R269): a row add is performed at its home; the row is acknowledged with its last element. -/
def execPktRowAtomic (k j : Nat) (s : State) : Out1 :=
  onPacket k j (fun h => decide (hKind h = pkRowAtomic)) s fun s e =>
    let h := e.pkt.h
    if e.code ≠ 0 then some (s.nack h e.code)
    else match s.fwd.find? (fun f => decide (f.part = hDstPart h ∧ f.table = bits (hAux h) 0 8 ∧ f.row = hRow h)) with
      | some f => if f.copier = none then some (s.passOn e.pkt f f.name) else none
      | none =>
        match (servedAdd e.pkt).run plainly s with
        | none => none
        | some (.error c, t) => some ((s.afterRefusal t).nack h c)
        | some (.ok false, s) => some s
        | some (.ok true, s) =>
          some (s.send { kind := pkMessage, sub := 4, vl := respVl h, dev := hSrcDev h, part := hSrcPart h,
                         src := hDstPart h, tag := hTag h, addr := hAddr h } [])

/-! ### Messages and flag operations (R137, R267, R282) -/

/-- An operation another module asks for. -/
def State.remoteOp (s : State) (h : Nat) (op : MOp) (a2 data n : Nat) (r : Reply) : Mesh :=
  { op := op, target := BitVec.ofNat 64 (s.localForm (hAddr h)), a2 := BitVec.ofNat 64 a2, data := BitVec.ofNat 1024 data,
    n := n, stall := noStall, pc := 0, part := hSrcPart h, dev := some (hSrcDev h), depth := hDepth h, reply := r }

/-- The code a request with target `a` is refused with; 0 for none (R26, R270).  A pen's leaf of a wrong kind is told as
such (R160; log 48). -/
def State.targetCode (s : State) (h a : Nat) (kinds : List Nat) : Nat :=
  if uaLocal a = false then 0x0905
  else match s.resolveHere (hDstPart h) a kinds with
    | .plain _ _ => 0
    | .pen _ => 0
    | _ => if 0 < hDepth h ∧ uaKind a ≠ 7 ∧ ¬(uaKind a ∈ kinds) then 0x0505 else 0x0905

/-- The push of a remote request at plain unit `i`: as its watch's event when it is one (R139, R147, R149). -/
def State.pushRemote (s : State) (h : Nat) (m : Mesh) (i : Nat) : Accept :=
  let q := hDstPart h
  if m.op = .evpush ∧ bit (hAux h) 0 then s.pushQueue i kindWatch noStall q (m.data.setWidth 256)
  else s.pushPlain { m with part := q } i

/-- Perform the remote push `e` at port `k` (R149, R267): at once, by way of a pen, in which case the packet keeps its place
until the leaves have accepted it, or refused; it waits while its target is full or earlier pushes wait for that. -/
def State.remotePush (s : State) (k : Nat) (e : Arrived) (m : Mesh) : Accept :=
  let h := e.pkt.h
  let a := m.target.toNat
  let c := s.targetCode h a m.op.fits
  if c ≠ 0 then .ok (s.nack h c)
  else match s.resolveHere (hDstPart h) a m.op.fits with
    | .plain _ i =>
      let mail := decide (m.op = .send)
      let late := decide (m.op ≠ .hpush ∧ evDelay (m.data.setWidth 256) ≠ 0)
      if s.pushes.any (fun q => decide (q.queue = i ∧ (decide (q.kind = 3)) = mail ∧ q.delayed = late)) then .wait s
      else match s.pushRemote h m i with
        | .refuse code => .ok (s.nack h (nackCode code))
        | .ok t => .ok (t.accepted h)
        | r => r
    | _ =>
      let n := if m.op = .evpush then (if bit (hAux h) 0 then kindWatch else kindEvpush) else m.n
      .ok { s.keepPlace k e.stamp with mesh := s.mesh ++ [{ m with n := n, reply := .ingress k e.stamp }] }

/-- Whether a pen of this module has the sub-watch that a report names (R143, R282). -/
def State.reportsTo (s : State) (i id : Nat) : Bool :=
  match s.watchById id with
  | some (_, w) => (match w.kind with | .pen j _ _ => decide (j = i) | .top j _ => decide (j = i) | _ => false)
  | none => false

/-- MESSAGE EVPUSH (R267): an event to a queue or pen, or a barrier's report to its pen (R282).  A reserved SUB is refused
here. -/
def execMessageEvpush (k j : Nat) (s : State) : Out1 :=
  onPush k j (fun h => decide (hKind h = pkMessage ∧ (hSub h = 0 ∨ 6 ≤ hSub h))) s fun s e =>
    let h := e.pkt.h
    if e.code ≠ 0 then .ok (s.nack h e.code)
    else
      let ev := ofBytes (slice e.pkt.pay 0 32)
      let a := s.localForm (hAddr h)
      if hAux h = auxReport ∧ uaLocal a ∧ uaKind a = 7 ∧ uaPart a = hDstPart h ∧ s.reportsTo (uaIndex a) (bits ev 64 64) then
        .ok { s with mesh := s.mesh ++ [ownOp .report a (bits ev 64 64) (hDstPart h)] }
      else s.remotePush k e (s.remoteOp h .evpush 0 ev 0 .none)

/-- MESSAGE HPUSH (R267): a handle to a queue or pen. -/
def execMessageHpush (k j : Nat) (s : State) : Out1 :=
  onPush k j (fun h => decide (hKind h = pkMessage ∧ hSub h = 1)) s fun s e =>
    let h := e.pkt.h
    if e.code ≠ 0 then .ok (s.nack h e.code) else s.remotePush k e (s.remoteOp h .hpush (hAux h) 0 0 .none)

/-- MESSAGE SEND (R267): an event to the mailbox of a stall or of each stall of a pen. -/
def execMessageSend (k j : Nat) (s : State) : Out1 :=
  onPush k j (fun h => decide (hKind h = pkMessage ∧ hSub h = 2)) s fun s e =>
    let h := e.pkt.h
    if e.code ≠ 0 then .ok (s.nack h e.code)
    else s.remotePush k e (s.remoteOp h .send 0 (ofBytes (slice e.pkt.pay 0 32)) 0 .none)

/-- FLAG_SET (R137, R267, R282): the operation enters this module's control mesh, in the order of its flow. -/
def execFlagSetPacket (k j : Nat) (s : State) : Out1 :=
  onPacket k j (fun h => decide (hKind h = pkFlagSet)) s fun s e =>
    let h := e.pkt.h
    let c := s.targetCode h (s.localForm (hAddr h)) [2]
    if e.code ≠ 0 then some (s.nack h e.code)
    else if c ≠ 0 then some (s.nack h c)
    else if s.mesh.any (fun m => decide (m.dev = some (hSrcDev h) ∧ m.part = hSrcPart h)) then none
    else
      let r : Reply := .remote (hSrcDev h) (hSrcPart h) (hTag h) (hDstPart h) (BitVec.ofNat 64 (hAddr h))
      let m : Mesh := match hSub h with
        | 0 => s.remoteOp h .set 0 0 0 .none
        | 1 => s.remoteOp h .clear 0 0 0 .none
        | 2 => s.remoteOp h .test 0 0 0 r
        | 3 => s.remoteOp h .watch (field e.pkt.pay 32 8) (ofBytes (slice e.pkt.pay 0 32)) (hAux h % 2) r
        | _ => s.remoteOp h .cancel (hAux h) 0 0 r
      some { s with mesh := s.mesh ++ [m] }

/-! ### Ends of transactions (R268, R269, R271, R272) -/

/-- The tag a response names, if the partition it is addressed to holds it (R271, R277). -/
def State.tagOf (s : State) (h : Nat) : Option Tag :=
  match s.tag? (hTag h) with
  | some t => if t.part = hDstPart h then some t else none
  | none => none

/-- The copy of entry `idx` of a MIGRATE is acknowledged with the last of its transfers: its forwarding entries stand from
now on (R218, R219). -/
def State.installCopy (s : State) (e p idx : Nat) : State :=
  let open_ := s.fabric.tags.any (fun t => decide (t.use = .write e p idx)) ||
    (match s.rcur e p with | some c => c.todo.any (fun x => decide (x.1 = idx)) | none => false)
  if open_ then s
  else { s with fwd := s.fwd.map (fun f =>
    if f.part = p ∧ f.copier = some (e, idx) then { f with copier := none } else f) }

/-- A transaction of a coordinator has ended, with fabric code `fcode` when it failed (R229, R271). -/
def State.endRow (s : State) (e p idx tag fcode : Nat) : State :=
  let s := s.modRcur e p (fun c =>
    let c := { c with tags := c.tags.filter (· ≠ tag) }
    if fcode = 0 ∨ c.err ≠ 0 then c
    else { c with err := eRemote, errIdx := idx, fcode := fcode, todo := [] })
  (if fcode = 0 then s.installCopy e p idx else s).rowAdvance e p

/-- A transfer of a DMA engine has ended. -/
def State.endDma (s : State) (sh tag fcode : Nat) : State :=
  s.modDma sh (fun x => { x with cur := x.cur.map (fun c =>
    let c := { c with tags := c.tags.filter (· ≠ tag) }
    if fcode = 0 then c else { c with err := eRemote, errIdx := 0, fcode := fcode }) })

/-- A transaction of a mirror has ended (R314). -/
def State.endMirror (s : State) (p tag fcode : Nat) : State :=
  s.modPart p (fun x => { x with mirror := { x.mirror with
    tags := x.mirror.tags.filter (· ≠ tag), fail := x.mirror.fail || decide (fcode ≠ 0) } })

/-- The stall that waits for a result, for error events. -/
def State.waiter (s : State) (r : Reply) : Nat := match s.rootReply 20 r with | .stall u _ => u | _ => noStall

/-- The transaction of a held tag fails with a fabric code; `target` is the address echoed (R271, R272). -/
def State.failTag (s : State) (t : Tag) (fcode target : Nat) : State :=
  let s := s.dropTag t.tag
  match t.use with
  | .flag r w => (s.fabricError t.part (s.waiter r) (if target = 0 then w.getD 0 else target) fcode).reply r 0
  | .row e p _ _ _ idx => s.endRow e p idx t.tag fcode
  | .write e p idx => s.endRow e p idx t.tag fcode
  | .dma sh _ => s.endDma sh t.tag fcode
  | .mirror p => s.endMirror p t.tag fcode

/-- A response that breaks R266 or travels on a wrong lane is refused, and performs nothing (R263, R270; log 48). -/
def onResponse (k j : Nat) (ok : Nat → Bool) (s : State) (f : State → Packet → State) : Out1 :=
  onPacket k j ok s fun s e => some (if e.code ≠ 0 then s.nack e.pkt.h e.code else f s e.pkt)

/-- READ_RESP (R267): the bytes land; the read completes when every byte is held. -/
def execPktReadResp (k j : Nat) (s : State) : Out1 :=
  onResponse k j (fun h => decide (hKind h = pkReadResp)) s fun s p =>
    let h := p.h
    match s.tagOf h with
    | none => s.stray
    | some t =>
      if hErr h then s.failTag t (hCode h) (hAddr h)
      else match t.use with
        | .row e q table row len idx =>
          let got := t.got ++ [(bits (hAux h) 0 32, p.pay)]
          if (got.map (fun g => g.2.length)).sum < len then
            { s with fabric := { s.fabric with
              tags := s.fabric.tags.map (fun u => if u.tag = t.tag then { u with got := got } else u) } }
          else
            let bs := (sortBy (fun a b => decide (a.1 ≤ b.1)) got).flatMap (fun g => g.2)
            ((s.dropTag t.tag).modRcur e q (fun c =>
              { c with reads := c.reads ++ [((table, row), bs)] })).endRow e q idx t.tag 0
        | _ => s.stray

/-- The watch event of this module that a RESULT or NACK without a tag speaks of: who waits for its acceptance (R139). -/
def State.firedOf (s : State) (h : Nat) : Option Reply :=
  if hTag h = 0 ∧ bit (hAux h) 0 then
    (s.fabric.fired.find? (fun f => decide (f.1 = hAux h / 2 ∧ f.2.1 = hSrcDev h))).map (fun f => f.2.2)
  else none

/-- The watch event has been accepted, or refused: its slot is freed (R139). -/
def State.endFired (s : State) (h : Nat) (r : Reply) : State :=
  { s with fabric := { s.fabric with fired := s.fabric.fired.filter (fun f => decide (f.1 ≠ hAux h / 2)) } }.reply r 1

/-- A WATCH on another module found no slot there: E_WATCH_FULL at its issuer, once for the WATCH (R141, R144, R393). -/
def State.remoteFull (s : State) (part : Nat) (r : Reply) (a : Nat) : State :=
  match r with
  | .agg _ => s.noteFull 20 r
  | _ => s.reportError part 0x0503 (s.waiter r) (uaKind a) (uaIndex a) a 0 0

/-- MESSAGE RESULT (R137, R267): a remote TEST, WATCH or CANCEL returns, or a watch's event has been accepted (R139). -/
def execMessageResult (k j : Nat) (s : State) : Out1 :=
  onResponse k j (fun h => decide (hKind h = pkMessage ∧ hSub h = 3)) s fun s p =>
    let h := p.h
    match s.firedOf h with
    | some r => s.endFired h r
    | none =>
      match s.tagOf h with
      | none => s.stray
      | some t => match t.use with
        | .flag r w =>
          let s := s.dropTag t.tag
          let s := match w with
            | some a =>
              if hAux h = 0 then s.remoteFull t.part r a
              else { s with fabric := { s.fabric with homes := s.fabric.homes ++ [(t.part, hAux h, a)] } }
            | none => s
          s.reply r (BitVec.ofNat 64 (hAux h))
        | _ => s.stray

/-- MESSAGE ACK (R268, R269): the transaction is complete; a deferred trailer's push is sent. -/
def execMessageAck (k j : Nat) (s : State) : Out1 :=
  onResponse k j (fun h => decide (hKind h = pkMessage ∧ hSub h = 4)) s fun s p =>
    let h := p.h
    match s.tagOf h with
    | none => s.stray
    | some t => match t.use with
      | .write e q idx => (s.dropTag t.tag).endRow e q idx t.tag 0
      | .mirror q => (s.dropTag t.tag).endMirror q t.tag 0
      | .dma sh tr =>
        let s := (s.dropTag t.tag).endDma sh t.tag 0
        (match tr with
         | some w => if bit (hAux h) 0 then
             s.send { kind := pkMessage, sub := 1, dev := hSrcDev h, part := hSrcPart h, src := t.part,
                      addr := trTarget w, aux := trHandle w } []
           else s
         | none => s)
      | _ => s.stray

/-- MESSAGE NACK (R270, R271): the transaction fails; one without a tag raises an error event at its issuer. -/
def execMessageNack (k j : Nat) (s : State) : Out1 :=
  onResponse k j (fun h => decide (hKind h = pkMessage ∧ hSub h = 5)) s fun s p =>
    let h := p.h
    match s.firedOf h with
    | some r => (s.fabricError (hDstPart h) noStall (hAddr h) (hCode h)).endFired h r
    | none =>
      match s.tagOf h with
      | some t => s.failTag t (hCode h) (hAddr h)
      | none =>
        if hVl h = 0 ∧ hTag h = 0 then s.fabricError (hDstPart h) noStall (hAddr h) (hCode h) else s.stray

/-- TRANSACTION_TIMEOUT (R272): a transaction older than TXN_LIMIT_MS completes with E_TIMEOUT. -/
def execTransactionTimeout (tag : Nat) (s : State) : Out1 :=
  match s.tag? tag with
  | none => .next s
  | some t =>
    let ms := s.obj kTxnLimit
    if ms = 0 ∨ s.clock ≤ t.since + ms * 1000000 then .next s else .next (s.failTag t 0x0907 0)

/-! ### Management requests (R267) -/

/-- A packet leaves the packets of port `k` that wait, and keeps its buffer space. -/
def State.takeOut (s : State) (k st : Nat) : State :=
  s.modPort k (fun x => { x with ing := x.ing.filter (fun e => decide (e.stamp ≠ st)) })

/-- MGMT_REQUEST (R267, R326): a request waits for the ostler in the VL1 buffer of its port, or is refused; a response,
which this module never asked for, is a stray. -/
def execMgmtRequest (k j : Nat) (s : State) : Out1 :=
  if loopPort < k then .fault .noSuchUnit
  else match s.nextPacket k j (fun h => decide (hKind h = pkMgmt)) with
    | none => .next s
    | some e =>
      let h := e.pkt.h
      if e.code ≠ 0 then .next ((s.unload k e.stamp e.pkt).nack h e.code)
      else if hSub h = 1 then .next (s.unload k e.stamp e.pkt).stray
      else
        let r : LlynReq := { dev := hSrcDev h, part := hSrcPart h, msg := e.pkt.pay, port := k, pkt := e.pkt }
        let s := s.takeOut k e.stamp
        .next { s with host := { s.host with llynQ := s.host.llynQ ++ [r] } }

end Sys2Proof.Machine
end

