-- ==== Sys2Proof/Machine/Collective.lean ====
section
/-!
DEFINITION. Collectives: plans, contributions, chain sums, results and sidecars (R62, R283-R289).
-/

namespace Sys2Proof.Machine

/-! ### Plans (R283) -/

def plMode (d : Nat) : Nat := bits d 0 2
def plIfmt (d : Nat) : Nat := bits d 2 2
def plOfmt (d : Nat) : Nat := bits d 4 2
def plCompress (d : Nat) : Bool := bit d 6
def plMbCount (d : Nat) : Nat := bits d 7 3
def plValid (d : Nat) : Bool := bit d 10
def plN (d : Nat) : Nat := bits d 32 17 + 1
def plRank (d : Nat) : Nat := bits d 64 17
def plElems (d : Nat) : Nat := bits d 96 32
def plRanks (d : Nat) : Nat := bits d 128 64
def plSrc (d : Nat) : Nat := bits d 192 64
def plDst (d : Nat) : Nat := bits d 256 64
def plAcc (d : Nat) : Nat := bits d 320 64
def plObuf (d : Nat) : Nat := bits d 384 64
def plObufKib (d : Nat) : Nat := bits d 448 32
def plSideIn (d : Nat) : Nat := bits d 512 64
def plSideOut (d : Nat) : Nat := bits d 576 64
def plStart (d : Nat) : Nat := bits d 640 32
def plDone (d : Nat) : Nat := bits d 672 32

/-- Shard size S. -/
def plShard (d : Nat) : Nat := ceilDiv (plElems d) (plN d)
/-- First element of rank `r`, and the end of its range. -/
def plLo (d r : Nat) : Nat := min (r * plShard d) (plElems d)
def plHi (d r : Nat) : Nat := min ((r + 1) * plShard d) (plElems d)

/-- Plan `n` of partition `p` as it runs: with STRICT a plan of MODE 0 runs as MODE 1 (R354). -/
def State.planDesc (s : State) (p n : Nat) : Nat :=
  let d := s.obj (kPlan p n)
  if s.strict p ∧ plMode d = 0 then d + 1 else d

/-- The engine of plan `n`. -/
def State.plan (s : State) (p n : Nat) : PlanSt := FMap.get (fun _ => PlanSt.reset) (s.part p).plans n
def State.setPlan (s : State) (p n : Nat) (x : PlanSt) : State :=
  s.modPart p (fun y => { y with plans := FMap.set (fun _ => PlanSt.reset) y.plans n x })
def State.modPlan (s : State) (p n : Nat) (f : PlanSt → PlanSt) : State := s.setPlan p n (f (s.plan p n))

/-- Bytes at a stall address for a collective or verdict engine: every sector is decoded, and data that is poisoned is taken
as it stands (log 21). -/
def State.peek (s : State) (p a n : Nat) : List Byte × State :=
  match s.physRange p none a n with
  | none => (zeros n, s)
  | some ks => let r := s.readThrough p ks; (r.2.1, r.1)

/-- Write bytes at a stall address. -/
def State.poke (s : State) (p a : Nat) (bs : List Byte) : State :=
  match s.physRange p none a bs.length with
  | none => s
  | some ks => (s.writeThrough p (ks.zip bs)).1

/-- Device and partition of rank `r`, out of the rank list that was read when the instance began (log 21). -/
def State.rankOf (s : State) (p d r : Nat) : Nat × Nat :=
  let e := ofBytes (s.peek p (plRanks d + 4 * r) 4).1
  (bits e 0 17, bits e 17 5)

/-! ### Elements -/

/-- Elements of a payload of format `k`. -/
def codes (k : Nat) (bs : List Byte) : List Nat :=
  (List.range (bs.length / fsize k)).map (fun i => field bs (fsize k * i) (fsize k))

/-- Whether a code of format `k` is a NaN or an infinity. -/
def nonfinite (k c : Nat) : Bool := !((ffmt k).decode c).isFin

/-- Elements [lo, hi) cut into packets of up to 4,096 bytes of format `k`: first element and count. -/
def packetCuts (k lo hi : Nat) : List (Nat × Nat) :=
  let c := 4096 / fsize k
  (List.range (ceilDiv (hi - lo) c)).map (fun i => (lo + i * c, min c (hi - lo - i * c)))

/-- AUX of a COLLECTIVE packet (R267). -/
def collAux (n rank inst : Nat) : Nat := n % 64 + (rank % 2 ^ 17) * 2 ^ 6 + (inst % 2 ^ 41) * 2 ^ 23
def auxPlan (a : Nat) : Nat := bits a 0 6
def auxRank (a : Nat) : Nat := bits a 6 17
def auxInst (a : Nat) : Nat := bits a 23 41

/-- Send a COLLECTIVE packet to rank `r` (R267, R278). -/
def State.sendColl (s : State) (p n d sub r first inst : Nat) (run nf : Bool) (pay : List Byte) : State :=
  let q := s.rankOf p d r
  s.send { kind := pkCollective, sub := sub, vl := s.dataVl p, run := run, nf := nf, dev := q.1, part := q.2, src := p,
           addr := first, aux := collAux n (plRank d) inst } pay

/-- One contribution chunk: dense, or as runs with absolute indices where it is sparse enough and fits (R225, R285). -/
def State.sendChunk (s : State) (p n d r inst : Nat) (src : List Byte) (c : Nat × Nat) : State :=
  let k := plIfmt d
  let z := fsize k
  let pay := slice src (z * c.1) (z * c.2)
  let cs := codes k pay
  let nf := cs.any (nonfinite k)
  let nz := ((List.range c.2).map (fun j => (c.1 + j, (cs[j]?).getD 0))).filter (fun e => decide (e.2 ≠ 0))
  let runs := rowRuns z nz
  if plCompress d ∧ nz.length * 100 < bits (s.obj (kCompress p)) 0 7 * c.2 ∧ runs.length ≤ 4096 then
    s.sendColl p n d 0 r c.1 inst true nf runs
  else s.sendColl p n d 0 r c.1 inst false nf pay

/-- Send elements [lo, hi) of format OFMT, given as bytes from element `lo`, to rank `r`. -/
def State.sendOut (s : State) (p n d sub r inst lo hi : Nat) (bs : List Byte) : State :=
  let k := plOfmt d
  (packetCuts k lo hi).foldl (fun s c =>
    let pay := slice bs (fsize k * (c.1 - lo)) (fsize k * c.2)
    s.sendColl p n d sub r c.1 inst false ((codes k pay).any (nonfinite k)) pay) s

/-! ### Sidecars (R288) -/

/-- The 256 bytes of a sidecar. -/
def sidecarBytes (t : PlanTot) : List Byte :=
  slice (toBytes 48 t.sqn ++ (List.range 4).flatMap (fun j => toBytes 48 ((t.mb[j]?).getD 0)) ++
    toBytes 1 (b2n t.nonfin + b2n t.sqnInf * 2 + (t.mbInf % 16) * 4)) 0 256

/-- What a sidecar says. -/
def sidecarOf (b : List Byte) : PlanTot :=
  let f := field b 240 1
  { inst := 0, sqn := field b 0 48, mb := (List.range 4).map (fun j => field b (48 + 48 * j) 48), nonfin := bit f 0,
    sqnInf := bit f 1, mbInf := bits f 2 4 }

/-- Exact sums and ORed flags. -/
def PlanTot.add (a b : PlanTot) : PlanTot :=
  { inst := a.inst, sqn := a.sqn + b.sqn, mb := List.zipWith (· + ·) a.mb b.mb, nonfin := a.nonfin || b.nonfin,
    sqnInf := a.sqnInf || b.sqnInf, mbInf := a.mbInf ||| b.mbInf }

/-- A finite non-negative value in units of 2^-149. -/
def fixed149 : FVal → Option Nat
  | .fin n m e => if n ∧ m ≠ 0 then none else some (m * 2 ^ (e + 149).toNat)
  | _ => none

/-- Exact sum of squares, each rounded once to FP32, and whether one overflowed (R38, R288, R300); NaN elements do not
enter it. -/
def squares (cs : List Nat) : Nat × Bool :=
  cs.foldl (fun (acc : Nat × Bool) c =>
    let v := fp32.decode (f32mul c c)
    match fixed149 v with
    | some n => (acc.1 + n, acc.2)
    | none => (acc.1, acc.2 || v.isInf)) (0, false)

/-- Microbatch norm `c` as an exact number: +inf sets its flag; a NaN or a negative number has no stated value and is free
(assumption log 3). -/
def State.mbValue (s : State) (j c : Nat) : Nat × Bool :=
  match fixed149 (fp32.decode c) with
  | some n => (n, false)
  | none => if fp32.decode c = .inf false then (0, true) else (Config.freeNat (s.free + j) % 2 ^ 384, false)

/-- A rank's own MB values (R288). -/
def State.ownMb (s : State) (side : List Nat) : PlanTot :=
  let vs := (List.range 4).map (fun j => match side[j]? with | some c => s.mbValue j c | none => (0, false))
  { PlanTot.zero with mb := vs.map Prod.fst,
                      mbInf := ((List.range 4).map (fun j =>
                        if ((vs[j]?).getD (0, false)).2 then 2 ^ j else 0)).sum }

/-- An exact total rounded once to FP32 (R288). -/
def roundTotal (n : Nat) (inf : Bool) : Nat := if inf then fp32.infCode false else fp32.encode (.fin false n (-149))

/-- SIDE_OUT of an instance (R288). -/
def sideOut (t : PlanTot) : List Byte :=
  toBytes 4 (roundTotal t.sqn t.sqnInf) ++ toBytes 4 (b2n t.nonfin) ++
  (List.range 4).flatMap (fun j => toBytes 4 (roundTotal ((t.mb[j]?).getD 0) (bit t.mbInf j))) ++ toBytes 8 t.inst ++ zeros 32

/-! ### Completion (R284, R285) -/

/-- Sidecars a rank waits for: one of each rank, or the one that comes back along a chain. -/
def plSides (d : Nat) : Nat := if plMode d = 2 then 1 else plN d

/-- Whether plan `n` is one of the verdict engine's (R299). -/
def State.inVplans (s : State) (p n : Nat) : Bool :=
  let c := s.obj (kVerdictCfg p)
  bit c 0 && bit (bits c 256 64) n

/-- Complete the instance in progress once its results and sidecars are all here: SIDE_OUT, then DONE (R284, R285). -/
def State.endInstance (s : State) (p n : Nat) : State :=
  let d := s.planDesc p n
  let x := s.plan p n
  if x.busy = false ∨ x.held < plElems d ∨ x.sides < plSides d then s
  else
    let t := { x.tot with inst := x.inst - 1 }
    let s := s.poke p (plSideOut d) (sideOut t)
    let s := s.setPlan p n { x with busy := false, src := [], side := [],
                                    hist := if s.inVplans p n then x.hist ++ [t] else [] }
    if plDone d < 131072 ∧ s.owns p (plDone d / 4096) then s.writeFlag (plDone d) true else s

/-! ### Arrival and ordered modes (R285, R286) -/

/-- Who adds at ACC (R62). -/
def collSrc (n : Nat) : NanSrc := ⟨6, 0x0A, noStall, n⟩

/-- Add elements, by index and as codes of format `f`, into the shard (R56, R285). -/
def State.addShard (s : State) (p n d : Nat) (f : Fmt) (es : List (Nat × Nat)) : State :=
  es.foldl (fun s e =>
    let a := plAcc d + 4 * (e.1 - plLo d (plRank d))
    let r := s.peek p a 4
    let o := fp32.decode (ofBytes r.1)
    let v := f.decode e.2
    let w := o.add v
    (r.2.poke p a (toBytes 4 (fp32.encode w))).nanEvents p (collSrc n) [(e.1, nanCause [o, v] w)]) s

/-- The elements a contribution lists and how many it stands for; none when it is malformed or leaves the shard. -/
def contribElems (d : Nat) (k : Packet) : Option (List (Nat × Nat) × Nat) :=
  let z := fsize (plIfmt d)
  let lo := plLo d (plRank d)
  let hi := plHi d (plRank d)
  let a := hAddr k.h
  if hRun k.h then
    match parseRow z k.pay.length k.pay with
    | none => none
    | some es =>
      if a < lo ∨ hi ≤ a ∨ es.any (fun e => decide (e.1 < a ∨ hi ≤ e.1)) then none
      else some (es, min (4096 / z) (hi - a))
  else
    let cs := codes (plIfmt d) k.pay
    if a < lo ∨ hi < a + cs.length then none
    else some ((List.range cs.length).map (fun i => (a + i, (cs[i]?).getD 0)), cs.length)

/-- Elements received of rank `r`'s contribution. -/
def PlanSt.gotOf (x : PlanSt) (r : Nat) : Nat :=
  match x.got.find? (fun g => decide (g.1 = r)) with
  | some g => g.2
  | none => 0

/-- Count a contribution. -/
def PlanSt.note (x : PlanSt) (r n : Nat) (nf : Bool) : PlanSt :=
  { x with got := (r, x.gotOf r + n) :: x.got.filter (fun g => decide (g.1 ≠ r)), nfIn := x.nfIn || nf }

/-- The lowest rank whose contribution is not whole. -/
def PlanSt.turn (x : PlanSt) (d : Nat) : Option Nat :=
  (List.range (plN d)).find? (fun r => decide (x.gotOf r < plHi d (plRank d) - plLo d (plRank d)))

/-- Add one contribution packet. -/
def State.takeContrib (s : State) (p n d : Nat) (k : Packet) : State :=
  match contribElems d k with
  | none => s
  | some (es, c) => (s.addShard p n d (ffmt (plIfmt d)) es).modPlan p n (fun x => x.note (auxRank (hAux k.h)) c (hNf k.h))

/-- The place in OBUF of element `i` of the shard as rank `r` contributes it: (N − 1) slots of S FP32 elements, for ranks 1
on, since the turn of rank 0 is always there (R286, R290; the layout is the model's choice, log 58). -/
def obufAt (d r i : Nat) : Nat := plObuf d + 4 * ((r - 1) * plShard d + (i - plLo d (plRank d)))

/-- A contribution before its turn is widened and written to OBUF (R286). -/
def State.bufferContrib (s : State) (p n d : Nat) (k : Packet) : State :=
  match contribElems d k with
  | none => s
  | some (es, c) =>
    let f := ffmt (plIfmt d)
    (es.foldl (fun s e => s.poke p (obufAt d (auxRank (hAux k.h)) e.1) (toBytes 4 (fp32.encode (f.decode e.2)))) s).modPlan
      p n (fun x => { x with buffered := x.buffered ++ [{ hdr := k.hdr, els := es.map Prod.fst, count := c }] })

/-- Add a contribution out of OBUF (R286). -/
def State.takeBuffered (s : State) (p n d : Nat) (b : Buffered) : State :=
  let r := auxRank (hAux b.hdr.toNat)
  (b.els.foldl (fun s i =>
    let v := s.peek p (obufAt d r i) 4
    v.2.addShard p n d fp32 [(i, ofBytes v.1)]) s).modPlan p n (fun x => x.note r b.count (hNf b.hdr.toNat))

/-- Add the held contributions whose rank's turn has come (R286). -/
def State.drainTurns : Nat → State → Nat → Nat → Nat → State
  | 0, s, _, _, _ => s
  | f + 1, s, p, n, d =>
    let x := s.plan p n
    match x.turn d with
    | none => s
    | some r => match indexOf? (fun (b : Buffered) => decide (auxRank (hAux b.hdr.toNat) = r)) x.buffered with
      | none => s
      | some i => match x.buffered[i]? with
        | none => s
        | some b =>
          State.drainTurns f ((s.setPlan p n { x with buffered := removeAt x.buffered i }).takeBuffered p n d b) p n d

/-- A sidecar goes to every rank, this one included. -/
def State.sendSidecars (s : State) (p n d inst : Nat) (t : PlanTot) : State :=
  (List.range (plN d)).foldl (fun s r => s.sendColl p n d 3 r 0 inst false t.nonfin (sidecarBytes t)) s

/-- The owner's last step once every contribution is in: results rounded once, ACC zeroed, results and a sidecar sent to
every rank (R285, R288). -/
def State.endShard (s : State) (p n : Nat) : State :=
  let d := s.planDesc p n
  let x := s.plan p n
  let lo := plLo d (plRank d)
  let hi := plHi d (plRank d)
  if lo = hi ∨ (x.turn d).isSome ∨ x.busy = false then s
  else
    let inst := x.zeroed
    let r := s.peek p (plAcc d) (4 * (hi - lo))
    let cs := codes 0 r.1
    let q := squares cs
    let t := { (s.ownMb x.side) with sqn := q.1, sqnInf := q.2, nonfin := x.nfIn || cs.any (nonfinite 0) }
    let s := (r.2.poke p (plAcc d) (zeros (4 * (hi - lo)))).draw
    let s := s.setPlan p n { x with zeroed := x.zeroed + 1, got := [], nfIn := false }
    let outs := cs.flatMap (fun c => toBytes (fsize (plOfmt d)) ((ffmt (plOfmt d)).encode (fp32.decode c)))
    let s := (List.range (plN d)).foldl (fun s k => s.sendOut p n d 1 k inst lo hi outs) s
    s.sendSidecars p n d inst t

/-- Send this rank's contribution to every owner; a rank that owns nothing then sends its sidecar (R285). -/
def State.contributeAll (s : State) (p n d inst : Nat) : State :=
  let x := s.plan p n
  let s := (List.range (plN d)).foldl (fun s r =>
    (packetCuts (plIfmt d) (plLo d r) (plHi d r)).foldl (fun s c => s.sendChunk p n d r inst x.src c) s) s
  if plLo d (plRank d) = plHi d (plRank d) then (s.sendSidecars p n d inst (s.ownMb x.side)).draw else s

/-! ### Chain mode (R287) -/

/-- Result elements reach DST at rank r, and go on to rank r − 1. -/
def State.chainResult (s : State) (p n d inst first : Nat) (cs : List Nat) : State :=
  let k := plOfmt d
  let bs := cs.flatMap (toBytes (fsize k))
  let s := (s.poke p (plDst d + fsize k * first) bs).modPlan p n (fun x => { x with held := x.held + cs.length })
  if plRank d = 0 then s else s.sendOut p n d 1 (plRank d - 1) inst first (first + cs.length) bs

/-- A sidecar on its way back is taken, and goes on to rank r − 1. -/
def State.chainSideBack (s : State) (p n d inst : Nat) (t : PlanTot) : State :=
  let s := s.modPlan p n (fun x => { x with tot := x.tot.add t, sides := x.sides + 1 })
  if plRank d = 0 then s else s.sendColl p n d 3 (plRank d - 1) 0 inst false t.nonfin (sidecarBytes t)

/-- The sums of rank r: rounded once to OFMT from the exact sum, with the causes of NaN (R60, R287).  Only an addition makes
an event: the rounding of a NaN to OFMT, at rank 0 and of an owner's result, makes none (the model's choice, log 53). -/
def chainSums (d first : Nat) (src : List Byte) (prev : Option (List Nat)) (count : Nat) : List (Nat × Nat) :=
  let zi := fsize (plIfmt d)
  (List.range count).map (fun i =>
    let v := (ffmt (plIfmt d)).decode (field src (zi * (first + i)) zi)
    match prev with
    | none => ((ffmt (plOfmt d)).encode v, 0)
    | some ps =>
      let o := (ffmt (plOfmt d)).decode ((ps[i]?).getD 0)
      let w := o.add v
      ((ffmt (plOfmt d)).encode w, nanCause [o, v] w))

/-- Elements [first, first + count) have been summed at this rank: they go on, or are the result. -/
def State.chainStep (s : State) (p n d inst first : Nat) (prev : Option (List Nat)) (count : Nat) : State :=
  let k := plOfmt d
  let ts := chainSums d first (s.plan p n).src prev count
  let s := s.nanEvents p (collSrc n) ((List.range count).map (fun i => (first + i, ((ts[i]?).getD (0, 0)).2)))
  let cs := ts.map Prod.fst
  if plRank d + 1 = plN d then s.chainResult p n d inst first cs
  else s.sendOut p n d 2 (plRank d + 1) inst first (first + count) (cs.flatMap (toBytes (fsize k)))

/-- The sidecar that comes up the chain: this rank's MB values and NF enter it; the last rank completes it (R288). -/
def State.chainSideUp (s : State) (p n d inst : Nat) (t : PlanTot) : State :=
  let x := s.plan p n
  let own := { (s.ownMb x.side) with nonfin := (codes (plIfmt d) x.src).any (nonfinite (plIfmt d)) }
  let t := t.add own
  let s := s.draw
  if plRank d + 1 = plN d then
    let z := fsize (plOfmt d)
    let r := s.peek p (plDst d) (z * plElems d)
    let cs := (codes (plOfmt d) r.1).map (fun c => fp32.encode ((ffmt (plOfmt d)).decode c))
    let q := squares cs
    r.2.chainSideBack p n d inst { t with sqn := q.1, sqnInf := q.2, nonfin := t.nonfin || cs.any (nonfinite 0) }
  else s.sendColl p n d 3 (plRank d + 1) 0 inst false t.nonfin (sidecarBytes t)

/-- A chain-sum packet of the instance in progress. -/
def State.takeChain (s : State) (p n d : Nat) (k : Packet) : State :=
  let cs := codes (plOfmt d) k.pay
  s.chainStep p n d ((s.plan p n).inst - 1) (hAddr k.h) (some cs) cs.length

/-- A chain-sum packet before its rank's instance is written to OBUF, each element at its place (R287; log 58). -/
def State.bufferChain (s : State) (p n d : Nat) (k : Packet) : State :=
  let z := fsize (plOfmt d)
  (s.poke p (plObuf d + z * hAddr k.h) k.pay).modPlan p n (fun x =>
    { x with buffered := x.buffered ++ [{ hdr := k.hdr, els := [], count := k.pay.length / z }] })

/-- Take a chain-sum packet out of OBUF. -/
def State.unbufferChain (s : State) (p n d : Nat) (b : Buffered) : State :=
  let z := fsize (plOfmt d)
  let r := s.peek p (plObuf d + z * hAddr b.hdr.toNat) (z * b.count)
  r.2.takeChain p n d { hdr := b.hdr, pay := r.1, trailer := none }

/-- A sidecar of the instance in progress. -/
def State.takeSide (s : State) (p n d : Nat) (k : Packet) : State :=
  let t := sidecarOf k.pay
  let inst := (s.plan p n).inst - 1
  if plMode d ≠ 2 then s.modPlan p n (fun x => { x with tot := x.tot.add t, sides := x.sides + 1 })
  else if auxRank (hAux k.h) < plRank d then s.chainSideUp p n d inst t
  else s.chainSideBack p n d inst t

/-! ### Commands -/

/-- Begin instance i of plan `n` (R284): SRC and SIDE_IN are read, contributions or chain sums sent, and what was held for
this instance is taken. -/
def State.beginInstance (s : State) (p n : Nat) : State :=
  let d := s.planDesc p n
  let x := s.plan p n
  let a := s.peek p (plSrc d) (plElems d * fsize (plIfmt d))
  let b := a.2.peek p (plSideIn d) (4 * plMbCount d)
  let inst := x.inst
  let s := (b.2.peek p (plRanks d) (4 * plN d)).2.setPlan p n { x with
    busy := true, inst := inst + 1, src := a.1, side := codes 0 b.1, held := 0, sides := 0, tot := PlanTot.zero,
    early := [], buffered := if plMode d = 2 then [] else x.buffered }
  let s :=
    if plMode d ≠ 2 then s.contributeAll p n d inst
    else if plRank d = 0 then
      ((packetCuts (plOfmt d) 0 (plElems d)).foldl (fun s c => s.chainStep p n d inst c.1 none c.2) s).chainSideUp p n d
        inst PlanTot.zero
    else s
  let s := if plMode d = 2 then x.buffered.foldl (fun s b => s.unbufferChain p n d b) s else s
  let s := x.early.foldl (fun s k => s.takeSide p n d k) s
  s.endInstance p n

/-- COLLECTIVE_START (R284): the engine of plan `n` finds START at 1, clears it and begins the next instance. -/
def execCollectiveStart (p n : Nat) (s : State) : Out1 :=
  if 32 ≤ p ∨ 64 ≤ n then .fault .noSuchUnit
  else
    let d := s.planDesc p n
    let i := plStart d
    if plValid d = false ∨ (s.plan p n).busy ∨ 131072 ≤ i ∨ s.owns p (i / 4096) = false ∨ s.flag i = false ∨
       ((s.part p).phase ≠ .running ∧ (s.part p).phase ≠ .stopping) then .next s
    else .next ((s.ifOpen ((s.writeFlag i false).beginInstance p n)).getD s)

/-- The code a COLLECTIVE packet is refused with before its instance is looked at; 0 for none. -/
def State.collCode (s : State) (e : Arrived) : Nat :=
  let h := e.pkt.h
  if e.code ≠ 0 then e.code else if plValid (s.planDesc (hDstPart h) (auxPlan (hAux h))) then 0 else 0x0909

/-- COLLECTIVE contribution (R285, R286, R289): added into ACC, held until its rank's turn, or refused.  A reserved SUB is
refused here. -/
def execCollectiveContribution (k j : Nat) (s : State) : Out1 :=
  onPacket k j (fun h => decide (hKind h = pkCollective ∧ (hSub h = 0 ∨ 4 ≤ hSub h))) s fun s e =>
    let s0 := s
    let pk := e.pkt
    let h := pk.h
    let p := hDstPart h
    let n := auxPlan (hAux h)
    let d := s.planDesc p n
    let c := s.collCode e
    let x := s.plan p n
    if c ≠ 0 then some (s.strayColl k h c)
    else if plMode d = 2 ∨ plN d ≤ auxRank (hAux h) ∨ auxInst (hAux h) ≠ x.zeroed % 2 ^ 41 then
      some (s.strayColl k h 0x0909)
    else if (contribElems d pk).isNone then some (s.strayColl k h 0x0901)
    else if plMode d = 1 ∧ x.turn d ≠ some (auxRank (hAux h)) then s0.ifOpen (s.bufferContrib p n d pk)
    else
      let s := s.takeContrib p n d pk
      s0.ifOpen ((State.drainTurns x.buffered.length s p n d).endShard p n)

/-- Whether a packet belongs to the instance in progress of a plan. -/
def PlanSt.isNow (x : PlanSt) (h : Nat) : Bool := x.busy && decide (auxInst (hAux h) = (x.inst - 1) % 2 ^ 41)

/-- COLLECTIVE result (R285, R287): elements of a shard are written to DST; in chain mode they go on. -/
def execCollectiveResult (k j : Nat) (s : State) : Out1 :=
  onPacket k j (fun h => decide (hKind h = pkCollective ∧ hSub h = 1)) s fun s e =>
    let pk := e.pkt
    let h := pk.h
    let p := hDstPart h
    let n := auxPlan (hAux h)
    let d := s.planDesc p n
    let c := s.collCode e
    let x := s.plan p n
    let cs := codes (plOfmt d) pk.pay
    if c ≠ 0 then some (s.strayColl k h c)
    else if x.isNow h = false then some (s.strayColl k h 0x0909)
    else if plElems d < hAddr h + cs.length then some (s.strayColl k h 0x0901)
    else if plMode d = 2 then s.ifOpen ((s.chainResult p n d (x.inst - 1) (hAddr h) cs).endInstance p n)
    else
      let t := s.poke p (plDst d + fsize (plOfmt d) * hAddr h) pk.pay
      s.ifOpen ((t.modPlan p n (fun x => { x with held := x.held + cs.length })).endInstance p n)

/-- Whether a packet is for the next instance of a plan, to be held for it (R287, log 20). -/
def PlanSt.isNext (x : PlanSt) (h : Nat) : Bool := decide (auxInst (hAux h) = x.inst % 2 ^ 41)

/-- COLLECTIVE chain sum (R287): added at this rank, or held until its instance begins. -/
def execCollectiveChainSum (k j : Nat) (s : State) : Out1 :=
  onPacket k j (fun h => decide (hKind h = pkCollective ∧ hSub h = 2)) s fun s e =>
    let pk := e.pkt
    let h := pk.h
    let p := hDstPart h
    let n := auxPlan (hAux h)
    let d := s.planDesc p n
    let c := s.collCode e
    let x := s.plan p n
    if c ≠ 0 then some (s.strayColl k h c)
    else if plMode d ≠ 2 then some (s.strayColl k h 0x0909)
    else if plElems d < hAddr h + (codes (plOfmt d) pk.pay).length then some (s.strayColl k h 0x0901)
    else if x.isNow h then s.ifOpen ((s.takeChain p n d pk).endInstance p n)
    else if x.isNext h then s.ifOpen (s.bufferChain p n d pk)
    else some (s.strayColl k h 0x0909)

/-- COLLECTIVE sidecar (R288): added exactly, or passed along the chain; the instance completes with the last one. -/
def execCollectiveSidecar (k j : Nat) (s : State) : Out1 :=
  onPacket k j (fun h => decide (hKind h = pkCollective ∧ hSub h = 3)) s fun s e =>
    let pk := e.pkt
    let h := pk.h
    let p := hDstPart h
    let n := auxPlan (hAux h)
    let d := s.planDesc p n
    let c := s.collCode e
    let x := s.plan p n
    if c ≠ 0 then some (s.strayColl k h c)
    else if x.isNow h then s.ifOpen ((s.takeSide p n d pk).endInstance p n)
    else if x.isNext h then some (s.setPlan p n { x with early := x.early ++ [pk] })
    else some (s.strayColl k h 0x0909)

end Sys2Proof.Machine
end

