-- ==== Sys2Proof/Machine/Train.lean ====
section
/-!
DEFINITION. The verdict engine: the reduction barrier, the scan, the verdict, the loss scale, the close of a step with its
speculative groups, gradient-noise statistics, and the buddy mirror (R295-R317, R321, R322).
-/

namespace Sys2Proof.Machine

/-! ### Configuration (R299, R304, R306, R312) -/

def vcEnable (c : Nat) : Bool := bit c 0
def vcTail (c : Nat) : Nat := bits c 1 6
def vcSkip (c : Nat) : Bool := bit c 7
def vcMbn (c : Nat) : Nat := bits c 8 2
def vcRegions (c : Nat) : Nat := bits c 10 4
def vcPrio (c : Nat) : Nat := bits c 14 3
def vcVstart (c : Nat) : Nat := bits c 32 32
def vcVflag (c : Nat) : Nat := bits c 64 32
def vcApply (c : Nat) : Nat := bits c 96 32
def vcAltFree (c : Nat) : Nat := bits c 128 32
def vcTarget (c : Nat) : Nat := bits c 192 64
def vcPlans (c : Nat) : Nat := bits c 256 64
def vcList (c : Nat) : Nat := bits c 320 64

def grValid (g : Nat) : Bool := bit g 0
def grSpec (g : Nat) : Bool := bit g 1
/-- The live copy; a non-speculative group uses copy 0 only (R306). -/
def grCur (g : Nat) : Nat := if grSpec g then bits g 2 1 else 0
def grTabled (g : Nat) : Bool := bit g 3
def grTable (g : Nat) : Nat := bits g 8 8
def grMtable (g : Nat) : Nat := bits g 16 8
/-- Base of the parameters (0) or moments (1) of copy `c`. -/
def grBase (g moments c : Nat) : Nat := bits g (64 + 128 * moments + 64 * c) 64

def mcEnable (m : Nat) : Bool := bit m 0
def mcCount (m : Nat) : Nat := bits m 8 6 + 1
def mcInterval (m : Nat) : Nat := bits m 32 32
def mcDev (m : Nat) : Nat := bits m 64 17
def mcPart (m : Nat) : Nat := bits m 81 5
def mcRegion (m : Nat) : Nat := bits m 128 64
def mcBytes (m : Nat) : Nat := bits m 192 64
def mcList (m : Nat) : Nat := bits m 256 64

def State.modTrain (s : State) (p : Nat) (f : Train → Train) : State := s.modPart p (fun x => { x with train := f x.train })
def State.modMirror (s : State) (p : Nat) (f : Mirror → Mirror) : State := s.modPart p (fun x => { x with mirror := f x.mirror })

/-- A flag of the configuration: none when its field is 0xFFFF_FFFF or names no flag of the partition. -/
def State.cfgFlag (s : State) (p i : Nat) : Option Nat := if i < 131072 ∧ s.owns p (i / 4096) then some i else none

/-- Groups of partition `p` that are speculative. -/
def State.specGroups (s : State) (p : Nat) : List Nat :=
  (List.range 32).filter (fun g => grValid (s.obj (kGroup p g)) && grSpec (s.obj (kGroup p g)))

/-! ### Training events (R303) -/

/-- Bits of the VERDICT object (R302). -/
def vdWord (nonfin clipped region : Bool) (norm factor scale step opt : Nat) : Nat :=
  1 + b2n nonfin * 2 + b2n clipped * 4 + b2n region * 8 + (norm % 2 ^ 32) * 2 ^ 32 + (factor % 2 ^ 32) * 2 ^ 64 +
  (scale % 2 ^ 32) * 2 ^ 96 + (step % 2 ^ 64) * 2 ^ 128 + (opt % 2 ^ 64) * 2 ^ 192

/-- A training event (R147, R303); `norm` is NORM, or the slot of a mirror. -/
def trainEvent (prio tev v norm step : Nat) (reapply : Bool) : BitVec 256 :=
  BitVec.ofNat 256 ((prio % 8) * 2 ^ 11 + (tev % 16) * 2 ^ 64 + bits v 1 2 * 2 ^ 68 + b2n reapply * 2 ^ 70 +
    (norm % 2 ^ 32) * 2 ^ 96 + bits v 64 32 * 2 ^ 128 + bits v 96 32 * 2 ^ 160 + (step % 2 ^ 64) * 2 ^ 192)

/-- Push a training event to VTARGET (R299, R302): to a queue, or to the queues of a pen. -/
def State.pushTrain (s : State) (p tev norm step : Nat) : State :=
  let c := s.obj (kVerdictCfg p)
  let v := s.obj (kVerdict p)
  let a := vcTarget c
  let ev := trainEvent (vcPrio c) tev v norm step (bit v 2 && !(s.specGroups p).isEmpty)
  if a = 0 then s
  else match s.resolve p a [3] with
    | .plain _ i =>
      { s with pushes := s.pushes ++ [{ queue := i, kind := 6, ev := ev, stall := noStall, part := p, reply := .none }] }
    | .pen _ =>
      { s with mesh := s.mesh ++ [{ op := .evpush, target := BitVec.ofNat 64 a, a2 := 0, data := ev.setWidth 1024, n := 6,
                                    stall := noStall, pc := 0, part := p, dev := none, depth := 0, reply := .none }] }
    | .remote _ _ =>
      s.send { kind := pkMessage, sub := 0, dev := uaDevice a, part := uaPart a, src := p, addr := a } (toBytes 32 ev.toNat)
    | .reject => s.reportError p 0x0506 noStall 3 0 a 0 0

/-! ### The scan (R299, R300) -/

/-- Whether a region-list entry is malformed: outside the partition, a misaligned BASE or a pitch below the row's size.  An
entry of no rows has no address in the partition or outside it, but its BASE and pitch are checked (log 59). -/
def State.badRegion (s : State) (p e : Nat) : Bool :=
  let base := bits e 0 64
  let rows := bits e 64 24
  let size := 4 * (bits e 88 16 + 1)
  let pitch := 32 * bits e 104 24
  decide (base % 32 ≠ 0) || decide (pitch < size) ||
    (decide (rows ≠ 0) && !(s.mapped p none base ((rows - 1) * pitch + size)))

/-- Exact sum of squares of a region, and whether it is non-finite. -/
def State.scanRegion (s : State) (p e : Nat) : (Nat × Bool) × State :=
  let base := bits e 0 64
  let size := 4 * (bits e 88 16 + 1)
  let pitch := 32 * bits e 104 24
  (List.range (bits e 64 24)).foldl (fun (acc : (Nat × Bool) × State) i =>
    let r := acc.2.peek p (base + i * pitch) size
    let cs := codes 0 r.1
    let q := squares cs
    ((acc.1.1 + q.1, acc.1.2 || q.2 || cs.any (nonfinite 0)), r.2)) ((0, false), s)

/-- The scan of step s: exact sum, non-finite, E_REGION (R300). -/
def State.scan (s : State) (p : Nat) : (Nat × Bool × Bool) × State :=
  let c := s.obj (kVerdictCfg p)
  let n := vcRegions c
  if n = 0 then ((0, false, false), s)
  else if s.mapped p none (vcList c) (16 * n) = false then ((0, true, true), s)
  else
    let r := s.peek p (vcList c) (16 * n)
    let es := (List.range n).map (fun i => field r.1 (16 * i) 16)
    if es.any (fun e => r.2.badRegion p e) then ((0, true, true), r.2)
    else es.foldl (fun (acc : (Nat × Bool × Bool) × State) e =>
      let q := acc.2.scanRegion p e
      ((acc.1.1 + q.1.1, acc.1.2.1 || q.1.2, false), q.2)) ((0, false, false), r.2)

/-! ### VSTART to the tail (R300) -/

/-- VSTART_DETECTED (R300 1): the engine finds VSTART at 1 and clears it. -/
def execVstartDetected (p : Nat) (s : State) : Out1 :=
  if 32 ≤ p then .fault .noSuchUnit
  else
    let x := s.part p
    match s.cfgFlag p (vcVstart (s.obj (kVerdictCfg p))) with
    | none => .next s
    | some f =>
      if x.train.state ≠ 1 ∨ x.phase ≠ .running ∨ s.flag f = false then .next s
      else .next ((s.writeFlag f false).modTrain p (fun t => { t with state := 2 }))

/-- Plans of VPLANS. -/
def State.vplans (s : State) (p : Nat) : List Nat :=
  (List.range 64).filter (fun n => bit (vcPlans (s.obj (kVerdictCfg p))) n)

/-- Whether the mirror engine is free of started and waiting mirrors. -/
def Mirror.idle (m : Mirror) : Bool := decide (m.phase = 0) && m.waitSched.isEmpty && m.waitNow.isNone

/-- Whether the boundary of the open step makes a scheduled mirror due (R314). -/
def State.mirrorDue (s : State) (p step : Nat) : Bool :=
  let m := s.obj (kMirrorCfg p)
  mcEnable m && decide (step % mcInterval m = 0)

/-- c₀ (R300 4): exact sum of the scan and of the plans this partition is rank 0 of, rounded once. -/
def State.cZero (s : State) (p : Nat) (scan : Nat) (bad : Bool) : Nat :=
  let c := s.obj (kVerdictCfg p)
  let mine := (s.vplans p).filter (fun n => decide (n ≠ vcTail c ∧ plRank (s.obj (kPlan p n)) = 0))
  let ts := mine.map (fun n => ((s.plan p n).hist.head?).getD PlanTot.zero)
  roundTotal (scan + (ts.map PlanTot.sqn).sum) (bad || ts.any (fun t => t.nonfin || t.sqnInf))

/-- REGION_SCAN (R300 2-4, R315): once the step's other plans have completed, and the previous mirror has committed where
the step makes one due, the engine of a running partition scans, writes c₀ to the tail plan and starts it. -/
def execRegionScan (p : Nat) (s : State) : Out1 :=
  if 32 ≤ p then .fault .noSuchUnit
  else
    let c := s.obj (kVerdictCfg p)
    let t := (s.part p).train
    let others := (s.vplans p).filter (fun n => decide (n ≠ vcTail c))
    if (t.state ≠ 2 ∧ t.state ≠ 5) ∨ t.formed ∨ (s.part p).phase ≠ .running ∨
        others.any (fun n => (s.plan p n).hist.isEmpty) then .next s
    else if s.mirrorDue p (s.stepOf p + 1) ∧ (s.part p).mirror.idle = false then
      .next (s.modTrain p (fun t => { t with state := 5 }))
    else
      let r := s.scan p
      let u := r.2
      let u := if r.1.2.2 then u.reportError p 0x0A05 noStall 0 ((s.shedsOf p).headD 0) (vcList c) 0 0 else u
      let c0 := u.cZero p r.1.1 r.1.2.1
      let u := others.foldl (fun s n => s.modPlan p n (fun x => { x with hist := x.hist.drop 1 })) u
      let d := u.obj (kPlan p (vcTail c))
      let u := u.poke p (plSideIn d) (toBytes 4 c0)
      let u := u.modTrain p (fun t => { t with state := 3, regionErr := r.1.2.2 })
      let u := match u.cfgFlag p (plStart d) with | some f => u.writeFlag f true | none => u
      .next ((s.ifOpen u).getD s)

/-! ### The verdict (R301, R302, R304, R311) -/

/-- 2^e as an FP32 code. -/
def pow2Code (e : Int) : Nat := fp32.encode (.fin false 1 e)

/-- The loss scale and FINITE_RUN after a verdict, and whether LS_FLOOR is set (R304); FINITE_RUN stays at its limit (R388,
log 59). -/
def nextScale (ctl scale run : Nat) (nonfin : Bool) : Nat × Nat × Bool :=
  let lo := pow2Code (toInt 8 (bits ctl 16 8))
  let hi := pow2Code (toInt 8 (bits ctl 24 8))
  let grow := bits ctl 2 14
  if nonfin then
    if bit ctl 0 = false then (scale, 0, false)
    else if scale = lo then (scale, 0, true)
    else (f32mul scale (pow2Code (-1)), 0, false)
  else if grow ≠ 0 ∧ grow ≤ run + 1 then ((if scale = hi then scale else f32mul scale (pow2Code 1)), 0, false)
  else (scale, min (run + 1) 0xFFFF, false)

/-- A U32 as FP32. -/
def f32OfNat (n : Nat) : Nat := fp32.encode (fOfInt n)
/-- Whether an FP32 code is above zero. -/
def f32pos (a : Nat) : Bool := FVal.lt (.fin false 0 0) (fp32.decode a)

/-- NOISE after a finite verdict (R311): `mb` the rounded norms of slots 1 to MBN, `sb` the large-batch norm. -/
def noiseWord (cfg old : Nat) (mb : List Nat) (sb : Nat) (first : Bool) : Nat :=
  let alpha := bits cfg 0 32
  let bSmall := f32OfNat (bits cfg 32 32)
  let bBig := f32OfNat (bits cfg 64 32)
  let one := pow2Code 0
  let ss := f32div (match mb with | [] => 0 | a :: r => r.foldl f32add a) (f32OfNat (bits cfg 96 32))
  let g2 := f32div (f32sub (f32mul bBig sb) (f32mul bSmall ss)) (f32sub bBig bSmall)
  let trs := f32div (f32sub ss sb) (f32sub (f32div one bSmall) (f32div one bBig))
  let inf := fp32.infCode false
  let bs := if f32pos g2 then f32div trs g2 else inf
  let g0 := bits old 160 32
  let t0 := bits old 192 32
  let g2e := if first then g2 else f32fma alpha (f32sub g2 g0) g0
  let trse := if first then trs else f32fma alpha (f32sub trs t0) t0
  let be := if f32pos g2e then f32div trse g2e else inf
  ss + sb * 2 ^ 32 + g2 * 2 ^ 64 + trs * 2 ^ 96 + bs * 2 ^ 128 + g2e * 2 ^ 160 + trse * 2 ^ 192 + be * 2 ^ 224

/-- Update the noise statistics (R311). -/
def State.noise (s : State) (p : Nat) (t : PlanTot) (first : Bool) : State :=
  let n := vcMbn (s.obj (kVerdictCfg p))
  if n = 0 then s
  else
    let mb := (List.range n).map (fun j => roundTotal ((t.mb[j + 1]?).getD 0) (bit t.mbInf (j + 1)))
    let sb := roundTotal (t.sqn + (t.mb.headD 0)) false
    (s.setObj (kNoise p) (noiseWord (s.obj (kNoiseCfg p)) (s.obj (kNoise p)) mb sb first)).setObj (kNoiseStep p) (s.stepOf p)

/-- What a verdict says (R301): non-finite, clipped, norm, factor. -/
def judge (t : PlanTot) (clip : Nat) : Bool × Bool × Nat × Nat :=
  let one := pow2Code 0
  if t.nonfin ∨ t.sqnInf ∨ bit t.mbInf 0 then (true, false, 0, one)
  else
    let norm := fp32.encode (sqrtDy (t.sqn + t.mb.headD 0) (-149))
    if FVal.lt (fp32.decode clip) (fp32.decode norm) then (false, true, norm, f32div clip norm) else (false, false, norm, one)

/-- A skipped step `n` is rolled back: run-ahead results of it and of later steps are discarded (R187, R302). -/
def State.rollBack (s : State) (p n : Nat) : State := s.dropAhead p (fun _ a => decide (n ≤ a.step))

/-- Write a flag of the configuration if there is one. -/
def State.writeCfgFlag (s : State) (p i : Nat) (v : Bool) : State :=
  match s.cfgFlag p i with
  | some f => s.writeFlag f v
  | none => s

/-- VERDICT (R301, R302, R309, R348): the tail instance has completed; while the partition runs, the verdict is formed,
written, signalled and pushed. -/
def execVerdict (p : Nat) (s : State) : Out1 :=
  if 32 ≤ p then .fault .noSuchUnit
  else
    let c := s.obj (kVerdictCfg p)
    let x := (s.part p).train
    match (s.plan p (vcTail c)).hist with
    | [] => .next s
    | t :: rest =>
      if x.state ≠ 3 ∨ (s.part p).phase ≠ .running then .next s
      else
        let step := s.stepOf p
        let (nonfin, clipped, norm, factor) := judge t (s.obj (kClipNorm p))
        let ls := nextScale (s.obj (kLsCtrl p)) (s.obj (kLossScale p)) x.finiteRun nonfin
        let opt := s.obj (kOptStep p) + (if nonfin then 0 else 1)
        let s := s.modPlan p (vcTail c) (fun y => { y with hist := rest })
        let s := s.setObj (kVerdict p) (vdWord nonfin clipped x.regionErr norm factor ls.1 step opt)
        let s := s.setObj (kLossScale p) ls.1
        let s := s.modTrain p (fun y => { y with
          state := 4, formed := true, nonfin := nonfin, clipped := clipped, finiteRun := ls.2.1,
          lsFloor := y.lsFloor || ls.2.2, nonfinSeen := y.nonfinSeen || nonfin, clipSeen := y.clipSeen || clipped,
          first := y.first && nonfin })
        let s := if nonfin then s.rollBack p step else s.noise p t x.first
        let s := if clipped then s.writeCfgFlag p (vcApply c) false else s
        let s := s.writeCfgFlag p (vcVflag c) (decide ((step + 1) % 2 = 1))
        .next (s.pushTrain p 1 norm step)

/-! ### The close of a step (R297, R306, R307) -/

/-- Tables the engine switches at a committing boundary: table and the base of the new live copy (R307). -/
def State.flipTables (s : State) (p : Nat) : List (Nat × Nat) :=
  (s.specGroups p).flatMap (fun g =>
    let w := s.obj (kGroup p g)
    if grTabled w = false then []
    else
      (if grTable w = 0xFF then [] else [(grTable w, grBase w 0 (1 - grCur w))]) ++
      (if grMtable w = 0xFF then [] else [(grMtable w, grBase w 1 (1 - grCur w))]))

/-- CUR of every speculative group flips (R297). -/
def State.flipGroups (s : State) (p : Nat) : State :=
  (s.specGroups p).foldl (fun s g =>
    let w := s.obj (kGroup p g)
    s.setObj (kGroup p g) (setBits w 2 1 (1 - grCur w))) s

/-- Bytes at a stall address as they stand. -/
def State.seen (s : State) (p a n : Nat) : List Byte :=
  match s.physRange p none a n with
  | some ks => ks.map s.byte
  | none => zeros n

/-- A source entry: stall address and bytes (R312). -/
def State.mirrorEntry (s : State) (p e : Nat) : Nat × Nat :=
  let a := bits e 0 63
  let n := bits e 64 64
  if bit e 63 then
    let g := s.obj (kGroup p (bits a 0 5))
    (grBase g (bits a 5 1) (grCur g) + 32 * bits a 6 57, n)
  else (a, n)

/-- The copy of a group that a source entry with GROUP 1 reads (R307, R312). -/
def State.entryCopy (s : State) (p e : Nat) : Option (Nat × Nat) :=
  if bit e 63 then some (bits e 0 5, grCur (s.obj (kGroup p (bits e 0 5)))) else none

/-- What a mirror that falls due now reads and sends, the live copies as they stand (R313, R314): a header of 4,096 bytes,
whose SLOT is set when the mirror starts, and the data. -/
def State.dueMirror (s : State) (p : Nat) : DueMirror :=
  let m := s.obj (kMirrorCfg p)
  let k := mcCount m
  let list := s.seen p (mcList m) (16 * k)
  let es := (List.range k).map (fun i => field list (16 * i) 16)
  let rs := es.map (fun e => s.mirrorEntry p e)
  let total := (rs.map Prod.snd).sum
  let offs := (List.range k).map (fun i => 4096 + ((rs.take i).map Prod.snd).sum)
  let head := toBytes 4 1 ++ toBytes 1 0 ++ toBytes 1 k ++ zeros 2 ++ toBytes 8 (s.stepOf p) ++
    toBytes 8 (s.obj (kOptStep p)) ++ toBytes 4 (s.obj (kLossScale p)) ++ toBytes 4 (s.device + p * 2 ^ 17) ++
    toBytes 8 total ++ zeros 24 ++
    (List.range k).flatMap (fun i => toBytes 8 ((offs[i]?).getD 0) ++ toBytes 8 (((rs[i]?).getD (0, 0)).2))
  { step := s.stepOf p, srcs := (mcList m, 16 * k) :: rs, copies := es.filterMap (fun e => s.entryCopy p e),
    snap := slice head 0 4096 ++ rs.flatMap (fun r => s.seen p r.1 r.2) }

/-- An unscheduled mirror falls due: merged into one that waits already (R314). -/
def State.dueNow (s : State) (p : Nat) : State :=
  let d := s.dueMirror p
  s.modMirror p (fun m => if m.waitNow.isSome then { m with skipped := true } else { m with waitNow := some d })

/-- What a step boundary does besides the counters: switches, mirrors that fall due, migrations (R200, R218, R297, R314). -/
def State.boundary (s : State) (p : Nat) : State :=
  let s := s.applySwitches p
  let s := s.modPart p (fun x => { x with spilled := [] })
  let s := (List.range 384).foldl (fun s e =>
    match s.rcur e p with
    | some c => if reOp c.desc.bits.toNat = 10 then s.setRcur e p (some { c with bound := true }) else s
    | none => s) s
  let step := s.stepOf p
  let d := s.dueMirror p
  let s := if s.mirrorDue p step then s.modMirror p (fun m => { m with waitSched := m.waitSched ++ [d] }) else s
  if (s.part p).mirror.now then (s.modMirror p (fun m => { m with now := false })).dueNow p else s

/-- STEP_BOUNDARY (R297, R306, R307): with the verdict formed and APPLY_DONE set or none, the step closes; the whole close
waits while a table to be switched still has its former version live. -/
def execStepBoundary (p : Nat) (s : State) : Out1 :=
  if 32 ≤ p then .fault .noSuchUnit
  else
    let c := s.obj (kVerdictCfg p)
    let x := (s.part p).train
    let done := match s.cfgFlag p (vcApply c) with | some f => s.flag f | none => true
    if x.formed = false ∨ done = false ∨ (s.part p).phase ≠ .running then .next s
    else
      let commit := !x.nonfin
      let ts := if commit then s.flipTables p else []
      if ts.any (fun t => s.priorLive p t.1) then .next (s.modTrain p (fun y => { y with state := 5 }))
      else
        let step := s.stepOf p
        let moves := !(x.nonfin && vcSkip c)
        let s := if commit then s.setObj (kOptStep p) ((s.obj (kOptStep p) + 1) % 2 ^ 64) else s.bumpObj (kSkipCount p) 1
        let s := if x.clipped then s.bumpObj (kClipCount p) 1 else s
        let s := if moves then s.setObj (kStep p) ((step + 1) % 2 ^ 64) else s
        let flips := commit && !(s.specGroups p).isEmpty
        let s := ts.foldl (fun s t => s.requestSwitch p t.1 t.2 ((tdVersion (s.obj (kTable p t.1)) + 1) % 2 ^ 16)) s
        let s := if commit then s.flipGroups p else s
        let s := if moves then s.boundary p else s
        let s := s.writeCfgFlag p (vcApply c) false
        let s := if flips then s.writeCfgFlag p (vcAltFree c) false else s
        let s := s.modTrain p (fun y => { y with state := 1, formed := false, nonfin := false, clipped := false,
                                                 regionErr := false })
        .next (s.pushTrain p 2 (bits (s.obj (kVerdict p)) 32 32) step)

/-- Whether a mirror that runs or waits reads copy `c` of group `g` (R307, R314). -/
def Mirror.reads (m : Mirror) (g c : Nat) : Bool :=
  (decide (m.phase ≠ 0) && m.copies.contains (g, c)) || m.waitSched.any (fun d => d.copies.contains (g, c)) ||
    m.waitNow.any (fun d => d.copies.contains (g, c))

/-- ALT_FREE_SET (R307): the alternate copies of every speculative group are free, and the engine says so. -/
def execAltFreeSet (p : Nat) (s : State) : Out1 :=
  if 32 ≤ p then .fault .noSuchUnit
  else
    let c := s.obj (kVerdictCfg p)
    match s.cfgFlag p (vcAltFree c) with
    | none => .next s
    | some f =>
      let ts := s.flipTables p
      if vcEnable c = false ∨ s.flag f ∨ (s.part p).phase ≠ .running ∨ (s.specGroups p).isEmpty ∨
         ts.any (fun t => s.priorLive p t.1) ∨
         (s.specGroups p).any (fun g => (s.part p).mirror.reads g (1 - grCur (s.obj (kGroup p g)))) then .next s
      else .next (s.writeFlag f true)

/-! ### The buddy mirror (R312-R316) -/

/-- Send bytes to a place in the mirror's slot as WRITE transfers of up to 2³⁰ bytes; none while tags are missing. -/
def State.mirrorSend (s : State) (p slot off : Nat) (bs : List Byte) : Option State :=
  let m := s.obj (kMirrorCfg p)
  let n := ceilDiv bs.length (2 ^ 30)
  if s.routable (mcDev m) = false then some (s.modMirror p (fun x => { x with fail := true }))
  else
    (List.range n).foldlM (fun (s : State) i =>
      match s.freeTag with
      | none => none
      | some t =>
        let ps := s.writePackets p (mcDev m) (mcPart m) (mcRegion m + slot * mcBytes m + off + 2 ^ 30 * i)
          ((bs.drop (2 ^ 30 * i)).take (2 ^ 30))
        let s := (s.holdTag t p (.mirror p)).modMirror p (fun x => { x with tags := x.tags ++ [t] })
        some (ps.foldl (fun s k => s.emit (withTag t k)) s)) s

/-- The mirror that starts next: a scheduled one first. -/
def Mirror.nextDue (m : Mirror) : Option DueMirror :=
  match m.waitSched with
  | d :: _ => some d
  | [] => m.waitNow

/-- Zero the target slot's COMMIT (R314 2). -/
def State.mirrorZero (s : State) (p : Nat) : Option State :=
  let m := (s.part p).mirror
  (s.modMirror p (fun x => { x with phase := 1, fail := false })).mirrorSend p m.slot (mcBytes (s.obj (kMirrorCfg p)) - 32)
    (zeros 32)

/-- MIRROR_START (R314 1-3): a mirror that is due takes its slot, reads its sources as they stood at its boundary and zeroes
COMMIT; once that is acknowledged, the header and the data are written. -/
def execMirrorStart (p : Nat) (s : State) : Out1 :=
  if 32 ≤ p then .fault .noSuchUnit
  else
    let m := (s.part p).mirror
    let out : Option State → Out1 := fun r => match r with | some t => .next t | none => .next s
    if m.phase = 1 then
      if m.tags ≠ [] ∨ m.fail then .next s
      else out ((s.modMirror p (fun x => { x with phase := 2 })).mirrorSend p m.slot 0 m.snap)
    else if m.phase ≠ 0 then .next s
    else match m.nextDue with
      | none => .next s
      | some d =>
        let sched := !m.waitSched.isEmpty
        let slot := if sched then (if m.slotOk then 1 - m.lastSlot else 0) else 2
        let u := d.srcs.foldl (fun s r => (s.peek p r.1 r.2).2) s
        out (((u.modMirror p (fun x => { x with
          slot := slot, sched := sched, step := d.step, copies := d.copies, snap := splice d.snap 4 (toBytes 1 slot),
          waitSched := x.waitSched.drop 1, waitNow := if sched then x.waitNow else none })).mirrorZero p).bind s.ifOpen)

/-- COMMIT of a snapshot (R313). -/
def commitBytes (step : Nat) (snap : List Byte) : List Byte :=
  slice (toBytes 8 step ++ toBytes 4 1 ++ toBytes 4 (crc32c snap)) 0 32

/-- MIRROR_COMMIT (R314 4, R316): when every data write is acknowledged COMMIT is written, and when that is acknowledged
the mirror is committed and TEV 0x3 pushed. -/
def execMirrorCommit (p : Nat) (s : State) : Out1 :=
  if 32 ≤ p then .fault .noSuchUnit
  else
    let m := (s.part p).mirror
    if m.tags ≠ [] ∨ m.fail then .next s
    else if m.phase = 2 then
      match (s.modMirror p (fun x => { x with phase := 3 })).mirrorSend p m.slot (mcBytes (s.obj (kMirrorCfg p)) - 32)
          (commitBytes m.step m.snap) with
      | some t => .next t
      | none => .next s
    else if m.phase = 3 then
      let s := s.modMirror p (fun x =>
        let y := { x with phase := 0, snap := [], copies := [] }
        if m.sched then { y with lastSlot := m.slot, slotOk := true } else { y with extra := true })
      let s := s.setObj (if m.sched then kMirrorStep p else kMirrorExtra p) m.step
      .next (s.pushTrain p 3 m.slot m.step)
    else .next s

/-- MIRROR_FAILED (R314, R322): a refusal, an error or a timeout was met; TEV 0x4 is pushed and the mirror starts again with
the same snapshot. -/
def execMirrorFailed (p : Nat) (s : State) : Out1 :=
  if 32 ≤ p then .fault .noSuchUnit
  else
    let m := (s.part p).mirror
    if m.phase = 0 ∨ m.fail = false ∨ m.tags ≠ [] then .next s
    else
      let s' := s.modMirror p (fun x => { x with failed := true })
      let s' := s'.reportError p 0x0A06 noStall 0 ((s.shedsOf p).headD 0) (mcRegion (s.obj (kMirrorCfg p))) 0 0
      match (s'.pushTrain p 4 m.slot m.step).mirrorZero p with
      | some t => .next t
      | none => .next s

end Sys2Proof.Machine
end

