-- ==== Sys2Proof/Machine/Partition.lean ====
section
/-!
DEFINITION. What sets a partition up and brings it to a stop: frames and granules, sheds, ring counts, the readiness of a
start, and the end of a stop (R23, R237-R241, R343, R346, R347).
-/

namespace Sys2Proof.Machine

/-! ### Frames and granules (R237-R241) -/

/-- Frames of a yard. -/
def yardFrames : Nat := 715

/-- The frame a new granule takes in yard `y`: the lowest that is free, else the lowest that is being cleared and that no
partition has taken (R240). -/
def State.pickFrame (s : State) (y : Nat) : Option Nat :=
  match (List.range yardFrames).find? (fun f => decide (s.frame y f = frameFree)) with
  | some f => some f
  | none => (List.range yardFrames).find? (fun f => decide ((s.frame y f).taken = none))

/-- Take one frame in each of the yards `ys` for partition `p`. -/
def takeFrames (p : Nat) : List Nat → State → Option (List (Nat × Nat) × State)
  | [], s => some ([], s)
  | y :: ys, s =>
    match s.pickFrame y with
    | none => none
    | some f =>
      (takeFrames p ys (s.setFrame y f { s.frame y f with taken := some p })).map (fun r => ((y, f) :: r.1, r.2))

/-- The yards of the quarters of a granule: four frames of one yard, or one in each (R237). -/
def quarterYards (near : Option Nat) : List Nat :=
  match near with
  | some y => [y, y, y, y]
  | none => [0, 1, 2, 3]

/-- Take `n` granules. -/
def takeGranules (p : Nat) (near : Option Nat) : Nat → State → Option (List Granule × State)
  | 0, s => some ([], s)
  | n + 1, s =>
    match takeFrames p (quarterYards near) s with
    | none => none
    | some r => (takeGranules p near n r.2).map (fun q => ({ near := near, frames := r.1 } :: q.1, q.2))

/-- Release granules: their frames are written with zeros before they are free again (R240). -/
def State.releaseGranules (s : State) (gs : List Granule) : State :=
  gs.foldl (fun s g => g.frames.foldl (fun s f => s.setFrame f.1 f.2 { taken := none, clearing := true }) s) s

/-- The groups of addressable granules in their order (R239): near granules of each yard, wide granules. -/
def granGroups : List (Option Nat) := [some 0, some 1, some 2, some 3, none]

/-- Granules of a group that HBM_LAYOUT `v` asks for (R238). -/
def layCount (v : Nat) (near : Option Nat) : Nat :=
  match near with
  | some y => if bit v 0 then 0 else bits v (8 + 8 * y) 8
  | none => if bit v 0 then bits v 40 10 else 0

/-- Whether HBM_LAYOUT holds a count beyond its range, or a count of the other MODE (R238). -/
def layBad (v : Nat) : Bool :=
  (List.range 4).any (fun y => decide (178 < bits v (8 + 8 * y) 8)) || decide (715 < bits v 40 10) ||
  (if bit v 0 then (List.range 4).any (fun y => decide (bits v (8 + 8 * y) 8 ≠ 0)) else decide (bits v 40 10 ≠ 0))

/-- The addressable granules after a write of HBM_LAYOUT (R239): kept, released from the end of a group, appended to it;
none when frames are missing (R237). -/
def State.regroup (s : State) (p v : Nat) : Option State :=
  let gs := granGroups.map (fun n => (n, (s.part p).grans.filter (fun g => decide (g.near = n))))
  let s := gs.foldl (fun s e => s.releaseGranules (e.2.drop (layCount v e.1))) s
  (gs.foldlM (fun (acc : List Granule × State) e =>
    (takeGranules p e.1 (layCount v e.1 - e.2.length) acc.2).map
      (fun r => (acc.1 ++ e.2.take (layCount v e.1) ++ r.1, r.2))) ([], s)).map
    (fun r => r.2.modPart p (fun x => { x with grans := r.1 }))

/-- The yard that holds most of a partition's sheds, the lowest on a tie (R238). -/
def mostYard (sheds : BitVec 32) : Nat :=
  let n : Nat → Nat := fun y => ((List.range 8).filter (fun i => sheds.getLsbD (8 * y + i))).length
  [1, 2, 3].foldl (fun b y => if n b < n y then y else b) 0

/-- Where the staging granules of a partition with sheds `sheds` lie: in the yard with most of them, or wide (R238). -/
def stageHome (sheds : BitVec 32) (wide : Bool) : Option Nat := if wide then none else some (mostYard sheds)

/-- Staging granules that lie elsewhere, or beyond the first `n`, are released (R184, R238, R240). -/
def State.trimStage (s : State) (p n : Nat) (home : Option Nat) : State :=
  let old := (s.part p).stage
  let keep := (old.filter (fun g => decide (g.near = home))).take n
  (s.releaseGranules (old.filter (fun g => !(keep.contains g)))).modPart p (fun x => { x with stage := keep })

/-- The staging granules become `n` granules at their home (R184, R238); none when frames are missing (R237). -/
def State.restage (s : State) (p n : Nat) (wide : Bool) : Option State :=
  let home := stageHome (s.part p).sheds wide
  let s := s.trimStage p n home
  let keep := (s.part p).stage
  (takeGranules p home (n - keep.length) s).map (fun r => r.2.modPart p (fun x => { x with stage := keep ++ r.1 }))

/-- HBM_LAYOUT takes effect (R239, R240), the staging granules of another MODE being released first; none when R237 would
break. -/
def State.setLayout (s : State) (p v : Nat) : Option State :=
  match (s.trimStage p (s.obj (kRaGranules p)) (stageHome (s.part p).sheds (bit v 0))).regroup p v with
  | none => none
  | some t => (t.restage p (s.obj (kRaGranules p)) (bit v 0)).map (fun t => t.setObj (kHbmLayout p) v)

/-- RA_GRANULES takes effect (R184, R240). -/
def State.setStaging (s : State) (p n : Nat) : Option State :=
  (s.restage p n (bit (s.obj (kHbmLayout p)) 0)).map (fun t => t.setObj (kRaGranules p) n)

/-- Bytes of partition p's HBM that offsets name (R125, R239). -/
def State.hbmBytes (s : State) (p : Nat) : Nat := (s.part p).grans.length * 2 ^ 30

/-! ### Sheds and rings (R346) -/

/-- Whether another partition holds one of the sheds `v` (RESOURCES). -/
def State.shedsTaken (s : State) (p v : Nat) : Bool :=
  (List.range 32).any (fun k => bit v k && (match s.owner k with | some q => decide (q ≠ p) | none => false))

/-- A write of SHEDS (R346): the partition is stopped with those sheds, or free, and its staging granules lie where they now
belong (R238); none when frames for them are missing (R237). -/
def State.setSheds (s : State) (p v : Nat) : Option State :=
  let s := s.modPart p (fun x => { x with sheds := BitVec.ofNat 32 v, phase := if v = 0 then .free else .stopped })
  s.restage p (s.part p).stage.length (bit (s.obj (kHbmLayout p)) 0)

/-- A write of SQ_BASE or SQ_SIZE resets the counts of the submission ring (R346); an entry that is held belongs to no
position of the new ring. -/
def State.resetSq (s : State) (p : Nat) : State :=
  s.modPart p (fun x => { x with rings := { x.rings with sqTail := 0, sqHead := 0, fetched := 0 } })

/-- A write of CQ_BASE or CQ_SIZE resets the counts of the completion ring (R346). -/
def State.resetCq (s : State) (p : Nat) : State :=
  s.modPart p (fun x => { x with rings := { x.rings with cqTail := 0, cqHead := 0 } })

/-! ### START and STOP (R347) -/

/-- Whether a start is not yet allowed (R240, R252, R343, R378). -/
def State.notReady (s : State) (p : Nat) : Bool :=
  let x := s.part p
  let fs := (x.grans ++ x.stage).flatMap Granule.frames
  x.rings.pendState.isSome || decide (s.season.shedFailed &&& x.sheds ≠ 0) ||
  fs.any (fun f => (s.frame f.1 f.2).clearing ||
    (List.range 3).any (fun j => decide ((s.hbm (3 * f.1 + j)).phase = .failed)))

/-- A device completion, without PHASE (R343). -/
def completion (cid status result : Nat) : BitVec 128 :=
  BitVec.ofNat 128 (cid % 2 ^ 16 + (status % 2 ^ 16) * 2 ^ 16 + (result % 2 ^ 64) * 2 ^ 64)

def State.modRings (s : State) (p : Nat) (f : Rings → Rings) : State := s.modPart p (fun x => { x with rings := f x.rings })

/-- STOP (R347): held while the partition loads, taken while it runs, otherwise without effect. -/
def State.requestStop (s : State) (p : Nat) : State :=
  match (s.part p).phase with
  | .loading => s.modPart p (fun x => { x with stopReq := true })
  | .running => (s.modPart p (fun x => { x with stopReq := true })).beginStop p false
  | _ => s

/-- Whether stall `t` has nothing outstanding. -/
def Stall.settled (x : Stall) : Bool := x.acc.isEmpty && x.ctl.isEmpty && x.waits.isEmpty

/-- Whether every command, descriptor and access that partition p issued has completed (R65, R347); collectives and
mirrors do not count. -/
def State.issuedDone (s : State) (p : Nat) : Bool :=
  (s.shedsOf p).all (fun k =>
    let x := s.shed k
    (List.range 32).all (fun i => (s.stall (32 * k + i)).settled) &&
    x.mxa.queue.isEmpty && x.mxa.load.isNone && x.mxa.stream.isNone && x.mxa.drain.isNone && x.mxa.ctrl.isNone &&
    x.dma.queue.isEmpty && x.dma.cur.isNone && x.sampler.queue.isEmpty && x.sampler.cur.isNone) &&
  s.engines.all (fun e => (FMap.get (fun _ => []) e.2.queues p).isEmpty && (FMap.get (fun _ => none) e.2.cur p).isNone) &&
  s.mesh.all (fun m => !(decide (m.part = p ∧ m.dev = none))) &&
  s.fabric.tags.all (fun t => !(decide (t.part = p)) || (match t.use with | .mirror _ => true | _ => false))

/-- What falls due once partition p is stopped: pending table switches and an unscheduled mirror (R200, R314). -/
def State.onStopped (s : State) (p : Nat) : State :=
  let s := s.applySwitches p
  if (s.part p).mirror.now then (s.modMirror p (fun m => { m with now := false })).dueNow p else s

/-- PARTITION_STOPPED (R65, R347): issued work has completed; STATE 1 and a completion STOPPED or HALTED. -/
def execPartitionStopped (p : Nat) (s : State) : Out1 :=
  if 32 ≤ p then .fault .noSuchUnit
  else if (s.part p).phase ≠ .stopping ∨ s.issuedDone p = false then .next s
  else
    let c := completion 0 (if (s.part p).halting then 0x8003 else 0x8004) (s.stepOf p)
    .next ((s.modPart p (fun x => { x with
      phase := .stopped, halting := false, stopReq := false,
      rings := { x.rings with pendState := some c } })).onStopped p)

end Sys2Proof.Machine
end

