-- ==== Sys2Proof/Machine/Sampler.lean ====
section
/-!
DEFINITION. The neighbourhood sampler: SAMPLE and SCORE descriptors, draws, score transforms, outputs, run-ahead and
adoption (R162-R192).

A foreground descriptor reads, draws and writes its outputs when it starts; its completion is performed when it completes.
-/

namespace Sys2Proof.Machine

/-! ### Fields (R167, R178) -/

def saMode (d : Nat) : Nat := bits d 10 2
def saHops (d : Nat) : Nat := bits d 12 2 + 1
def saCoef (d : Nat) : Nat := bits d 14 2
def saSelf (d : Nat) : Bool := bit d 16
def saTprop (d : Nat) : Bool := bit d 17
def saRa (d : Nat) : Bool := bit d 18
def saPrefetch (d : Nat) : Bool := bit d 19
def saSfmt (d : Nat) : Nat := bits d 20 2
/-- Fanout of hop `h`, 1 to 4. -/
def saFan (d h : Nat) : Nat := bits d (32 + 10 * (h - 1)) 10 + 1
def saGraph (d : Nat) : Nat := bits d 72 8
def saSeedT (d : Nat) : Nat := bits d 80 8
def saFeat (d : Nat) : Nat := bits d 88 8
def saScoreT (d : Nat) : Nat := bits d 96 8
def saStep (d : Nat) : Nat := bits d 128 64
def saSeed (d : Nat) : Nat := bits d 256 64
def saBatch (d : Nat) : Nat := bits d 320 16 + 1
def saDelta (d : Nat) : Nat := bits d 352 32
def saOutU (d : Nat) : Nat := bits d 384 64
def saOutT (d : Nat) : Nat := bits d 448 64
def saOutH (d : Nat) : Nat := bits d 512 64
def saCapU (d : Nat) : Nat := bits d 576 32
def saCapT (d : Nat) : Nat := bits d 608 32
def saCapH (d : Nat) : Nat := bits d 640 32
def saOutTime (d : Nat) : Nat := bits d 704 64
def saBase (d : Nat) : Nat := bits d 768 64
def saTemp (d : Nat) : Nat := bits d 832 32
def saTopp (d : Nat) : Nat := bits d 864 32
def saTopk (d : Nat) : Nat := bits d 896 19
-- SCORE
def scSfmt (d : Nat) : Nat := bits d 10 2
def scProb (d : Nat) : Bool := bit d 12
def scLen (d : Nat) : Nat := bits d 32 18 + 1
def scRows (d : Nat) : Nat := bits d 64 16 + 1
def scDraws (d : Nat) : Nat := bits d 80 10 + 1
def scTopk (d : Nat) : Nat := bits d 96 32
def scTemp (d : Nat) : Nat := bits d 128 32
def scTopp (d : Nat) : Nat := bits d 160 32
def scSeed (d : Nat) : Nat := bits d 256 64
def scStep (d : Nat) : Nat := bits d 320 64
def scScores (d : Nat) : Nat := bits d 384 64
def scPitch (d : Nat) : Nat := bits d 448 32
def scRowBase (d : Nat) : Nat := bits d 480 32
def scOutIdx (d : Nat) : Nat := bits d 512 64
def scOutProb (d : Nat) : Nat := bits d 576 64

/-- Bytes of a score (R167 SFMT). -/
def scoreSize (f : Nat) : Nat := if f = 0 then 4 else 2

/-! ### Issue checks (R192; their order is log 15) -/

/-- Whether a descriptor breaks E_FIELD; `n` is its length in 32-byte units. -/
def saBadField (d n : Nat) : Bool :=
  match bits d 0 8 with
  | 1 =>
    decide (n ≠ 4 ∨ dCmpl d = 3 ∨ saSfmt d = 3 ∨ bits d 22 10 ≠ 0 ∨ bits d 104 24 ≠ 0 ∨ bits d 240 16 ≠ 0 ∨
            bits d 336 16 ≠ 0 ∨ bits d 672 32 ≠ 0 ∨ bits d 915 109 ≠ 0) ||
    (List.range 4).any (fun i => decide (saHops d ≤ i ∧ saFan d (i + 1) ≠ 1)) ||
    decide (saCoef d = 3 ∧ saMode d ≠ 3) || (decide (dCmpl d = 2) && !(inLoft (saOutT d)))
  | 2 =>
    decide (n ≠ 3 ∨ dCmpl d = 3 ∨ scSfmt d = 3 ∨ bits d 13 19 ≠ 0 ∨ bits d 50 14 ≠ 0 ∨ bits d 90 6 ≠ 0 ∨
            bits d 240 16 ≠ 0 ∨ bits d 640 128 ≠ 0) ||
    (decide (dCmpl d = 2) && !(inLoft (scOutIdx d)))
  | _ => true

/-- Whether an address or pitch is no multiple of 32 (E_ALIGN). -/
def saBadAlign (d : Nat) : Bool :=
  (match bits d 0 8 with
   | 1 => [saOutU d, saOutT d, saOutH d] ++ (if saMode d = 2 then [saOutTime d] else [])
   | _ => [scScores d, scPitch d, scOutIdx d] ++ (if scProb d then [scOutProb d] else [])).any
    (fun a => decide (a % 32 ≠ 0)) ||
  (decide (bits d 0 8 = 2) && decide (scPitch d < scLen d * scoreSize (scSfmt d)))

/-- The output regions of a descriptor (R167, R178). -/
def saOutputs (d : Nat) : List (Nat × Nat) :=
  match bits d 0 8 with
  | 1 => [(saOutU d, 8 * saCapU d), (saOutT d, 32 * saCapT d), (saOutH d, 16 * saCapH d)] ++
         (if saMode d = 2 then [(saOutTime d, 4 * saCapU d)] else [])
  | _ => [(scOutIdx d, 4 * scRows d * scDraws d)] ++ (if scProb d then [(scOutProb d, 4 * scRows d * scDraws d)] else [])

/-- Whether an output or score region leaves the partition, or an output of a SAMPLE its lofts and HBM (E_BOUNDS, R167). -/
def State.saBadBounds (s : State) (p d : Nat) : Bool :=
  (saOutputs d).any (fun r => !(s.mapped p none r.1 r.2) || (decide (bits d 0 8 = 1) && !(inLoft r.1 || inHbm r.1))) ||
  (decide (bits d 0 8 = 2) &&
    !(s.mapped p none (scScores d) ((scRows d - 1) * scPitch d + scLen d * scoreSize (scSfmt d))))

/-- The first issue check that fails; 0 for none. -/
def State.saCheck (s : State) (p d n : Nat) : Nat :=
  if saBadField d n then 0x0601
  else if saBadAlign d then 0x0603
  else if s.saBadBounds p d then 0x0604
  else if s.badTarget p d then 0x0609
  else 0

def State.sampler (s : State) (k : Nat) : Sampler := (s.shed k).sampler
def State.modSampler (s : State) (k : Nat) (f : Sampler → Sampler) : State :=
  s.modShed k (fun x => { x with sampler := f x.sampler })

/-- A descriptor of sampler `k` fails (R192). -/
def State.saFail (s : State) (k : Nat) (d : Desc) (code : Nat) : State :=
  (s.modSampler k (fun x => { x with errCode := code, errStall := d.stall })).failDesc d code 5 k 0 0

/-- A descriptor reaches its sampler: failed at issue, or one of 16 queued (R167, R190, R192). -/
def saArrive (ok : Nat → Bool) (k : Nat) (s : State) : Out1 :=
  arrive k (fun m => decide (m.op = .ucmd ∧ m.kind = 5) && ok (bits m.data.toNat 0 8))
    (fun s m => decide (16 ≤ (s.sampler m.idx).queue.length))
    (fun s m =>
      let c := s.saCheck m.part m.data.toNat m.n
      if c ≠ 0 then s.saFail m.idx m.desc c
      else (s.modSampler m.idx (fun x => { x with queue := x.queue ++ [m.desc] })).touch m.idx) s

/-- SAMPLE arrives (R167); a reserved OP fails with E_FIELD. -/
def execSample (k : Nat) (s : State) : Out1 := saArrive (fun op => decide (op ≠ 2)) k s
/-- SCORE arrives (R178). -/
def execScore (k : Nat) (s : State) : Out1 := saArrive (fun op => decide (op = 2)) k s

/-! ### Draws (R173, R174) -/

/-- The block of draw `j` of vertex `v` at hop h, `h1` = h − 1 (R173). -/
def drawBlock (seed step v h1 purpose j : Nat) : List Nat :=
  let k1 := bits seed 32 32 ^^^ bits step 48 16
  let c2 := bits v 32 8 + (h1 % 4) * 2 ^ 8 + (purpose % 8) * 2 ^ 10 + bits step 32 16 * 2 ^ 16
  philox (bits seed 0 32 + k1 * 2 ^ 32) (j % 2 ^ 32 + bits v 0 32 * 2 ^ 32 + c2 * 2 ^ 64 + bits step 0 32 * 2 ^ 96)

/-- u64 of a block. -/
def u64Of (b : List Nat) : Nat := (b.getD 1 0) * 2 ^ 32 + b.getD 0 0
/-- ⌊u64 × n ÷ 2^64⌋. -/
def mulhi64 (u n : Nat) : Nat := u * n / 2 ^ 64
/-- u24 as a value. -/
def u24Of (b : List Nat) : FVal := .fin false (b.getD 0 0 / 2 ^ 8) (-24)

/-- Floyd's method: `f` of the positions [0, d), in the order chosen (R174). -/
def floyd (blk : Nat → List Nat) (d f : Nat) : List Nat :=
  if d ≤ f then List.range d
  else (List.range f).foldl (fun acc j =>
    let i := d - f + j
    let r := mulhi64 (u64Of (blk j)) (i + 1)
    acc ++ [if acc.contains r then i else r]) []

/-! ### Score rows (R177) -/

/-- OP of a first-NaN event of a score (R61, R177). -/
def opScore : Nat := 0x0B

/-- What draws are made from: nothing; one entry; candidates of equal chance; or entries with cumulative sums. -/
inductive Dist where
  | nothing
  | one (i : Nat)
  | even (is : List Nat)
  | cum (es : List (Nat × Nat × Nat)) (top : Nat)   -- index, e, c; and S'
  deriving DecidableEq, Repr

/-- A score widened to FP32 (R167 SFMT). -/
def widen (f code : Nat) : Nat :=
  match f with
  | 0 => fp32.encode (fp32.decode code)
  | 1 => fp32.encode (bf16.decode code)
  | _ => fp32.encode (fp16.decode code)

/-- Cumulative FP32 sums in order. -/
def cumSums (es : List (Nat × Nat)) : List (Nat × Nat × Nat) :=
  (es.foldl (fun (acc : List (Nat × Nat × Nat)) e =>
    match acc with
    | [] => [(e.1, e.2, e.2)]
    | a :: _ => (e.1, e.2, f32add a.2.2 e.2) :: acc) []).reverse

/-- The prefix of a list up to and with the first element that satisfies `p`; all of it when none does. -/
def prefixTo {α : Type} (p : α → Bool) : List α → List α
  | [] => []
  | x :: xs => if p x then [x] else x :: prefixTo p xs

/-- The transform of a row of widened scores (R177 steps 1 to 7). -/
def scoreDist (xs : List Nat) (temp topp topk : Nat) : Dist :=
  let ix := (List.range xs.length).filterMap (fun i =>
    let x := (xs[i]?).getD 0
    match fp32.decode x with
    | .nan => none
    | .inf true => none
    | _ => some (i, x))
  let gt : Nat × Nat → Nat × Nat → Bool := fun a b => (fp32.decode b.2).lt (fp32.decode a.2)
  if ix = [] then .nothing
  else if (fp32.decode temp).isZero then
    match sortBy (fun a b => !(gt b a)) ix with
    | a :: _ => .one a.1
    | [] => .nothing
  else
    let ys := (ix.map (fun e => (e.1, f32div e.2 temp))).filter (fun e => fp32.decode e.2 != .inf true)
    let infs := (ys.filter (fun e => fp32.decode e.2 == .inf false)).map Prod.fst
    if ys = [] then .nothing
    else if infs ≠ [] then .even (if topk = 0 then infs else infs.take topk)
    else
      let sorted := sortBy (fun a b => !(gt b a)) ys
      let kept := if topk = 0 then sorted else sorted.take topk
      let m := (kept.headD (0, 0)).2
      let cs := cumSums (kept.map (fun e => (e.1, fExpD fp32 (fp32.decode e.2) (fp32.decode m))))
      let S := (cs.getLastD (0, 0, 0)).2.2
      let cs := if (fp32.decode topp).lt (.fin false 1 0) then
          prefixTo (fun e => !((fp32.decode e.2.2).lt (fp32.decode (f32mul topp S)))) cs
        else cs
      .cum cs (cs.getLastD (0, 0, 0)).2.2

/-- A draw from a transformed row: index and probability (R177 steps 2, 4, 8). -/
def Dist.draw (x : Dist) (b : List Nat) : Option (Nat × Nat) :=
  match x with
  | .nothing => none
  | .one i => some (i, fp32.encode (.fin false 1 0))
  | .even is =>
    let k := (b.getD 0 0 / 2 ^ 8) * is.length / 2 ^ 24
    some (is.getD k 0, f32div (fp32.encode (.fin false 1 0)) (fp32.encode (fOfInt is.length)))
  | .cum es top =>
    let lim := fp32.decode (fp32.encode ((u24Of b).mul (fp32.decode top)))
    let e := match es.find? (fun e => lim.lt (fp32.decode e.2.2)) with
      | some e => e
      | none => es.getLastD (0, 0, 0)
    some (e.1, f32div e.2.1 top)

/-- Positions of NaN scores in a row (R177 step 1). -/
def nanScores (xs : List Nat) : List Nat := (List.range xs.length).filter (fun i => f32nan ((xs[i]?).getD 0))

/-- Whether TEMP, TOPP or TOPK of a score transform is wrong (E_SCORE, R192). -/
def badScore (temp topp topk lim : Nat) : Bool :=
  let t := fp32.decode temp
  let q := fp32.decode topp
  !(t.isFin) || (t.neg && !(t.isZero)) || q.isNaN || !((FVal.fin false 0 0).lt q) || (FVal.fin false 1 0).lt q ||
  decide (lim < topk)

/-! ### The graph (R162-R166) -/

/-- A graph header with its home map. -/
structure Graph where
  offsets : Nat
  sources : Nat
  weights : Nat
  times   : Nat
  alias_  : Nat
  lo      : Nat
  count   : Nat
  edges   : Nat
  homes   : List Home
  deriving DecidableEq, Repr

/-- Codes of failures on reading (R192). -/
def eGraph : Nat := 0x0606
def eBoundsS : Nat := 0x0604

/-- Read and check the graph header (R162, R163, R165). -/
def rdGraph (p : Nat) (mode : Reading) (base : Nat) : UM Graph := do
  let b ← rd p mode eBoundsS base 96
  let hs ← rdHomes p mode eBoundsS eGraph (field b 64 8) (field b 72 4)
  let g : Graph := { offsets := field b 0 8, sources := field b 8 8, weights := field b 16 8, times := field b 24 8,
                     alias_ := field b 32 8, lo := field b 40 5, count := field b 48 8, edges := field b 56 8, homes := hs }
  let e ← rdNum p mode eBoundsS (g.offsets + 8 * g.count) 8
  if e ≠ g.edges then throw eGraph
  pure g

/-- The segment of a vertex: its first edge and its degree; none outside the table (R163, R172). -/
def rdSegment (p : Nat) (mode : Reading) (g : Graph) (v : Nat) : UM (Option (Nat × Nat)) := do
  if v < g.lo ∨ g.lo + g.count ≤ v then pure none
  else
    let a ← rdNum p mode eBoundsS (g.offsets + 8 * (v - g.lo)) 8
    let b ← rdNum p mode eBoundsS (g.offsets + 8 * (v - g.lo + 1)) 8
    if b < a ∨ g.edges < b then throw eGraph
    pure (some (a, b - a))

/-- The source of edge `e` (R162, R163). -/
def rdSource (p : Nat) (mode : Reading) (g : Graph) (e : Nat) : UM Nat := do
  let v ← rdNum p mode eBoundsS (g.sources + 5 * e) 5
  if v = 2 ^ 40 - 1 then throw eGraph
  pure v

/-- A chosen position with its probability code, 0 outside MODE 3. -/
abbrev Pick := Nat × Nat

/-- What the expansion of an entry gives: its picks in draw order, status bits, and NaN score positions. -/
structure Drawn where
  picks  : List Pick
  status : Nat
  nans   : List Nat
  deriving DecidableEq, Repr

/-- The draws of vertex `v` with reference time `tm` at hop `h` (R174-R177); `off` and `dg` are its segment and `scb` the
base of the edge scores. -/
def drawEdges (p : Nat) (mode : Reading) (d : Nat) (g : Graph) (scb v tm h off dg : Nat) : UM Drawn := do
  let f := saFan d h
  let blk := drawBlock (saSeed d) (saStep d) v (h - 1) 0
  match saMode d with
  | 0 => pure { picks := (floyd blk dg f).map (fun i => (i, 0)), status := 0, nans := [] }
  | 1 =>
    if dg = 0 then pure { picks := [], status := 0, nans := [] }
    else
      let ps ← (List.range f).mapM (fun j => do
        let b := blk j
        let col := mulhi64 (u64Of b) dg
        let e ← rdNum p mode eBoundsS (g.alias_ + 8 * (off + col)) 8
        let al := bits e 0 32
        let th := bits e 32 32
        if dg ≤ al then throw eGraph
        pure (if b.getD 2 0 < th ∨ th = 0xFFFFFFFF then col else al))
      pure { picks := ps.map (fun i => (i, 0)), status := 0, nans := [] }
  | 2 =>
    let bs ← rd p mode eBoundsS (g.times + 4 * off) (4 * dg)
    let ts := (List.range dg).map (fun i => field bs (4 * i) 4)
    if notSorted ts then throw 0x0607
    let lo := (ts.filter (fun t => decide (t < tm - saDelta d))).length
    let hi := (ts.filter (fun t => decide (t < tm))).length
    pure { picks := (floyd blk (hi - lo) f).map (fun i => (lo + i, 0)), status := 0, nans := [] }
  | _ =>
    let dd := min dg 262144
    let z := scoreSize (saSfmt d)
    let bs ← rd p mode eBoundsS (scb + z * off) (z * dd)
    let xs := (List.range dd).map (fun i => widen (saSfmt d) (field bs (z * i) z))
    let dist := scoreDist xs (saTemp d) (saTopp d) (saTopk d)
    let ns := nanScores xs
    pure { picks := (List.range f).filterMap (fun j => dist.draw (blk j)),
           status := (if dd < dg then 2 else 0) + (if ns = [] then 0 else 4), nans := ns }
where
  /-- Whether timestamps fall somewhere. -/
  notSorted : List Nat → Bool
    | [] => false
    | [_] => false
    | x :: y :: r => decide (y < x) || notSorted (y :: r)

/-! ### Building the neighbourhood (R170, R171) -/

/-- A frontier entry as one number: identifier, then reference time. -/
def frKey (v tm : Nat) : Nat := v * 2 ^ 32 + tm
def frVid (e : Nat) : Nat := e / 2 ^ 32
def frTime (e : Nat) : Nat := e % 2 ^ 32

/-- One expanded entry: the entry, its picks' sources in draw order with position and the term of each. -/
structure Expand where
  entry : Nat
  picks : List (Nat × Nat × Nat)     -- source entry, position, weight or probability code
  deriving DecidableEq, Repr

/-- Expand one frontier entry at hop `h` (R170). -/
def expandEntry (p : Nat) (mode : Reading) (d : Nat) (g : Graph) (scb h e : Nat) : UM (Expand × Nat × List Nat) := do
  match ← rdSegment p mode g (frVid e) with
  | none => pure ({ entry := e, picks := [] }, 1, [])
  | some (off, dg) =>
    let r ← drawEdges p mode d g scb (frVid e) (frTime e) h off dg
    let ps ← r.picks.mapM (fun k => do
      let v ← rdSource p mode g (off + k.1)
      let tm ← (if saMode d = 2 then
          (if saTprop d then rdNum p mode eBoundsS (g.times + 4 * (off + k.1)) 4 else pure (frTime e))
        else pure 0)
      let term ← (if saCoef d = 2 then do
          let w ← rdNum p mode eBoundsS (g.weights + 2 * (off + k.1)) 2
          pure (widen 2 w)
        else pure k.2)
      pure (frKey v tm, k.1, term))
    pure ({ entry := e, picks := ps }, r.status, r.nans)

/-- Sort and deduplicate entries. -/
def sortUniq (xs : List Nat) : List Nat := dedup (sortBy (fun a b => decide (a ≤ b)) xs)

/-- FP32 1.0. -/
def f32one : Nat := 0x3F800000

/-- The coefficient of the pair with source entry `src` (R171); `self` adds 1.0. -/
def coefOf (d : Nat) (x : Expand) (src : Nat) (self : Bool) : Nat :=
  let mine := x.picks.filter (fun k => decide (k.1 = src))
  let m := mine.length
  let sum : List Nat → Nat := fun ts => match ts with
    | [] => 0
    | t :: ts => ts.foldl f32add t
  let c := if m = 0 then 0 else match saCoef d with
    | 0 => f32div (fp32.encode (fOfInt m)) (fp32.encode (fOfInt x.picks.length))
    | 1 => fp32.encode (fOfInt m)
    | 2 => sum (mine.map (fun k => k.2.2))
    | _ =>
      let distinct := mine.foldl (fun (acc : List (Nat × Nat × Nat)) k =>
        if acc.any (fun a => decide (a.2.1 = k.2.1)) then acc else acc ++ [k]) []
      sum (distinct.map (fun k => k.2.2))
  if self then f32add c f32one else c

/-- The trail entries of one expanded entry: source entry and coefficient, sources ascending (R171, R180). -/
def pairsOf (d : Nat) (x : Expand) : List (Nat × Nat) :=
  let srcs := sortUniq (x.picks.map Prod.fst ++ (if saSelf d then [x.entry] else []))
  srcs.map (fun v => (v, coefOf d x v (saSelf d && decide (v = x.entry))))

/-- A hop: the next frontier, its expansions, status bits, first-NaN elements. -/
def hopOf (p : Nat) (mode : Reading) (d : Nat) (g : Graph) (scb h : Nat) (fr : List Nat) :
    UM (List Nat × List Expand × Nat × List (Nat × Nat × Nat)) := do
  let rs ← fr.mapM (expandEntry p mode d g scb h)
  let xs := rs.map Prod.fst
  let next := sortUniq (xs.flatMap (fun x => x.picks.map Prod.fst) ++ (if saSelf d then fr else []))
  pure (next, xs, rs.foldl (fun a r => a ||| r.2.1) 0, rs.flatMap (fun r => r.2.2.map (fun i => (opScore, i, causeConsumed))))

/-- Hops `h` to H from a frontier. -/
def hopsOf (p : Nat) (mode : Reading) (d : Nat) (g : Graph) (scb : Nat) :
    Nat → Nat → List Nat → UM (List (List Nat × List Expand × Nat × List (Nat × Nat × Nat)))
  | 0, _, _ => pure []
  | n + 1, h, fr => do
    let r ← hopOf p mode d g scb h fr
    let rest ← hopsOf p mode d g scb n (h + 1) r.1
    pure (r :: rest)

/-- The seeds of the minibatch as frontier entries (R166, R168). -/
def rdSeeds (p : Nat) (mode : Reading) (d base : Nat) : UM (List Nat) := do
  let b ← rd p mode eBoundsS base 32
  let n := field b 8 8
  let b0 := (saStep d + 2 ^ 64 - saBase d) % 2 ^ 64
  let es ← (List.range (saBatch d)).mapM (fun i => do
    let e ← rd p mode eBoundsS (field b 0 8 + 16 * ((b0 * saBatch d + i) % n)) 16
    pure (frKey (field e 0 5) (if saMode d = 2 then field e 8 4 else 0)))
  pure (sortUniq es)

/-! ### Outputs (R179-R182) -/

/-- Place of an entry in U. -/
def placeIn (u : List Nat) (e : Nat) : Nat := (indexOf? (fun x => decide (x = e)) u).getD 0

/-- Sections one after another, each on a 32-byte boundary from `off`: offsets and bytes, and the end. -/
def sections : Nat → List (List Byte) → List (Nat × List Byte) × Nat
  | off, [] => ([], off)
  | off, b :: bs =>
    let o := roundUp off 32
    let r := sections (o + b.length) bs
    ((o, b) :: r.1, r.2)

/-- First-NaN events of a hop's coefficients: OP, place of the trail entry, CAUSE (R60, R171). -/
def coefNaNs (d : Nat) (xs : List Expand) : List (Nat × Nat × Nat) :=
  let es := xs.flatMap (fun x => (pairsOf d x).map (fun e =>
    (e.2, x.picks.any (fun k => decide (k.1 = e.1) && f32nan k.2.2))))
  (List.range es.length).filterMap (fun i =>
    let e := (es[i]?).getD (0, false)
    if f32nan e.1 then some (1, i, if e.2 then causeConsumed else causeInvalid) else none)

/-- Assemble the outputs of a SAMPLE (R179-R181).  Outputs: 0 unique list, 1 trail, 2 halo requests, 3 times. -/
def buildRes (me p d gver sver cver : Nat) (g : Graph) (f0 : List Nat)
    (hops : List (List Nat × List Expand × Nat × List (Nat × Nat × Nat))) : SRes :=
  let frs := f0 :: hops.map (fun h => h.1)
  let u := sortUniq frs.flatten
  let isHalo : Nat → Option (Nat × Nat) := fun v => match homeOf g.homes v with
    | some (dv, q) => if dv = me ∧ q = p then none else some (dv, q)
    | none => none
  let halo := (List.range u.length).filterMap (fun i =>
    let v := frVid ((u[i]?).getD 0)
    (isHalo v).map (fun h => (h.1, h.2, v, i)))
  let halo := sortBy (fun (a b : Nat × Nat × Nat × Nat) =>
    decide (a.1 * 2 ^ 80 + a.2.1 * 2 ^ 72 + a.2.2.1 * 2 ^ 32 + a.2.2.2 ≤ b.1 * 2 ^ 80 + b.2.1 * 2 ^ 72 + b.2.2.1 * 2 ^ 32 + b.2.2.2)) halo
  let status := hops.foldl (fun a h => a ||| h.2.2.1) 0
  let entries := hops.map (fun h => h.2.1.flatMap (fun x => (pairsOf d x).map (fun e => (placeIn u x.entry, placeIn u e.1, e.2))))
  let secs := sections 128 (frs.map (fun f => f.flatMap (fun e => toBytes 4 (placeIn u e))) ++
    entries.map (fun es => es.flatMap (fun e => toBytes 4 e.1 ++ toBytes 4 e.2.1 ++ toBytes 4 e.2.2)))
  let n := frs.length
  let at_ : Nat → Nat := fun i => ((secs.1[i]?).getD (0, [])).1
  let header := toBytes 4 1 ++ toBytes 1 (saHops d) ++ toBytes 1 (saMode d) ++ toBytes 2 gver ++ toBytes 8 (saStep d) ++
    toBytes 4 u.length ++ toBytes 4 halo.length ++ toBytes 2 sver ++ toBytes 2 cver ++ toBytes 4 status ++
    (List.range 5).flatMap (fun h =>
      if n ≤ h then zeros 16
      else toBytes 4 (at_ h) ++ toBytes 4 ((frs[h]?).getD []).length ++
        (if h = 0 then zeros 8
         else toBytes 4 (at_ (n + h - 1)) ++ toBytes 4 ((entries[h - 1]?).getD []).length)) ++ zeros 16
  { writes :=
      [(0, 0, u.flatMap (fun e => toBytes 8 (frVid e + (if (isHalo (frVid e)).isSome then 2 ^ 40 else 0)))),
       (1, 0, header)] ++ secs.1.map (fun x => (1, x.1, x.2)) ++
      [(2, 0, halo.flatMap (fun h => toBytes 8 (h.2.2.1 + h.1 * 2 ^ 40 + h.2.1 * 2 ^ 57) ++ toBytes 8 h.2.2.2))] ++
      (if saMode d = 2 then [(3, 0, u.flatMap (fun e => toBytes 4 (frTime e)))] else []),
    nUniq := u.length, nTrail := secs.2, nHalo := halo.length, status := status,
    nans := hops.flatMap (fun h => h.2.2.2 ++ coefNaNs d h.2.1),
    feats := (u.map frVid).filter (fun v => (isHalo v).isNone) }

/-- Whether the captured tables exist and the header fields the mode needs are there (E_TABLE). -/
def State.saTables (s : State) (p d : Nat) : Bool :=
  let kd : Nat → Nat := fun t => tdKind (s.obj (kTable p t))
  decide (kd (saGraph d) = 1 ∧ kd (saSeedT d) = 2) && (decide (saMode d ≠ 3) || decide (kd (saScoreT d) = 3))

/-- Tables a SAMPLE captures (R169). -/
def saCaps (d : Nat) : List Nat := [saGraph d, saSeedT d] ++ (if saMode d = 3 then [saScoreT d] else [])

/-- Compute a SAMPLE (R168-R181). -/
def sampleWork (me p : Nat) (mode : Reading) (d : Nat) : UM SRes := do
  let s ← now
  if s.saTables p d = false then throw 0x0602
  if saMode d = 3 ∧ badScore (saTemp d) (saTopp d) (saTopk d) 262144 then throw 0x0608
  let gd := s.obj (kTable p (saGraph d))
  let sd := s.obj (kTable p (saSeedT d))
  let cd := s.obj (kTable p (saScoreT d))
  let g ← rdGraph p mode (tdBase gd)
  if (saMode d = 1 ∧ g.alias_ = 0) ∨ (saMode d = 2 ∧ g.times = 0) ∨ (saCoef d = 2 ∧ g.weights = 0) then throw 0x0602
  let f0 ← rdSeeds p mode d (tdBase sd)
  let hops ← hopsOf p mode d g (tdBase cd) (saHops d) 1 f0
  pure (buildRes me p d (tdVersion gd) (tdVersion sd) (if saMode d = 3 then tdVersion cd else 0) g f0 hops)

/-- Whether a result fits the capacities of a descriptor (R182). -/
def SRes.fits (r : SRes) (d : Nat) : Bool :=
  decide (r.nUniq ≤ saCapU d ∧ r.nTrail ≤ 32 * saCapT d ∧ r.nHalo ≤ saCapH d)

/-- Stall address of output `k` of a descriptor. -/
def saOut (d k : Nat) : Nat :=
  match k with
  | 0 => saOutU d
  | 1 => saOutT d
  | 2 => saOutH d
  | 3 => saOutTime d
  | 4 => scOutIdx d
  | _ => scOutProb d

/-- Write the outputs of a result. -/
def writeRes (p d : Nat) (r : SRes) : UM Unit := do
  r.writes.forM (fun w => wr p eBoundsS (saOut d w.1 + w.2.1) w.2.2)

/-- Compute a SCORE (R177, R178).  Outputs: 4 indices, 5 probabilities.  R178 does not give the SIZE of its handle, which
names OUT_IDX: the bytes of OUT_IDX, 4 for each row and draw (the model's choice, log 55). -/
def scoreWork (p d : Nat) : UM SRes := do
  if badScore (scTemp d) (scTopp d) (scTopk d) (scLen d) then throw 0x0608
  let z := scoreSize (scSfmt d)
  let rows ← (List.range (scRows d)).mapM (fun r => do
    let bs ← rd p .fore eBoundsS (scScores d + r * scPitch d) (z * scLen d)
    let xs := (List.range (scLen d)).map (fun i => widen (scSfmt d) (field bs (z * i) z))
    let dist := scoreDist xs (scTemp d) (scTopp d) (scTopk d)
    let ds := (List.range (scDraws d)).map (fun j =>
      (dist.draw (drawBlock (scSeed d) (scStep d) (scRowBase d + r) 0 1 j)).getD (0xFFFFFFFF, 0))
    pure (ds, (nanScores xs).map (fun i => (opScore, r * scLen d + i, causeConsumed))))
  let ds := rows.flatMap Prod.fst
  let ns := rows.flatMap Prod.snd
  pure { writes := [(4, 0, ds.flatMap (fun e => toBytes 4 e.1))] ++
           (if scProb d then [(5, 0, ds.flatMap (fun e => toBytes 4 e.2))] else []),
         nUniq := 0, nTrail := 4 * ds.length, nHalo := 0, status := if ns = [] then 0 else 4, nans := ns, feats := [] }

/-! ### Start, adoption and completion (R169, R182, R186, R190) -/

/-- The fields of a SAMPLE that run-ahead compares: all but STEP, outputs, capacities and completion (R186). -/
def saKey (d : Nat) : Nat :=
  let clear : Nat → Nat × Nat → Nat := fun x f => setBits x f.1 f.2 0
  [(8, 2), (128, 64), (192, 48), (384, 192), (576, 96), (704, 64)].foldl clear d

/-- A result is raised: first-NaN events, STATUS bits (R172, R186). -/
def State.raiseRes (s : State) (k : Nat) (d : Desc) (r : SRes) : State :=
  let s := s.modSampler k (fun x => { x with adjMiss := x.adjMiss || bit r.status 0, trunc := x.trunc || bit r.status 1,
                                             nanScore := x.nanScore || bit r.status 2 })
  r.nans.foldl (fun s e => s.nanEvent d.part ⟨4, e.1, d.stall, d.pc.toNat⟩ e.2.2 e.2.1) s

/-- The held result a SAMPLE adopts (R186). -/
def State.adopts (s : State) (k : Nat) (d : Desc) : Option Ahead :=
  let x := s.sampler k
  let c := d.bits.toNat
  match x.tmpl with
  | none => none
  | some t =>
    if saKey t.bits.toNat = saKey c then
      x.held.find? (fun a => decide (a.step = saStep c ∧ a.caps = s.capture d.part (saCaps c)))
    else none

/-- Whether a SAMPLE's fields other than STEP are those of the template (R186). -/
def sameButStep (a b : Nat) : Bool := decide (setBits a 128 64 0 = setBits b 128 64 0)

/-- What a fresh SAMPLE discards (R186): everything if its fields other than STEP differ from the template's, outputs,
capacities and completion included; else what is for steps at or below its own. -/
def State.discardFor (s : State) (k : Nat) (d : Desc) : State :=
  let x := s.sampler k
  let c := d.bits.toNat
  let same := match x.tmpl with | some t => sameButStep t.bits.toNat c | none => false
  let keep := if same then x.held.filter (fun a => decide (saStep c < a.step)) else []
  (s.bumpObj (kRaDiscarded d.part) (x.held.length - keep.length)).modSampler k (fun y => { y with held := keep })

/-- A descriptor is in execution, its outputs written (R190). -/
def State.saRunning (s : State) (k : Nat) (d : Desc) (caps : List (Nat × Nat)) (r : SRes) : State :=
  (s.raiseRes k d r).modSampler k (fun x => { x with cur := some { desc := d, caps := caps, res := { r with writes := [] } } })

/-- Get a result and write its outputs if they fit (R182). -/
def saWork (p d : Nat) (res : UM SRes) : UM SRes := do
  let r ← res
  if bits d 0 8 = 1 ∧ r.fits d = false then throw 0x0605
  writeRes p d r
  pure r

/-- SAMPLER_DESCRIPTOR_START (R169, R194): the next foreground descriptor of shed `sh` captures its versions, adopts a held
result or computes, and writes its outputs, once every sector of HBM it touches has its turn. -/
def execSamplerDescriptorStart (sh : Nat) (s : State) : Out1 :=
  if 32 ≤ sh then .fault .noSuchUnit
  else
    let x := s.sampler sh
    match x.queue with
    | [] => .next s
    | d :: rest =>
      if x.cur.isSome ∨ (s.shed sh).asleep then .next s
      else
        let u := (s.modSampler sh (fun x => { x with queue := rest })).touch sh
        let c := d.bits.toNat
        let go : State → List (Nat × Nat) → UM SRes → Out1 := fun u caps m =>
          match (saWork d.part c m).run plainly u with
          | none => .next s
          | some (.ok r, u) => .next (u.saRunning sh d caps r)
          | some (.error e, u) => .next (u.saFail sh d e)
        if bits c 0 8 = 2 then go u [] (scoreWork d.part c)
        else
          let caps := u.capture d.part (saCaps c)
          match u.adopts sh d with
          | some a =>
            if a.res.fits c then
              go ((u.bumpObj (kRaAdopted d.part) 1).modSampler sh
                (fun x => { x with held := x.held.filter (fun b => decide (b ≠ a)) })) caps (pure a.res)
            else .next (u.saFail sh d 0x0605)
          | none => go (u.discardFor sh d) caps (sampleWork s.device d.part .fore c)

/-- SAMPLER_DESCRIPTOR_COMPLETE (R145, R185, R190): the descriptor in execution performs its completion; a SAMPLE with RA
becomes the template. -/
def execSamplerDescriptorComplete (sh : Nat) (s : State) : Out1 :=
  if 32 ≤ sh then .fault .noSuchUnit
  else match (s.sampler sh).cur with
    | none => .next s
    | some c =>
      let d := c.desc.bits.toNat
      let score := decide (bits d 0 8 = 2)
      let h := handleAt (if score then scOutIdx d else saOutT d) c.res.nTrail (dGen d)
      match s.signal c.desc h with
      | .wait t => .next t
      | .refuse _ => .next s
      | .ok t => .next ((t.modSampler sh (fun x =>
          { x with cur := none, tmpl := if !score && saRa d then some c.desc else x.tmpl })).touch sh)

/-! ### Run-ahead (R184, R185, R187-R189) -/

/-- Effective DEPTH of partition p (R184). -/
def State.raDepth (s : State) (p : Nat) : Nat :=
  if s.obj (kRaGranules p) = 0 then 0 else bits (s.obj (kRunahead p)) 0 2

/-- Bytes of a staging slot (R184). -/
def State.raSlot (s : State) (p : Nat) : Nat := s.obj (kRaGranules p) * 2 ^ 30 / (3 * max 1 (s.shedsOf p).length)

/-- Bytes a result takes in a staging slot. -/
def SRes.size (r : SRes) : Nat := (r.writes.map (fun w => w.2.2.length)).foldl (fun (a b : Nat) => a + b) 0

/-- The first address of the local row of vertex `v` in FEAT_TABLE, if it lies here (R189, R202). -/
def featRow (x : Rows) (me p v : Nat) : Option Nat :=
  match x.readAt me p v with
  | .here a => some a
  | _ => none

/-- The hints of a result: the sectors of its local rows (R189). -/
def State.hintsOf (s : State) (p t : Nat) (r : SRes) : List Hint :=
  let d := s.obj (kTable p t)
  if tdKind d ≠ 4 then []
  else match (rdRows p .again 0x0704 (tdBase d)).look s with
    | .error _ => []
    | .ok x => r.feats.flatMap (fun v =>
        match featRow x s.device p v with
        | none => []
        | some a => (List.range (x.tab.rowSpan / 32)).filterMap (fun i =>
            (s.phys p none (a + 32 * i)).map (fun k => { engine := engineOf k, sector := k / 32, part := p, table := t })))

/-- The template of shed `sh`'s sampler and the step that run-ahead computes next, while nothing else is to be done
(R185). -/
def State.raDue (s : State) (sh : Nat) : Option (Desc × Nat) :=
  let x := s.sampler sh
  match x.tmpl with
  | none => none
  | some t =>
    if x.queue ≠ [] ∨ x.cur.isSome ∨ 3 ≤ x.held.length ∨ (s.shed sh).asleep ∨ s.partRuns t.part = false then none
    else
      let want := (List.range (s.raDepth t.part)).map (fun i => (saStep t.bits.toNat + i + 1) % 2 ^ 64)
      (want.find? (fun n => !(x.held.any (fun a => decide (a.step = n))))).map (fun n => (t, n))

/-- RUNAHEAD_COMPUTE (R185): with nothing queued, the sampler of shed `sh` computes the template for the next step that is
not held.  A result that meets an error or outgrows its slot is abandoned (R187); the spec does not say what follows, and
the sampler tries the same step again at the next of these commands (the model's choice, log 55). -/
def execRunaheadCompute (sh : Nat) (s : State) : Out1 :=
  if 32 ≤ sh then .fault .noSuchUnit
  else match s.raDue sh with
    | none => .next s
    | some (t, n) =>
      let p := t.part
      let d := setBits t.bits.toNat 128 64 n
      let caps := s.capture p (saCaps d)
      match (sampleWork s.device p .ahead d).run plainly s with
      | none => .next s
      | some (.error _, s) => .next (s.bumpObj (kRaDiscarded p) 1)
      | some (.ok r, s) =>
        if s.raSlot p < r.size then .next (s.bumpObj (kRaDiscarded p) 1)
        else
          let s := s.modSampler sh (fun x => { x with held := x.held ++ [{ step := n, caps := caps, res := r }] })
          let hs := if saPrefetch d && bit (s.obj (kRunahead p)) 2 then s.hintsOf p (saFeat d) r else []
          .next { s with hints := s.hints ++ hs }

end Sys2Proof.Machine
end

