-- ==== Sys2Proof/Machine/Status.lean ====
section
/-!
DEFINITION. The read-only and status words the dictionary forms from the state of the units (R94, R161, R191, R198, R213,
R217, R231, R241, R252, R281, R292, R293, R316, R321, R328, R346, R369, R370, R376, R383, R384, R386, R387, R399).
-/

namespace Sys2Proof.Machine

/-- A number of fields given as (place, value). -/
def word (fs : List (Nat × Nat)) : Nat := (fs.map (fun f => f.2 * 2 ^ f.1)).sum

/-! ### Partitions -/

def phaseCode : PartPhase → Nat
  | .free => 0
  | .stopped => 1
  | .loading => 2
  | .running => 3
  | .stopping => 4

/-- PART_STATE (R346). -/
def State.partState (s : State) (p : Nat) : Nat :=
  let x := s.part p
  word [(0, phaseCode x.phase), (3, b2n x.halted), (4, b2n x.detLost), (5, b2n x.loadFailed)]

/-- PART_CTRL (R346, R347): START while the partition loads, STOP while it is held or taken. -/
def State.partCtrl (s : State) (p : Nat) : Nat :=
  let x := s.part p
  word [(0, b2n (decide (x.phase = .loading))), (1, b2n x.stopReq)]

/-- MXA_STATUS of shed `k` (R94). -/
def State.mxaStatus (s : State) (k : Nat) : Nat :=
  let m := s.mxa k
  word [(0, if m.halted then 2 else if m.idle then 0 else 1), (2, b2n m.slot0.isSome), (3, b2n m.slot1.isSome),
    (4, b2n m.tileA.isSome), (5, b2n m.tileB.isSome), (6, b2n m.intSat), (8, m.queue.length), (16, m.errCode),
    (32, m.errOp), (40, m.errStall)]

/-- GROOM_STATUS of shed `k` (R161). -/
def State.groomStatus (s : State) (k : Nat) : Nat :=
  let x := s.shed k
  word [(0, (x.queues.map (fun q => q.2.items.length)).sum), (16, x.delay.length), (32, x.watches.length),
    (48, b2n x.qfull), (49, b2n x.dlfull), (50, b2n x.fqLost)]

/-- SAMPLER_STATUS of shed `k` (R191): run-ahead while a step of it is due. -/
def State.samplerStatus (s : State) (k : Nat) : Nat :=
  let x := (s.shed k).sampler
  word [(0, if x.cur.isSome then 1 else if (s.raDue k).isSome then 2 else 0), (2, x.queue.length), (8, x.held.length), (10, b2n x.adjMiss), (11, b2n x.trunc),
    (12, b2n x.nanScore), (16, x.errCode), (32, x.errStall)]

/-- RE_STATUS of partition `p` (R231). -/
def State.reStatusWord (s : State) (p : Nat) : Nat :=
  setBits (s.obj (kReStatus p)) 48 16 (s.fwd.filter (fun f => decide (f.part = p))).length

/-- ENGINE_STATUS of engine `e` (R231). -/
def State.engineStatus (s : State) (e : Nat) : Nat :=
  let x := s.engine e
  word [(0, x.occupied), (15, b2n x.wrap), (16, x.hints)]

/-- HOT_ROWS of a table (R213): rows and lower bounds of their counts, highest first, 64 entries. -/
def hotBytes (hot : List (Nat × Nat × Nat)) : List Byte :=
  let es := hot.map (fun h => (h.1, h.2.1 - h.2.2))
  let es := (sortBy (fun a b => decide (b.2 ≤ a.2)) es).take 64
  slice (es.flatMap (fun e => toBytes 8 e.1 ++ toBytes 8 e.2)) 0 1024

/-- The quarter of a granule in GRANULE_MAP (R241). -/
def State.quarterWord (s : State) (f : Nat × Nat) : Nat :=
  word [(0, f.2), (10, f.1), (15, b2n (s.frame f.1 f.2).clearing)]

/-- Bytes of GRANULE_MAP: the module holds at most 715 granules (R237, R241). -/
def granMapSize : Nat := 8 * 715

/-- GRANULE_MAP (R241): the addressable granules, then the staging granules. -/
def State.granuleMap (s : State) (p : Nat) : List Byte :=
  let x := s.part p
  slice ((x.grans ++ x.stage).flatMap (fun g => g.frames.flatMap (fun f => toBytes 2 (s.quarterWord f)))) 0 granMapSize

/-- FREE_FRAMES (R241): frames neither taken nor being cleared. -/
def State.freeFrames (s : State) : Nat :=
  word ((List.range 4).map (fun y =>
    (16 * y, ((List.range yardFrames).filter (fun f => decide (s.frame y f = frameFree))).length)))

/-- TRAIN_STATUS (R321). -/
def State.trainStatus (s : State) (p : Nat) : Nat :=
  let t := (s.part p).train
  word [(0, t.state), (8, b2n t.nonfinSeen), (9, b2n t.clipSeen), (10, b2n t.lsFloor), (16, t.finiteRun)]

/-- MIRROR_STATUS (R316). -/
def State.mirrorStatus (s : State) (p : Nat) : Nat :=
  let m := (s.part p).mirror
  word [(0, b2n (decide (m.phase ≠ 0))), (1, m.lastSlot), (2, b2n m.slotOk), (3, b2n m.failed), (4, b2n m.skipped),
    (5, b2n m.extra)]

/-! ### HBM and Llyn -/

def stackCode : StackPhase → Nat
  | .off => 0
  | .training => 1
  | .ready => 2
  | .failed => 3

/-- STACK_STATE (R252). -/
def State.stackState (s : State) (k : Nat) : Nat :=
  let x := s.hbm k
  word [(0, stackCode x.phase), (2, x.refresh), (4, b2n x.hot)]

/-- SCRUB_POS (R252): channel and block reached. -/
def State.scrubPos (s : State) (k : Nat) : Nat :=
  let b := (s.hbm k).scrub / 16
  word [(0, b / 3906250), (5, b % 3906250)]

def portCode : PortPhase → Nat
  | .disabled => 0
  | .training => 1
  | .up => 2
  | .notReady => 3
  | .waiting => 4

/-- PORT_STATE (R293). -/
def State.portState (s : State) (k : Nat) : Nat :=
  let x := s.port k
  word [(0, portCode x.phase), (3, b2n x.moved), (4, b2n x.downSeen)]

/-- TIME_STATUS (R281): the root is synchronised to itself. -/
def State.timeStatus (s : State) : Nat :=
  let root := bit (s.obj kTimeCtrl) 0
  word [(0, b2n (root || (s.fabric.synced && decide (s.fabric.slew.natAbs ≤ 20)))), (1, if root then 0 else s.fabric.hops % 128),
    (32, if root then 0 else s.fabric.offset.toNat)]

/-! ### Module -/

def seasonCode : SeasonPhase → Nat
  | .noPower => 0
  | .winter => 0
  | .spring => 1
  | .summer => 2
  | .autumn => 3
  | .fault => 4

/-- SEASON (R376). -/
def State.seasonWord (s : State) : Nat :=
  let x := s.season
  word [(0, seasonCode x.phase), (3, if x.phase = .spring ∨ x.phase = .autumn then x.sub else 0),
    (8, b2n (decide (x.pend = some true))), (9, b2n (decide (x.pend = some false))), (10, x.cause)]

/-- The 1 ms average of input power in µW: the mean of the samples held, at most 10 (R364). -/
def Power.avg (w : Power) : Nat := w.samples.sum / max w.samples.length 1

/-- The ceiling of yard `y`: the lower of MAX_POINT and the thermal ceiling (R365). -/
def State.ceilOf (s : State) (y : Nat) : Nat := min (s.obj (kMaxPoint y)) (s.yard y).ceil

/-- Whether the fast PLLs run: from Spring 3 to Autumn 6, but not while CLOCKS_UP waits to be repeated (R362, R371,
R378). -/
def State.clocksUp (s : State) : Bool :=
  match s.season.phase with
  | .spring => decide (3 < s.season.sub) || decide (s.season.sub = 3 ∧ s.season.retry = false)
  | .summer => true
  | .autumn => decide (s.season.sub ≤ 5)
  | _ => false

/-- LIMIT (R369): what holds the module below MAX_POINT at full memory rate; the memory throttle comes first, then the cap,
then the thermal ceiling; without clocks nothing is held. -/
def State.capLimit (s : State) : Nat :=
  if s.power.mt ≠ 0 then 3
  else if s.clocksUp = false then 0
  else if (List.range 4).any (fun y => decide ((s.yard y).point < s.ceilOf y)) then 1
  else if (List.range 4).any (fun y => decide ((s.yard y).ceil < s.obj (kMaxPoint y))) then 2
  else 0

/-- CAP_STATUS (R369). -/
def State.capStatus (s : State) : Nat :=
  let w := s.power
  word [(0, s.capLimit), (2, w.mt), (8, b2n w.capped), (9, b2n w.throttled), (10, b2n w.exceeded), (11, b2n w.braked)]

/-- YARD_POINT (R370). -/
def State.yardPoint (s : State) (y : Nat) : Nat :=
  let x := s.yard y
  word [(0, x.point), (4, x.ceil), (8, x.droop)]

/-- The point a yard's clock runs at: droop steps lower it, not below point 0 (R367). -/
def Yard.speed (x : Yard) : Nat := x.point - x.droop

/-- FREQ_KHZ of point `k` (R363). -/
def freqKhz (k : Nat) : Nat := 800000 * (15 + k) / 15

/-- VF_POINT `k` of yard `y` (R363). -/
def vfPoint (y k : Nat) : Nat :=
  word [(0, freqKhz k), (32, Config.vfVoltage y k % 2 ^ 24), (63, 1)]

/-- VF_CRC of yard `y` (R363). -/
def vfCrc (y : Nat) : Nat := crc32c ((List.range 16).flatMap (fun k => toBytes 8 (vfPoint y k)))

/-- PERF_n (R387); a wrap shows at once. -/
def State.perfWord (s : State) (n : Nat) : Nat :=
  word [(0, (s.perf n).count % 2 ^ 48), (63, b2n ((s.perf n).wrap || decide (2 ^ 48 ≤ (s.perf n).count)))]

/-- PERF_n wraps: WRAP is set, with a log entry where WRAP_LOG asks for one (R387, R390). -/
def State.wrapPerf (s : State) (n : Nat) : State :=
  let x := s.perf n
  if x.count < 2 ^ 48 then s
  else
    let s := s.setPerf n { count := x.count - 2 ^ 48, wrap := true }
    if bit (s.obj (kPerfSel n)) 6 then s.logModule 0x0D02 0 none 0x10 0 n else s

/-- ENERGY_MJ (R386). -/
def State.energyMj (s : State) : Nat := s.power.energy / 10000000

/-- A semaphore object (R328). -/
def State.semWord (s : State) (m : Nat) : Nat :=
  let x := s.sem m
  match x.holder with
  | none => 0
  | some r =>
    word ([(0, 1), (32, x.lease % 2 ^ 32), (64, ceilDiv (x.until_ - s.clock) 1000000)] ++
      (match r with
       | .fn n => [(8, n)]
       | .mgmt ip port => [(1, 1), (16, port), (96, ip)]
       | .llyn dev => [(1, 2), (96, dev)]))

/-- The entries of a log from byte `off` (R392). -/
def Log.bytes (l : Log) (off n : Nat) : List Byte :=
  let first := off / 32
  let last := (off + n + 31) / 32
  slice ((List.range (last - first)).flatMap (fun i =>
    toBytes 32 (FMap.get (fun _ => (0 : BitVec 256)) l.slots (first + i)).toNat)) (off % 32) n

/-- RING_FLAGS of partition `p` (R338): without a ring neither is full, as the reset value 0 has it (log 64). -/
def State.ringFlags (s : State) (p : Nat) : Nat :=
  let r := (s.part p).rings
  word [(0, b2n (decide (s.obj (kSqSize p) ≠ 0 ∧ (r.sqTail - r.sqHead).toNat = s.obj (kSqSize p)))),
    (1, b2n (decide (s.obj (kCqSize p) ≠ 0 ∧ (r.cqTail - r.cqHead).toNat = s.obj (kCqSize p)))), (2, b2n (s.partRuns p)), (3, b2n r.dbDrop)]

end Sys2Proof.Machine
end

