-- ==== Sys2Proof/Machine/Flash.lean ====
section
/-!
DEFINITION. Flash: its layout and write protection, firmware slots and their validity, persistence banks, fault records, and
the boot order (R379-R384, R398).
-/

namespace Sys2Proof.Machine

/-! ### Layout (R379) -/

/-- Where the slots begin: A, B and the golden slot. -/
def slotBase (i : Nat) : Nat := if i = 0 then 0x900000 else if i = 1 then 0x1900000 else 0x100000
/-- Bytes of slot A or B. -/
def slotSize : Nat := 2 ^ 24
/-- Bytes of a slot; the golden slot has 8 MiB. -/
def slotLen (i : Nat) : Nat := if i ≤ 1 then slotSize else 2 ^ 23
/-- Where persistence bank `i` begins, and its bytes. -/
def bankBase (i : Nat) : Nat := 0x2900000 + i * 0x400000
def bankSize : Nat := 0x400000
/-- Where the fault log begins; it has room for 2,048 records. -/
def faultBase : Nat := 0x3100000
/-- The directory and the golden slot end here: FLASH_WP_N protects what lies below. -/
def protectedEnd : Nat := 0x900000

/-- A byte of flash that nothing has written since manufacture: the directory and the golden slot hold what manufacture
wrote, the rest reads as zero (assumption log 31). -/
def flashReset (off : Nat) : Byte := if off < protectedEnd then BitVec.ofNat 8 (Config.factory off) else 0

/-- The listed bytes of a map from `off` on, with those that are not listed between them. -/
def spanBytes : FMap Byte → Nat → Nat → List Byte
  | _, _, 0 => []
  | [], off, n + 1 => flashReset off :: spanBytes [] (off + 1) n
  | (k, b) :: m, off, n + 1 =>
    if k = off then b :: spanBytes m (off + 1) n else flashReset off :: spanBytes ((k, b) :: m) (off + 1) n

/-- `n` bytes of flash from offset `off`. -/
def Flash.bytes (f : Flash) (off n : Nat) : List Byte := spanBytes (f.cells.filter (fun e => decide (off ≤ e.1))) off n
/-- The number in `n` bytes of flash. -/
def Flash.num (f : Flash) (off n : Nat) : Nat := ofBytes (f.bytes off n)

/-- Write bytes at an offset; while FLASH_WP_N is low (`wpN` false) the directory and the golden slot are not written. -/
def Flash.put (f : Flash) (wpN : Bool) (off : Nat) (bs : List Byte) : Flash :=
  if off < protectedEnd ∧ wpN = false then f
  else
    let new := ((List.range bs.length).map (fun i => (off + i, bs.getD i 0))).filter (fun e => decide (e.2 ≠ flashReset e.1))
    { f with cells := f.cells.filter (fun e => decide (e.1 < off)) ++ new ++
        f.cells.filter (fun e => decide (off + bs.length ≤ e.1)) }

/-- A write that ends with a commit word (R379): its other bytes now, the place of the commit word zeroed; the word itself
follows once they are written and read back. -/
def Flash.startWrite (f : Flash) (wpN : Bool) (off : Nat) (body commit : List Byte) : Flash :=
  let f := f.put wpN off (body ++ zeros commit.length)
  { f with commits := f.commits ++ [(off + body.length, commit)] }

/-- A 32-byte COMMIT: a number, VALID and a CRC-32C (R380, R384, R398). -/
def commitWord (n crc : Nat) : List Byte := slice (toBytes 4 n ++ toBytes 4 1 ++ toBytes 4 crc) 0 32

/-- Whether the COMMIT at `off` is that of a number and of bytes. -/
def Flash.committed (f : Flash) (off n : Nat) (body : List Byte) : Bool :=
  let c := f.num off 32
  bit c 32 && decide (bits c 0 32 = n) && decide (bits c 64 32 = crc32c body)

/-! ### Firmware slots (R380, R382) -/

/-- CODE_BYTES of a slot's header. -/
def Flash.codeBytes (f : Flash) (i : Nat) : Nat := f.num (slotBase i + 8) 8
/-- Whether the code of a slot lies between its header and its COMMIT. -/
def Flash.codeFits (f : Flash) (i : Nat) : Bool := decide (4096 + f.codeBytes i ≤ slotLen i - 32)
/-- VERSION of a slot's header. -/
def Flash.slotVersion (f : Flash) (i : Nat) : Nat := f.num (slotBase i + 4) 4
/-- Header and code of a slot. -/
def Flash.image (f : Flash) (i : Nat) : List Byte := f.bytes (slotBase i) (4096 + f.codeBytes i)

/-- Whether a slot is valid: VALID, the header's VERSION, and the CRC (R382). -/
def Flash.slotValid (f : Flash) (i : Nat) : Bool :=
  f.codeFits i && f.committed (slotBase i + slotLen i - 32) (f.slotVersion i) (f.image i)

/-- Whether the golden slot holds what manufacture wrote. -/
def Flash.asShipped (f : Flash) : Bool := f.cells.all (fun e => decide (e.1 < slotBase 2 ∨ protectedEnd ≤ e.1))

/-- Whether the golden slot is valid: as manufacture wrote it, it is (assumption log 31). -/
def Flash.goldenValid (f : Flash) : Bool := f.asShipped || f.slotValid 2

/-- Whether a COMMIT may be written: the header has FORMAT 1, zeros where R380 has zeros, and code that fits (R383). -/
def Flash.headerGood (f : Flash) (i : Nat) : Bool :=
  decide (f.num (slotBase i) 4 = 1) && f.codeFits i && (f.bytes (slotBase i + 16) (4096 - 16)).all (fun b => decide (b = 0))

/-- The slot that FW_SLOT names: the one that is not running; slot A while the golden slot runs (R383, assumption
log 32). -/
def Flash.other (f : Flash) : Nat := if f.running = 0 then 1 else 0

/-- FW_STATUS (R383). -/
def State.fwStatus (s : State) : Nat :=
  word [(0, s.flash.running), (2, b2n (s.flash.slotValid 0)), (3, b2n (s.flash.slotValid 1)),
    (4, b2n (!s.season.flashWpN))]

/-! ### Persistence banks (R323, R384) -/

/-- Whether the object with this key is persistent (R294, R333, R369, R376, R383, R385, R386). -/
def persistent (k : Nat) : Bool :=
  let idx := k / 256
  let sub := k % 256
  decide (idx = 0x1110 ∧ sub ≤ 5) || decide (k = kSeasonCfg ∨ k = kPowerCap ∨ k = kPowerGoodCount ∨ k = kDeviceId ∨
    k = kFwBoot) || decide (0x4010 ≤ idx ∧ idx ≤ 0x402F ∧ sub = 0)

/-- Bytes of a persistent object. -/
def persistSize (k : Nat) : Nat :=
  if k / 256 = 0x1110 then (match k % 256 with | 0 => 2 | 3 => 1 | 4 => 16 | 5 => 1 | _ => 4)
  else if k = kPowerCap then 2
  else if 0x4010 ≤ k / 256 then 32 else 4

/-- The record of an object (R384): index, subindex, length, and the value padded to 8 bytes. -/
def bankRecord (k v : Nat) : List Byte :=
  toBytes 2 (k / 256) ++ toBytes 1 (k % 256) ++ zeros 1 ++ toBytes 4 (persistSize k) ++
    toBytes (roundUp (persistSize k) 8) (v % 256 ^ persistSize k)

/-- Header and records of a bank (R384). -/
def bankBody (gen : Nat) (objs : FMap Nat) : List Byte :=
  let recs := (objs.filter (fun e => persistent e.1)).flatMap (fun e => bankRecord e.1 e.2)
  toBytes 4 1 ++ toBytes 4 gen ++ toBytes 8 recs.length ++ zeros 16 ++ recs

/-- The objects that records hold, at most `n` of them. -/
def parseRecords : Nat → List Byte → List (Nat × Nat)
  | 0, _ => []
  | n + 1, bs =>
    if bs.length < 8 then []
    else
      let len := field bs 4 4
      (objKey (field bs 0 2) (field bs 2 1), field bs 8 len) :: parseRecords n (bs.drop (8 + roundUp len 8))

/-- GENERATION and RECORD_BYTES of a bank's header. -/
def Flash.bankGen (f : Flash) (i : Nat) : Nat := f.num (bankBase i + 4) 4
def Flash.bankLen (f : Flash) (i : Nat) : Nat := f.num (bankBase i + 8) 8

/-- Whether a bank is valid: FORMAT 1, and a COMMIT with its GENERATION and CRC (R384). -/
def Flash.bankValid (f : Flash) (i : Nat) : Bool :=
  decide (f.num (bankBase i) 4 = 1) && decide (64 + f.bankLen i ≤ bankSize) &&
    f.committed (bankBase i + 32 + f.bankLen i) (f.bankGen i) (f.bytes (bankBase i) (32 + f.bankLen i))

/-- The bank an ostler start loads: the valid one with the greater GENERATION (R384). -/
def Flash.best (f : Flash) : Option Nat :=
  match f.bankValid 0, f.bankValid 1 with
  | false, false => none
  | true, false => some 0
  | false, true => some 1
  | true, true => if f.bankGen 0 < f.bankGen 1 then some 1 else some 0

/-- The objects the bank an ostler start loads has records of. -/
def Flash.objects (f : Flash) : List (Nat × Nat) :=
  match f.best with
  | none => []
  | some i => (parseRecords (f.bankLen i / 8) (f.bytes (bankBase i + 32) (f.bankLen i))).filter (fun e => persistent e.1)

/-- GENERATION of the bank in use, 0 before the first commit. -/
def Flash.gen (f : Flash) : Nat := if f.bankValid f.inUse then f.bankGen f.inUse else 0

/-- The commit words that wait are written (R379); a bank that has its own is the one in use. -/
def Flash.finish (f : Flash) (wpN : Bool) : Flash :=
  let g := f.commits.foldl (fun (f : Flash) c => f.put wpN c.1 c.2) f
  { g with commits := [], inUse := f.commits.foldl (fun u c =>
      if bankBase 0 ≤ c.1 ∧ c.1 < bankBase 1 then 0 else if bankBase 1 ≤ c.1 ∧ c.1 < faultBase then 1 else u) f.inUse }

/-- Every write in progress ends. -/
def State.finishFlash (s : State) : State := { s with flash := s.flash.finish s.season.flashWpN }

/-- A commit begins: it writes the other bank with GENERATION + 1 (R384). -/
def State.beginCommit (s : State) : State :=
  let s := s.finishFlash
  let f := s.flash
  let gen := (f.gen + 1) % 2 ^ 32
  let body := bankBody gen s.objs
  let g := f.startWrite s.season.flashWpN (bankBase (1 - f.inUse)) body (commitWord gen (crc32c body))
  { s with flash := { g with dirty := none } }

/-- A commit that is not waited for (R382). -/
def State.commitBank (s : State) : State := s.beginCommit.finishFlash

/-- What an ostler start makes of the persistent objects: the records of the loaded bank, every other at its reset value
(R384, R397). -/
def State.loadBank (s : State) : State :=
  let s := s.finishFlash
  { s with
    objs := s.flash.objects.foldl (fun m e => FMap.set objReset m e.1 e.2) (s.objs.filter (fun e => !(persistent e.1))),
    flash := { s.flash with inUse := s.flash.best.getD 0, dirty := none } }

/-- A persistent object has been written: its stored copy follows (R323, R384). -/
def State.markDirty (s : State) (k : Nat) : State :=
  if persistent k ∧ s.flash.dirty = none then { s with flash := { s.flash with dirty := some s.clock } } else s

/-- PERSIST_STATUS (R384): a write is not stored until its commit has ended. -/
def State.persistStatus (s : State) : Nat :=
  word [(0, b2n (s.flash.dirty.isSome || s.flash.commits.any (fun c => decide (c.1 < faultBase)))), (1, s.flash.inUse),
    (32, s.flash.gen)]

/-- PERSIST_COMMIT (R384): 10 s after the first persistent write that is not stored. -/
def execPersistCommit (s : State) : Out1 :=
  match s.flash.dirty with
  | some t => if t + 10000000000 ≤ s.clock then .next s.beginCommit else .next s
  | none => .next s

/-! ### Fault records (R379, R381, R398, R399) -/

/-- RECORD_SEQ of the record in place `i` of the fault log. -/
def Flash.recordSeq (f : Flash) (i : Nat) : Nat := f.num (faultBase + 4096 * i + 4) 4

/-- The places of the valid records: VALID, RECORD_SEQ and CRC (R398). -/
def Flash.records (f : Flash) : List Nat :=
  (dedup ((f.cells.filter (fun e => decide (faultBase ≤ e.1 ∧ e.1 < faultBase + 2 ^ 23))).map
    (fun e => (e.1 - faultBase) / 4096))).filter (fun i =>
      f.committed (faultBase + 4096 * i + 4064) (f.recordSeq i) (f.bytes (faultBase + 4096 * i) 4064))

/-- The place of the newest valid record. -/
def Flash.newest (f : Flash) : Option Nat :=
  f.records.foldl (fun a i => match a with
    | none => some i
    | some j => if f.recordSeq j ≤ f.recordSeq i then some i else some j) none

/-- NEWEST of FLOG_STATUS; 0 before the first record. -/
def Flash.faultSeq (f : Flash) : Nat := match f.newest with | some i => f.recordSeq i | none => 0

/-- The place the next record takes: it overwrites the oldest. -/
def Flash.nextRecord (f : Flash) : Nat := match f.newest with | some i => (i + 1) % 2048 | none => 0

/-- Begin a fault record: its first 4,064 bytes, and its COMMIT to follow (R379, R398). -/
def State.recordFault (s : State) (seq : Nat) (body : List Byte) : State :=
  let off := faultBase + 4096 * s.flash.nextRecord
  { s with flash := s.flash.startWrite s.season.flashWpN off body (commitWord seq (crc32c body)) }

/-- Whether the record of a Fault is complete. -/
def Flash.recorded (f : Flash) : Bool := f.commits.all (fun c => decide (c.1 < faultBase))

/-- The record FLOG_SELECT names, zeros if it is not valid (R399). -/
def State.selectedRecord (s : State) : List Byte :=
  match s.flash.records.find? (fun i => decide (s.flash.recordSeq i = s.obj kFlogSelect)) with
  | some i => s.flash.bytes (faultBase + 4096 * i) 4096
  | none => zeros 4096

/-! ### Boot (R377, R378, R382) -/

/-- A failed step waits before it is tried again: 10 ms, doubling to 1 s (R378). -/
def State.backOff (s : State) : State :=
  let b := if s.season.backoff = 0 then 10000000 else min (2 * s.season.backoff) 1000000000
  { s with season := { s.season with retry := true, backoff := b, retryAt := s.clock + b } }

/-- The ostler loads its firmware (R382): the trial slot once, else PREFERRED, the other slot, the golden slot. -/
def State.loadFirmware (s : State) : State :=
  let s := s.bumpObj (kAttempts 1) 1
  let b := s.obj kFwBoot
  let pref := bits b 0 1
  let trial := s.season.recoveryN && bit b 1
  let s := if trial then (s.setObj kFwBoot (setBits b 1 1 0)).commitBank else s
  let order := if s.season.recoveryN = false then [] else if trial then [1 - pref, pref] else [pref, 1 - pref]
  match order.find? (fun i => s.flash.slotValid i) with
  | some i => { s with flash := { s.flash with running := i, booted := true } }
  | none =>
    if s.flash.goldenValid then { s with flash := { s.flash with running := 2, booted := true } }
    else ({ s with flash := { s.flash with booted := false } }).backOff

end Sys2Proof.Machine
end

