-- ==== Sys2Proof/Machine/Season.lean ====
section
/-!
DEFINITION. The season machine: requests, sub-steps, safe ends, Fault with its record, power good and power loss
(R357, R358, R371-R378, R381, R383, R385, R396-R398).
-/

namespace Sys2Proof.Machine

/-! ### What loses its state (R333, R371, R397) -/

/-- The host port's functions, configuration space, mailboxes and control pages at reset (R357). -/
def State.hostReset (s : State) : State :=
  { s with host := { s.host with fns := [], numVfs := 0, msixEn := 0, linkUp := false } }

/-- Whether an object lives on the compute dies and the stacks. -/
def coreObj (k : Nat) : Bool :=
  let i := k / 256
  decide (0x2000 ≤ i ∧ i ≤ 0x24FF) && !(decide (0x2100 ≤ i ∧ i ≤ 0x2110))

/-- Partition configuration is released, and HBM and the state of the sheds are lost (Autumn 4, Fault); the partition logs
and the temperature sensors stay. -/
def State.coreDark (s : State) : State :=
  { s with
    mem := [], ecc := [], stalls := [], sheds := [], mesh := [], penOps := [], pushes := [], engines := [], hints := [],
    fwd := [], frames := [], parts := [],
    hbms := (List.range 12).foldl (fun m k =>
      FMap.set (fun _ => Stack.reset) m k { Stack.reset with temp := (s.hbm k).temp }) [],
    fabric := { s.fabric with tags := [], trailers := [], homes := [], fired := [] },
    objs := s.objs.filter (fun e => !(coreObj e.1)) }

/-- Every Llyn port goes down (Autumn 5, Fault). -/
def State.portsDown (s : State) : State :=
  let t : State := { s with ports := (List.range 12).foldl (fun m k =>
    let x := s.port k
    FMap.set (fun _ => Port.reset) m k
      { Port.reset with downAt := s.clock, downSeen := x.downSeen || decide (x.phase = .up ∨ x.phase = .notReady),
                        txBytes := x.txBytes, rxBytes := x.rxBytes, txWrap := x.txWrap, rxWrap := x.rxWrap, out := x.out }) [] }
  t.resync

/-- The I/O die but for the ostler goes dark (Autumn 8, Fault): host port, port counters and fabric objects. -/
def State.ioDark (s : State) : State :=
  let s := s.hostReset
  { s with
    ports := [], routes := [], host := { s.host with llynQ := [] },
    fabric := { s.fabric with synced := false, hops := 0, offset := 0, slew := 0, slewed := 0 },
    objs := s.objs.filter (fun e => !(decide (0x2100 ≤ e.1 / 256 ∧ e.1 / 256 ≤ 0x2110)) || persistent e.1) }

/-! ### Changes of state (R371, R376, R390) -/

/-- RESTART (R383, R384): the ostler starts again, with its bank and its firmware; every lease is released, and what was
its LEASE_ID stays known (R388). -/
def State.restartOstler (s : State) : State :=
  let t : State := { s with
    season := { s.season with restart := false },
    host := { s.host with sems := s.host.sems.map (fun e => (e.1, { e.2 with holder := none })) } }
  t.loadBank.loadFirmware

/-- STATE and SUBSTEP change; the memory throttle falls to 0 with the season (R366), or to 8 under the brake (R368). -/
def State.toSeason (s : State) (ph : SeasonPhase) (sub : Nat) : State :=
  let mt := if ph = s.season.phase then s.power.mt else if s.season.brake then 8 else 0
  let s := { s with
    season := { s.season with phase := ph, sub := sub, time := s.time, retry := false, backoff := 0 },
    power := { s.power with mt := mt } }
  let s := s.logModule 0x0D04 0 none 0x10 0 s.seasonWord
  if (ph = .winter ∨ ph = .fault) ∧ s.season.restart then s.restartOstler else s

/-- No request is pending. -/
def State.clearPend (s : State) : State := { s with season := { s.season with pend := none } }

/-- Every yard at point 0. -/
def State.slowYards (s : State) : State := (List.range 4).foldl (fun s y => s.modYard y (fun x => { x with point := 0 })) s

/-- While PWR_BRAKE_N is low every yard runs at point 0 and mt is at least 8 (R368). -/
def State.applyBrake (s : State) : State :=
  if s.season.brake then
    ({ s with power := { s.power with mt := max s.power.mt 8, braked := true } } : State).slowYards
  else s

/-- Port `k` begins to train where it is enabled (R259, R371). -/
def State.trainPort (s : State) (k : Nat) : State :=
  let s := s.setObj (kPort k 3) 0
  if bit (s.obj (kPort k 2)) 0 then
    s.modPort k (fun x => { x with phase := .training, nextTry := s.clock, backoff := 1000000 })
  else s

/-- The refresh mode for a reading, with the 2 °C of hysteresis on the way down (R247). -/
def refreshFor (mode : Nat) (r : Int) : Nat :=
  if 1520 < r ∨ (mode = 2 ∧ 1488 < r) then 2 else if 1360 < r ∨ (1 ≤ mode ∧ 1328 < r) then 1 else 0

/-- A stack that has trained: ready, its channels freshly calibrated, no scrub pass yet (R249, R252). -/
def Stack.raise (x : Stack) (now : Nat) : Stack :=
  { x with
    phase := .ready, passes := 0, scrub := 0, debt := [], calDue := [], refresh := refreshFor 0 x.temp,
    hot := x.hot || decide (refreshFor 0 x.temp = 2),
    calAt := (List.range 32).foldl (fun m c => FMap.set (fun _ => 0) m c now) [],
    calTemp := (List.range 32).foldl (fun m c => FMap.set (fun _ => 0) m c x.temp) [] }

/-- Spring sub-step `k` raises what it raises (R371); steps that may fail count an attempt (R378). -/
def State.springStart (s : State) (k : Nat) : State :=
  match k with
  | 1 => s.bumpObj (kAttempts 2) 1
  | 2 => s.bumpObj (kAttempts 3) 1
  | 3 => (s.bumpObj (kAttempts 4) 1).slowYards
  | 4 => (List.range 12).foldl (fun s k => s.trainPort k) s
  | 5 => (List.range 12).foldl (fun s k => s.modHbm k (fun x => { x with phase := .training })) (s.bumpObj (kAttempts 5) 1)
  | 6 => s.bumpObj (kAttempts 6) 1
  | _ => s

/-- Spring sub-step `k` begins. -/
def State.enterSpring (s : State) (k : Nat) : State := (s.toSeason .spring k).springStart k

/-- A Spring sub-step that failed is lowered, and repeated after its backoff (R378): with IO_UP the I/O die goes dark, with
RAILS_UP and CLOCKS_UP nothing that State holds but the clocks (State.clocksUp). -/
def State.springFails (s : State) (k : Nat) : State := (if k = 1 then s.ioDark else s).backOff

/-- Autumn sub-step `j` begins (R371, R374). -/
def State.enterAutumn (s : State) (j : Nat) : State :=
  let s := s.clearPend.toSeason .autumn j
  let s := { s with season := { s.season with started := decide (4 ≤ j) } }
  match j with
  | 1 => (List.range 32).foldl (fun s p => if s.partRuns p then s.requestStop p else s) s
  | 2 => { s with season := { s.season with drainAt := s.clock + bits (s.obj kSeasonCfg) 16 16 * 1000000 } }
  | 3 =>
    if bit (s.obj kSeasonCfg) 1 then
      (List.range 32).foldl (fun s p =>
        if mcEnable (s.obj (kMirrorCfg p)) ∧ (s.part p).phase ≠ .free then s.dueNow p else s) s
    else s
  | 4 =>
    ((List.range 32).foldl (fun s p =>
      if (s.part p).phase = .free ∨ (s.part p).phase = .stopped then s
      else s.logModule 0x0D07 2 (some p) 0x10 0 0) s).coreDark
  | 5 => s.portsDown
  | 8 => s.hostReset
  | _ => s

/-- The module enters Summer. -/
def State.enterSummer (s : State) : State :=
  let s := s.clearPend.toSeason .summer 0
  { s with season := { s.season with everSummer := true, started := false } }

/-- The Autumn sub-step that lowers what Spring sub-step `k` raised (R371, R373). -/
def lowers (k : Nat) : Nat := if 5 ≤ k then 4 else 9 - k

/-! ### Requests (R372, R373) -/

/-- An ON or OFF request. -/
def State.request (s : State) (on : Bool) : State :=
  let x := s.season
  match x.phase with
  | .winter => if on ∧ s.flash.booted then s.clearPend.enterSpring 1 else s
  | .spring =>
    if on then s.clearPend
    else if x.retry then s.enterAutumn (lowers x.sub)
    else { s with season := { x with pend := some false } }
  | .summer => if on then s else s.enterAutumn 1
  | .autumn =>
    if on = false then s.clearPend
    else if x.sub ≤ 2 then s.enterSummer
    else { s with season := { x with pend := some true } }
  | _ => s

/-- MOD_EN_EDGE (R356, R372): a debounced edge; ignored as a request while PIN_EN is 0. -/
def execModEnEdge (rising : Bool) (s : State) : Out1 :=
  let s := { s with season := { s.season with modEn := rising } }
  if bit (s.obj kSeasonCfg) 2 ∧ s.flash.booted then .next (s.request rising) else .next s

/-! ### Stored partition configuration (R385) -/

/-- Whether a WEIGHTS value has a field outside 1-255, or a reserved bit (R346). -/
def weightsBad (w : Nat) : Bool := (List.range 3).any (fun i => decide (bits w (8 * i) 8 = 0)) || decide (bits w 24 8 ≠ 0)
/-- Whether a DATA_VL value is no request lane (R278). -/
def laneBad (v : Nat) : Bool := decide (v % 2 = 1 ∨ v = 0 ∨ 14 < v)
/-- Whether reserved bits of HBM_LAYOUT are set (R238). -/
def layReserved (v : Nat) : Bool := decide (bits v 1 7 ≠ 0 ∨ bits v 50 14 ≠ 0)

/-- Apply the store of partition `p`: the status a write would have received, 0 when it applied. -/
def State.applyStore (s : State) (p : Nat) : Nat × State :=
  let v := s.obj (kPartStore p)
  let w := bits v 32 32
  let lay := bits v 64 64
  let ra := bits v 128 8
  let vl := bits v 136 8
  if (w ≠ 0 ∧ weightsBad w) ∨ layBad lay ∨ layReserved lay ∨ 8 < ra ∨ (vl ≠ 0 ∧ laneBad vl) then (4, s)
  else if s.shedsTaken p (bits v 0 32) then (9, s)
  else
    match s.setSheds p (bits v 0 32) with
    | none => (9, s)
    | some t =>
      let t := t.setObj (kRaGranules p) ra
      let t := if w = 0 then t else t.setObj (kWeights p) w
      let t := if vl = 0 then t else t.setObj (kDataVl p) vl
      match t.setLayout p lay with
      | none => (9, s)
      | some t => (0, t)

/-- The stores are applied in ascending p; one that fails leaves its partition free and is logged (R385). -/
def State.applyStores (s : State) : State :=
  (List.range 32).foldl (fun s p =>
    if bits (s.obj (kPartStore p)) 0 32 = 0 then s
    else
      let r := s.applyStore p
      if r.1 = 0 then r.2 else s.logModule 0x0D08 2 (some p) 0x10 0 r.1) s

/-! ### Safe ends (R372, R373) -/

/-- What the end of Spring sub-step `k` brings: `mask` names the stacks that failed training, or the sheds that failed
their test (R378). -/
def State.springEnd (s : State) (k mask : Nat) : State :=
  if k = 5 then
    (List.range 12).foldl (fun s i =>
      s.modHbm i (fun x => if bit mask i then { x with phase := .failed } else x.raise s.clock)) s
  else if k = 6 then { s with season := { s.season with shedFailed := BitVec.ofNat 32 mask } }
  else s

/-- Whether every mirror that started has committed (R374). -/
def State.mirrorsDone (s : State) : Bool := (List.range 32).all (fun p => (s.part p).mirror.idle)

/-- SAFE_END (R371-R374): the pending request is examined, and at the end of a sub-step the next one begins. -/
def execSafeEnd (endOfStep ok : Bool) (mask : Nat) (s : State) : Out1 :=
  let x := s.season
  match x.phase with
  | .spring =>
    if x.retry then (if x.pend = some false then .next (s.enterAutumn (lowers x.sub)) else .next s)
    else if endOfStep = false ∧ x.sub < 5 then .next s
    else
      let failed := endOfStep && !ok && decide (x.sub ≤ 3)
      let s := if endOfStep then s.springEnd x.sub mask else s
      if x.pend = some false then .next (s.enterAutumn (lowers x.sub))
      else if endOfStep = false then .next s
      else if failed then .next (s.springFails x.sub)
      else if x.sub < 6 then .next (s.enterSpring (x.sub + 1))
      else .next s.applyStores.enterSummer
  | .autumn =>
    if x.sub = 2 then
      (if (List.range 32).all (fun p => decide ((s.part p).phase = .free ∨ (s.part p).phase = .stopped)) ∨
          x.drainAt ≤ s.clock then .next (s.enterAutumn 3) else .next s)
    else if x.sub = 3 then
      (if s.mirrorsDone = false then .next s
       else if x.pend = some true then .next s.enterSummer
       else .next (s.enterAutumn 4))
    else if endOfStep = false then .next s
    else
      let s := if x.sub = 8 then s.ioDark else s
      if x.pend = some true then .next (s.clearPend.enterSpring (9 - x.sub))
      else if x.sub = 8 then
        .next ({ s with season := { s.season with started := false } }.toSeason .winter 0)
      else .next (s.enterAutumn (x.sub + 1))
  | _ => .next s

/-! ### Power good and power loss (R358, R377, R397) -/

/-- The module without power: what flash holds stays, a write whose commit word was not written stays invalid (R379), and the
pins keep their levels. -/
def State.cold (s : State) : State :=
  { State.reset with
    pending := s.pending, flash := { s.flash with booted := false, dirty := none, commits := [] }, free := s.free, ctr := s.ctr,
    out := s.out, host := { State.reset.host with perst := s.host.perst },
    season := { State.reset.season with modEn := s.season.modEn, recoveryN := s.season.recoveryN,
                                        flashWpN := s.season.flashWpN, brake := s.season.brake } }

/-- POWER_LOSS (R358): below 30 V the ostler stops and the module is off. -/
def execPowerLoss (s : State) : Out1 := .next s.cold

/-- Once the ostler runs it takes an ON request, or the module waits in Winter (R377). -/
def State.startUp (s : State) : State :=
  let c := s.obj kSeasonCfg
  if s.flash.booted = false then s
  else if bit c 0 ∧ (bit c 2 = false ∨ s.season.modEn) then s.enterSpring 1
  else s.toSeason .winter 0

/-- POWER_GOOD (R368, R377, R382, R384): the ostler loads the persistence bank and its firmware; a brake that is low
already takes effect. -/
def execPowerGood (modEn recoveryN flashWpN : Bool) (s : State) : Out1 :=
  if s.season.phase ≠ .noPower then .next s
  else
    let s := s.cold
    let s := ({ s with
      season := { s.season with phase := .winter, modEn := modEn, recoveryN := recoveryN, flashWpN := flashWpN } } : State).loadBank
    let s := (s.bumpObj kPowerGoodCount 1).markDirty kPowerGoodCount
    .next ((s.setObj kFlogSelect s.flash.faultSeq).loadFirmware.startUp.applyBrake)

/-- RETRY_BACKOFF_EXPIRY (R378): the failed step is tried again. -/
def execRetryBackoffExpiry (s : State) : Out1 :=
  let x := s.season
  if x.retry = false ∨ s.clock < x.retryAt then .next s
  else
    let s := { s with season := { x with retry := false } }
    if s.flash.booted = false then .next s.loadFirmware.startUp
    else .next (s.springStart x.sub)

/-- BACKGROUND_RETRY (R378): a failed stack is trained again, or a failed shed tested again. -/
def execBackgroundRetry (stack : Bool) (k : Nat) (ok : Bool) (s : State) : Out1 :=
  let up := decide (s.season.phase = .summer) || decide (s.season.phase = .spring ∧ s.season.sub = 6) ||
    decide (s.season.phase = .autumn ∧ s.season.sub ≤ 3)
  if (if stack then 12 else 32) ≤ k then .fault .noSuchUnit
  else if up = false then .next s
  else if stack then
    if (s.hbm k).phase ≠ .failed then .next s
    else
      let s := s.bumpObj (kAttempts 5) 1
      if ok then
        .next ({ s with mem := s.mem.filter (fun e => !(isHbm e.1 && decide (engineOf e.1 / 32 = k))),
                        ecc := s.ecc.filter (fun e => !(isHbm (32 * e.1) && decide (engineOf (32 * e.1) / 32 = k))) }.modHbm k
          (fun x => x.raise s.clock))
      else .next s
  else if s.season.shedFailed.getLsbD k = false then .next s
  else
    let s := s.bumpObj (kAttempts 6) 1
    if ok then .next { s with season := { s.season with shedFailed := s.season.shedFailed &&& ~~~(BitVec.ofNat 32 (2 ^ k)) } } else .next s

/-! ### Fault (R375, R381, R396, R398) -/

/-- The last 64 entries of the module log, oldest first. -/
def State.lastLog (s : State) : List Byte :=
  let l := s.log 0
  let n := min l.next 64
  (List.range n).flatMap (fun i =>
    toBytes 32 (FMap.get (fun _ => (0 : BitVec 256)) l.slots ((l.next - n + i) % 16384)).toNat)

/-- The fault record with RECORD_SEQ `seq`, but for its COMMIT (R398): `before` holds STATE and SUBSTEP before the Fault. -/
def State.faultRecord (s : State) (seq before cause sensor : Nat) (reading : Int) : List Byte :=
  let head := toBytes 4 1 ++ toBytes 4 seq ++ toBytes 8 s.time ++ toBytes 4 (s.obj kPowerGoodCount) ++ toBytes 1 cause ++
    toBytes 1 before ++ toBytes 2 sensor ++ toBytes 2 (ofInt 16 reading) ++ toBytes 2 s.power.vin ++
    toBytes 2 (s.power.avg / 1000000) ++ zeros 2 ++
    (List.range 4).flatMap (fun y => toBytes 2 (ofInt 16 (s.yard y).temp)) ++
    (List.range 12).flatMap (fun k => toBytes 2 (ofInt 16 (s.hbm k).temp)) ++
    (List.range 12).flatMap (fun k => toBytes 4 (s.obj (kStack k 2)) ++ toBytes 4 (s.obj (kStack k 3)) ++
      toBytes 4 (s.obj (kStack k 4)) ++ toBytes 4 (s.stackState k)) ++
    (List.range 12).flatMap (fun k => toBytes 4 (s.obj (kPort k 6)) ++ toBytes 4 (s.obj (kPort k 4)) ++
      toBytes 4 (s.obj (kPort k 5)) ++ toBytes 4 (s.portState k)) ++
    (List.range 32).flatMap (fun p => toBytes 4 (s.partState p) ++ toBytes 4 (s.obj (kNanCount p)) ++
      toBytes 8 (s.stepOf p)) ++
    toBytes 8 s.energyMj
  slice (slice head 0 1024 ++ s.lastLog) 0 4064

/-- The module enters Fault at once: log, record, rails and links down (R375, R397, R398). -/
def State.enterFault (s : State) (cause sensor : Nat) (reading : Int) : State :=
  if s.season.phase = .noPower ∨ s.season.phase = .fault then s
  else
    let before := s.seasonWord % 2 ^ 7
    let s := s.logModule 0x0D05 3 none 0x10 0 (cause + (sensor % 2 ^ 16) * 2 ^ 16)
    let s := { s with season := { s.season with pend := none, cause := cause, faultClear := false, started := false,
                                                trip := s.season.trip || decide (cause = 1) } }
    let r := s
    let s := s.toSeason .fault 0
    let s := s.finishFlash
    let seq := (s.flash.faultSeq + 1) % 2 ^ 32
    let s := s.recordFault seq (({ r with logs := s.logs } : State).faultRecord seq before cause sensor reading)
    s.coreDark.portsDown.ioDark

/-- FAULT_ENTER (R373, R375): a thermal trip or an unrecoverable error, with its cause. -/
def execFaultEnter (cause sensor : Nat) (reading : Int) (s : State) : Out1 :=
  if 1 ≤ cause ∧ cause ≤ 4 then .next (s.enterFault cause sensor reading) else .next s

/-- VIN_LOW (R358): VIN below 38 V for 50 µs. -/
def execVinLow (s : State) : Out1 := .next (s.enterFault 3 0 0)

/-- UNOWNED_STATE_ERROR (R396): an uncorrectable error in state that no partition owns. -/
def execUnownedStateError (s : State) : Out1 := .next (s.enterFault 4 0 0)

/-- FAULT_EXIT (R375, R398): FAULT_CLEAR completes once the fault record is complete, and the module enters Winter. -/
def execFaultExit (s : State) : Out1 :=
  let cool := s.power.temps.all (fun t => decide (t < 1520)) &&
    (List.range 12).all (fun k => decide ((s.hbm k).temp < 1520))
  if s.season.phase ≠ .fault ∨ s.season.faultClear = false ∨ cool = false ∨ s.power.regOk = false ∨
     s.power.vin < 40000 ∨ 60000 < s.power.vin ∨ s.flash.recorded = false then .next s
  else
    let s := { s with season := { s.season with faultClear := false, trip := false, cause := 0 } }
    .next (s.toSeason .winter 0)

/-- SHED_PARITY (R396): an uncorrectable error in the state of shed `k`: its partition halts, the shed is marked failed. -/
def execShedParity (k : Nat) (s : State) : Out1 :=
  if 32 ≤ k then .fault .noSuchUnit
  else
    let s := { s with season := { s.season with shedFailed := s.season.shedFailed ||| BitVec.ofNat 32 (2 ^ k) } }
    match s.owner k with
    | none => .next s
    | some p =>
      let s := s.logModule 0x0D0B 3 (some p) 0 k 0
      .next (if s.partRuns p then s.beginStop p true else s)

/-- STACK_TEMPERATURE_READ (R247, R249): the highest reading on stack `k` sets its refresh mode, or trips the module. -/
def execStackTemperatureRead (k : Nat) (reading : Int) (s : State) : Out1 :=
  if 12 ≤ k then .fault .noSuchUnit
  else if s.season.phase = .noPower then .next s
  else
    let s := s.modHbm k (fun x => { x with temp := reading })
    if 1680 < reading then .next (s.enterFault 1 (k + 0x12 * 2 ^ 8) reading)
    else if (s.hbm k).phase ≠ .ready then .next s
    else
      let mode := refreshFor (s.hbm k).refresh reading
      .next (s.modHbm k (fun x =>
        { x with refresh := mode, hot := x.hot || decide (mode = 2 ∧ x.refresh ≠ 2) }.markDue s.clock))

/-! ### Pins -/

/-- PERST_N (R357): assertion resets the host port and changes nothing else. -/
def execPerstN (asserted : Bool) (s : State) : Out1 :=
  let s := if asserted then s.hostReset else s
  .next { s with host := { s.host with perst := asserted } }

/-- ALERT_N is low (R356): a module log entry is unread, or the module is in Fault. -/
def State.alertN (s : State) : Bool := !(decide ((s.log 0).ack < (s.log 0).next) || decide (s.season.phase = .fault))
/-- FAULT_N is low in Fault (R356). -/
def State.faultN (s : State) : Bool := !(decide (s.season.phase = .fault))
/-- THERMTRIP_N is low from a thermal Fault until FAULT_CLEAR completes (R356). -/
def State.thermtripN (s : State) : Bool := !s.season.trip
/-- SEASON_IND shows STATE (R356). -/
def State.seasonInd (s : State) : Nat := seasonCode s.season.phase

end Sys2Proof.Machine
end

