-- ==== Sys2Proof/Machine/Power.lean ====
section
/-!
DEFINITION. Power measurement, the cap loop, sensors, the thermal ceiling, droop and the power brake (R360, R361, R364-R370).
-/

namespace Sys2Proof.Machine

/-- Lower or raise every yard that `who` picks by one point. -/
def State.movePoints (s : State) (who : Nat → Bool) (f : Nat → Nat) : State :=
  (List.range 4).foldl (fun s y => if who y then s.modYard y (fun x => { x with point := f x.point }) else s) s

/-- No yard stays above its ceiling (R365). -/
def State.clampPoints (s : State) : State :=
  (List.range 4).foldl (fun t y => t.modYard y (fun x => { x with point := min x.point (s.ceilOf y) })) s

/-- The cap loop, after each sample (R365). -/
def State.capLoop (s : State) : State :=
  let cap := s.obj kPowerCap
  let target := cap - ceilDiv cap 100
  let w := s.power
  let n := max w.samples.length 1
  let sum := w.samples.sum
  let above := decide (target * 1000000 < w.samples.getLastD 0) || decide (target * 1000000 * n < sum)
  let low := decide (sum < (cap - cap / 20) * 1000000 * n)
  let below := if low then w.below + 1 else 0
  let s := { s with power := { w with below := below } }
  let s :=
    if above then
      if (List.range 4).any (fun y => decide (0 < (s.yard y).point)) then
        { s with power := { s.power with capped := true } }.movePoints (fun y => decide (0 < (s.yard y).point)) (· - 1)
      else if w.mt < 12 then { s with power := { s.power with mt := w.mt + 1, throttled := true } }
      else s
    else if low ∧ 10 ≤ below then
      let s := { s with power := { s.power with below := 0 } }
      if 0 < w.mt then { s with power := { s.power with mt := w.mt - 1 } }
      else s.movePoints (fun y => decide ((s.yard y).point < s.ceilOf y)) (· + 1)
    else s
  s.clampPoints

/-- POWER_SAMPLE (R364, R365): input voltage in mV and current in mA; the sample is their product. -/
def execPowerSample (vin iin : Nat) (s : State) : Out1 :=
  if s.season.phase = .noPower then .next s
  else
    let w := s.power
    let xs := w.samples ++ [vin * iin]
    let s := { s with power := { w with vin := vin, energy := w.energy + vin * iin, samples := xs.drop (xs.length - 10) } }
    let cap := s.obj kPowerCap
    let exceeded := decide (cap * 1000000 * s.power.samples.length < s.power.samples.sum)
    let s :=
      if exceeded then
        { s with power := { s.power with exceeded := true } }.logModule 0x0D06 1 none 0x10 0 (s.power.avg / 1000000)
      else s
    .next (if s.clocksUp then s.capLoop.applyBrake else s)

/-- SENSOR_READ (R360): the highest junction reading of each yard, the highest of the other die sensors, and whether a
regulator reports a fault. -/
def execSensorRead (yards : List Int) (other : Int) (regFault : Bool) (s : State) : Out1 :=
  if s.season.phase = .noPower then .next s
  else
    let t : Nat → Int := fun y => yards.getD y 0
    let s := (List.range 4).foldl (fun s y => s.modYard y (fun x =>
      let cool := decide (t y < 1552)
      { x with temp := t y, cool := cool, coolAt := if cool && !x.cool then s.clock else x.coolAt })) s
    let s := { s with power := { s.power with temps := (List.range 4).map t ++ [other], regOk := !regFault } }
    match (List.range 4).find? (fun y => decide (1680 < t y)) with
    | some y => .next (s.enterFault 1 (y + 0x15 * 2 ^ 8) (t y))
    | none =>
      if 1680 < other then .next (s.enterFault 1 (4 + 0x15 * 2 ^ 8) other)
      else if regFault then .next (s.enterFault 2 (0x14 * 2 ^ 8) 0)
      else .next s

/-- THERMAL_CEILING_UPDATE (R361): falls by one each 1 ms while a sensor of the yard reads 100 °C or more, rises by one each
10 ms while all read below 97 °C. -/
def execThermalCeilingUpdate (y : Nat) (s : State) : Out1 :=
  if 4 ≤ y then .fault .noSuchUnit
  else
    let x := s.yard y
    if 1600 ≤ x.temp then
      if s.clock < x.hotAt + 1000000 then .next s
      else .next (s.setYard y { x with ceil := x.ceil - 1, hotAt := s.clock }).clampPoints
    else if x.temp < 1552 ∧ x.coolAt + 10000000 ≤ s.clock ∧ x.ceil < s.obj (kMaxPoint y) then
      .next (s.setYard y { x with ceil := x.ceil + 1, coolAt := s.clock })
    else .next s

/-- DROOP (R367): the yard's clock falls by one step, not below point 0, and the droop is counted. -/
def execDroop (y : Nat) (s : State) : Out1 :=
  if 4 ≤ y then .fault .noSuchUnit
  else if s.clocksUp = false then .next s
  else
    let s := s.bumpObj (kDroopCount y) 1
    .next (s.modYard y (fun x => { x with droop := if x.droop < x.point then x.droop + 1 else x.droop, droopAt := s.clock }))

/-- DROOP_RESTORE (R367): after 1 µs with no further droop one step is restored. -/
def execDroopRestore (y : Nat) (s : State) : Out1 :=
  if 4 ≤ y then .fault .noSuchUnit
  else
    let x := s.yard y
    if x.droop = 0 ∨ s.clock < x.droopAt + 1000 ∨ s.clocksUp = false then .next s
    else .next (s.setYard y { x with droop := x.droop - 1, droopAt := s.clock })

/-- PWR_BRAKE (R368): the level of PWR_BRAKE_N; on release the cap loop goes on from where it stands. -/
def execPwrBrake (low : Bool) (s : State) : Out1 :=
  let s := { s with season := { s.season with brake := low } }
  .next (if s.season.phase = .noPower then s else s.applyBrake)

end Sys2Proof.Machine
end

