-- ==== Sys2Proof/Machine/Dictionary.lean ====
section
/-!
DEFINITION. The object dictionary: which objects there are, their types, fields and access classes (R10, R323-R325), whose
partition they belong to (R327), and how each reads.
-/

namespace Sys2Proof.Machine

/-! ### Object definitions (R323) -/

/-- Types that differ in how a message carries them (R323): a number of fixed size, a BLOB, a STR. -/
inductive OKind where
  | num | blob | str
  deriving DecidableEq, Repr

/-- What the dictionary knows of an object: its size in bytes, and the masks of its reserved, RO, W1C and W1S bits; every
other bit is written by software. -/
structure ObjDef where
  kind : OKind
  size : Nat
  rsv  : Nat
  ro   : Nat
  w1c  : Nat
  w1s  : Nat
  rws  : Bool                    -- a write needs a lease (R328)
  all  : Bool                    -- RO as a whole
  deriving DecidableEq, Repr

/-- The mask of bits [hi:lo] for each pair (hi, lo). -/
def mask (fs : List (Nat × Nat)) : Nat := (fs.map (fun f => 2 ^ (f.1 + 1) - 2 ^ f.2)).sum

def oRo (n : Nat) : ObjDef := { kind := .num, size := n, rsv := 0, ro := 0, w1c := 0, w1s := 0, rws := false, all := true }
def oBlobRo (n : Nat) : ObjDef := { oRo n with kind := .blob }
def oStr : ObjDef := { oRo 256 with kind := .str }
def oRws (n : Nat) (rsv : List (Nat × Nat) := []) : ObjDef := { oRo n with rsv := mask rsv, rws := true, all := false }
def oBlob (n : Nat) (rsv : List (Nat × Nat) := []) : ObjDef := { oRws n rsv with kind := .blob }
/-- An object whose only writable bits are W1C. -/
def oW1c (n : Nat) (w1c rsv ro : List (Nat × Nat)) : ObjDef :=
  { oRo n with all := false, w1c := mask w1c, rsv := mask rsv, ro := mask ro }
/-- An object whose only writable bits are W1S. -/
def oW1s (n : Nat) (w1s rsv : List (Nat × Nat)) : ObjDef := { oRo n with all := false, w1s := mask w1s, rsv := mask rsv }
/-- A 48-bit count with WRAP (R217, R292, R387). -/
def oCount : ObjDef := oW1c 8 [(63, 63)] [(62, 48)] [(47, 0)]

/-- Objects of partition p at 0x2000 + p (R61, R64, R94, R132, R161, R184, R191, R222, R225, R231, R238, R241, R346, R392). -/
def partObj (sub : Nat) : Option ObjDef :=
  if 0x40 ≤ sub ∧ sub ≤ 0x5F then
    some (oW1c 8 [(6, 6)] [(7, 7), (63, 50)] [(5, 0), (49, 8)])
  else if 0x70 ≤ sub ∧ sub ≤ 0x8F then
    some (oW1c 8 [(50, 48)] [(15, 15), (31, 29), (47, 44), (63, 51)] [(14, 0), (28, 16), (43, 32)])
  else if 0x90 ≤ sub ∧ sub ≤ 0xAF then
    some (oW1c 8 [(12, 10)] [(7, 7), (15, 13), (63, 42)] [(6, 0), (9, 8), (41, 16)])
  else match sub with
    | 0x00 => some (oW1c 4 [(5, 3)] [(31, 6)] [(2, 0)])
    | 0x01 => some (oW1s 4 [(1, 0)] [(31, 2)])
    | 0x02 => some (oRws 4)
    | 0x03 => some (oRws 4 [(31, 24)])
    | 0x04 => some (oRws 8)
    | 0x05 => some (oBlobRo 16)
    | 0x06 => some (oRws 4 [(31, 1)])
    | 0x08 => some (oRws 8)
    | 0x09 => some (oRws 4)
    | 0x0A => some (oRws 8)
    | 0x0B => some (oRws 4)
    | 0x0C => some (oRws 4 [(7, 1)])
    | 0x0D => some (oRws 4)
    | 0x30 => some (oBlobRo 32)
    | 0x31 => some (oRws 4)
    | 0x32 => some { oRws 4 [(31, 3)] with w1s := mask [(2, 2)] }
    | 0x60 => some (oBlobRo 32)
    | 0x61 => some (oRws 4)
    | 0x62 => some (oW1s 4 [(0, 0)] [(31, 1)])
    | 0xB0 => some (oRws 4 [(31, 3)])
    | 0xB1 => some (oRws 1)
    | 0xB2 => some (oRws 4)
    | 0xB3 => some (oRws 4)
    | 0xC0 => some (oRws 4 [(31, 7)])
    | 0xC1 => some (oRws 4 [(3, 2), (31, 8)])
    | 0xC2 => some (oW1c 8 [(2, 0)] [(15, 3), (47, 42)] [(41, 16), (63, 48)])
    | 0xD0 => some (oRws 8 [(7, 1), (63, 50)])
    | 0xD1 => some (oBlobRo granMapSize)
    | 0xE0 => some (oRo 8)
    | 0xE1 => some (oRws 8)
    | 0xE2 => some (oRws 4)
    | 0xE3 => some (oBlobRo 32768)
    | _ => none

/-- Training objects at 0x2400 + p (R295-R321). -/
def trainObj (sub : Nat) : Option ObjDef :=
  if 0x10 ≤ sub ∧ sub ≤ 0x2F then some { oBlob 64 [(7, 4), (63, 24), (511, 320)] with ro := mask [(2, 2)] }
  else match sub with
    | 0x00 => some (oBlob 48 [(31, 17), (191, 160)])
    | 0x01 => some (oRws 4)
    | 0x02 => some (oRws 4)
    | 0x03 => some (oRws 4 [(1, 1)])
    | 0x04 => some (oRws 8)
    | 0x05 => some (oRws 8)
    | 0x06 => some (oBlobRo 32)
    | 0x07 => some (oW1c 4 [(10, 8)] [(7, 3), (15, 11)] [(2, 0), (31, 16)])
    | 0x08 => some (oRws 4)
    | 0x09 => some (oRws 4)
    | 0x0A => some (oBlob 16)
    | 0x0B => some (oBlobRo 32)
    | 0x0C => some (oRo 8)
    | 0x40 => some (oBlob 64 [(7, 1), (31, 14), (127, 86), (511, 320)])
    | 0x41 => some (oW1s 4 [(0, 0)] [(31, 1)])
    | 0x42 => some (oW1c 8 [(4, 3)] [(63, 6)] [(2, 0), (5, 5)])
    | 0x43 => some (oRo 8)
    | 0x44 => some (oRo 8)
    | 0x50 => some (oRo 4)
    | _ => none

/-- Objects of ports, fabric, stacks and tables (R198, R213, R217, R231, R241, R250, R252, R277, R278, R283, R292, R294). -/
def unitObj (idx sub : Nat) : Option ObjDef :=
  if 0x2100 ≤ idx ∧ idx ≤ 0x210B then
    (match sub with
     | 0x00 => some (oW1c 4 [(4, 4)] [(31, 5)] [(3, 0)])
     | 0x01 => some (oRo 4)
     | 0x02 => some (oRws 4 [(31, 1)])
     | 0x0B => some oCount
     | 0x0C => some oCount
     | n => if n ≤ 0x0A then some (oRws 4) else none)
  else if idx = 0x2110 then
    (match sub with
     | 0x00 => some (oRws 4 [(31, 17)])
     | 0x01 => some (oRws 4 [(31, 18)])
     | 0x02 => some (oRws 8 [(63, 48)])
     | 0x03 => some (oBlob 131072)
     | 0x04 => some (oRws 4)
     | 0x05 => some (oRws 4)
     | 0x06 => some (oRws 4 [(31, 18)])
     | 0x07 => some (oRo 8)
     | 0x08 => some (oRo 4)
     | 0x09 => some (oRws 4)
     | 0x0A => some (oRws 4 [(31, 1)])
     | _ => none)
  else if 0x2140 ≤ idx ∧ idx ≤ 0x215F then
    (if sub ≤ 0x0F then some (oBlob 16 [(127, 74)]) else if sub = 0x10 then some (oRws 1) else none)
  else if 0x2160 ≤ idx ∧ idx ≤ 0x217F then (if sub ≤ 63 then some (oBlobRo 128) else none)
  else if 0x2200 ≤ idx ∧ idx ≤ 0x220B then
    (match sub with
     | 0x00 => some (oW1c 4 [(4, 4)] [(31, 5)] [(3, 0)])
     | 0x01 => some (oRo 2)
     | 0x08 => some (oRo 4)
     | 0x09 => some (oRo 4)
     | 0x0A => some (oBlobRo 16)
     | n => if n ≤ 0x07 then some (oRws 4) else none)
  else if idx = 0x22F0 ∧ sub = 0 then some (oRws 4 [(31, 5)])
  else if idx = 0x22F1 ∧ sub = 0 then some (oRo 8)
  else if 0x2300 ≤ idx ∧ idx ≤ 0x231F then
    some { oBlob 32 [(95, 86), (255, 192)] with ro := mask [(83, 0), (85, 85), (191, 176)] }
  else if 0x2320 ≤ idx ∧ idx ≤ 0x233F then some oCount
  else if 0x2340 ≤ idx ∧ idx ≤ 0x234B then (if sub < 32 then some oCount else none)
  else if 0x2360 ≤ idx ∧ idx ≤ 0x237F then some (oBlobRo 1024)
  else if idx = 0x23A0 ∨ (idx = 0x23A1 ∧ sub < 128) then some (oW1c 8 [(15, 15)] [(14, 9)] [(8, 0), (63, 16)])
  else none

/-- Objects of the module (R325, R327, R328, R333, R363, R369, R370, R376, R378, R383-R387, R392, R399). -/
def moduleObj (idx sub : Nat) : Option ObjDef :=
  match idx with
  | 0x1000 => if sub ≤ 1 then some oStr else if sub ≤ 4 then some (oRo 4) else none
  | 0x1100 => if sub ≤ 0x20 then some (oBlobRo 32) else if sub = 0x21 then some (oRws 4) else none
  | 0x1110 =>
    (match sub with
     | 0x00 => some (oRws 2)
     | 0x01 => some (oRws 4 [(31, 2)])
     | 0x02 => some (oRws 4)
     | 0x03 => some (oRws 1)
     | 0x04 => some (oBlob 16)
     | 0x05 => some (oRws 1)
     | 0x06 => some (oBlobRo 6)
     | 0x07 => some (oRo 4)
     | 0x08 => some (oRws 4)
     | _ => none)
  | 0x1200 =>
    (match sub with
     | 0x00 => some (oRo 4)
     | 0x01 => some { oW1s 4 [(2, 0)] [(31, 3)] with rws := true }
     | 0x02 => some (oRws 4 [(15, 3)])
     | 0x03 => some (oRo 4)
     | 0x04 => some (oRo 8)
     | _ => none)
  | 0x1201 => if 1 ≤ sub ∧ sub ≤ 7 then some (oRws 4) else none
  | 0x1202 =>
    (match sub with
     | 0x00 => some (oRws 2)
     | 0x01 => some (oRo 2)
     | 0x02 => some (oRo 2)
     | 0x03 => some (oW1c 4 [(11, 8)] [(7, 6), (31, 12)] [(5, 0)])
     | _ => none)
  | 0x1300 => if sub = 0 ∨ sub = 2 then some (oRo 8) else if sub = 1 ∨ sub = 3 then some (oRo 4) else none
  | 0x1310 => if sub < 16 then some oCount else none
  | 0x1311 => if sub < 16 then some (oRws 4 [(31, 7)]) else none
  | 0x3000 =>
    (match sub with
     | 0x00 => some (oRo 8)
     | 0x01 => some (oRws 8)
     | 0x02 => some (oRws 4)
     | 0x03 => some (oRws 4 [(31, 3)])
     | _ => none)
  | 0x3001 => if sub = 0 then some (oBlobRo 524288) else none
  | 0x3200 => if sub = 0 then some (oRo 8) else if sub = 1 then some (oRws 4) else if sub = 2 then some (oBlobRo 4096) else none
  | 0x4000 =>
    (match sub with
     | 0x00 => some (oRws 4 [(31, 2)])
     | 0x01 => some (oRo 4)
     | 0x02 => some (oBlob slotSize)
     | 0x03 => some (oW1s 4 [(1, 0)] [(31, 2)])
     | 0x04 => some (oRo 8)
     | _ => none)
  | _ =>
    if 0x1204 ≤ idx ∧ idx ≤ 0x1207 then
      (match sub with
       | 0x00 => some (oRo 4)
       | 0x01 => some (oRws 1)
       | 0x02 => some (oRo 2)
       | 0x03 => some (oRws 4)
       | _ => none)
    else if 0x4010 ≤ idx ∧ idx ≤ 0x402F then (if sub = 0 then some (oBlob 32 [(255, 144)]) else none)
    else if 0x5000 ≤ idx ∧ idx ≤ 0x5003 then (if sub < 16 then some (oRo 8) else if sub = 0x10 then some (oRo 4) else none)
    else none

/-- The object at an index and subindex; none is unknown (R324). -/
def objDef (idx sub : Nat) : Option ObjDef :=
  if idx < 0x2000 ∨ 0x3000 ≤ idx then moduleObj idx sub
  else if idx ≤ 0x201F then partObj sub
  else if 0x2400 ≤ idx ∧ idx ≤ 0x241F then trainObj sub
  else unitObj idx sub

/-- The partition an object belongs to (R327). -/
def objPart (idx sub : Nat) : Option Nat :=
  if 0x2340 ≤ idx ∧ idx ≤ 0x234B then (if sub < 32 then some sub else none)
  else [0x2000, 0x2140, 0x2160, 0x2300, 0x2320, 0x2360, 0x2400].findSome? (fun b =>
    if b ≤ idx ∧ idx < b + 32 then some (idx - b) else none)

/-! ### Reading (R325) -/

/-- The bytes of an identity string (R325): PART_NUMBER, or the fused SERIAL of up to 16 characters. -/
def identity (sub : Nat) : List Byte :=
  if sub = 0 then "MW-G8M-768".toList.map (fun c => BitVec.ofNat 8 c.toNat)
  else (List.range (Config.fused (objKey 0x1000 1) % 17)).map
    (fun i => BitVec.ofNat 8 (Config.fused (objKey 0x1000 1 * 16 + i) % 128))

/-- FW_VERSION (R325): the header's VERSION of the running slot. -/
def State.fwVersion (s : State) : Nat := s.flash.slotVersion s.flash.running

/-- Objects of partition p that are formed from its state. -/
def State.partValue (s : State) (p sub : Nat) : Nat :=
  if 0x40 ≤ sub ∧ sub ≤ 0x5F then (if s.owns p (sub - 0x40) then s.mxaStatus (sub - 0x40) else 0)
  else if 0x70 ≤ sub ∧ sub ≤ 0x8F then (if s.owns p (sub - 0x70) then s.groomStatus (sub - 0x70) else 0)
  else if 0x90 ≤ sub ∧ sub ≤ 0xAF then (if s.owns p (sub - 0x90) then s.samplerStatus (sub - 0x90) else 0)
  else match sub with
    | 0x00 => s.partState p
    | 0x01 => s.partCtrl p
    | 0x02 => (s.part p).sheds.toNat
    | 0x32 => s.obj (kNanTrap p) % 4
    | 0xC2 => s.reStatusWord p
    | 0xE0 => (s.log (p + 1)).next
    | 0xE1 => (s.log (p + 1)).ack
    | 0xE2 => (s.log (p + 1)).lost
    | _ => s.obj (pkey p sub)

/-- Training objects of partition p that are formed from its state. -/
def State.trainValue (s : State) (p sub : Nat) : Nat :=
  match sub with
  | 0x07 => s.trainStatus p
  | 0x41 => b2n (s.part p).mirror.now
  | 0x42 => s.mirrorStatus p
  | _ => s.obj (tkey p sub)

/-- Objects of units. -/
def State.unitValue (s : State) (idx sub : Nat) : Nat :=
  if idx ≤ 0x210B then
    let x := s.port (idx - 0x2100)
    (match sub with
     | 0x00 => s.portState (idx - 0x2100)
     | 0x01 => x.partner
     | 0x0B => word [(0, x.txBytes), (63, b2n x.txWrap)]
     | 0x0C => word [(0, x.rxBytes), (63, b2n x.rxWrap)]
     | _ => s.obj (objKey idx sub))
  else if idx = 0x2110 then
    (match sub with
     | 0x07 => s.timeStatus
     | 0x08 => s.fabric.tags.length
     | _ => s.obj (objKey idx sub))
  else if 0x2200 ≤ idx ∧ idx ≤ 0x220B then
    let x := s.hbm (idx - 0x2200)
    (match sub with
     | 0x00 => s.stackState (idx - 0x2200)
     | 0x01 => ofInt 16 x.temp
     | 0x08 => x.passes
     | 0x09 => s.scrubPos (idx - 0x2200)
     | 0x0A => x.lastUe.toNat
     | _ => s.obj (objKey idx sub))
  else if idx = 0x22F1 then s.freeFrames
  else if 0x2300 ≤ idx ∧ idx ≤ 0x231F then s.tableWord (idx - 0x2300) sub
  else if idx = 0x23A0 ∨ idx = 0x23A1 then s.engineStatus ((idx - 0x23A0) * 256 + sub)
  else s.obj (objKey idx sub)

/-- Objects of the module. -/
def State.moduleValue (s : State) (idx sub : Nat) : Nat :=
  let k := objKey idx sub
  match idx with
  | 0x1000 => if sub = 2 then Config.fused k % 2 ^ 24 else if sub = 3 then s.fwVersion else 1
  | 0x1100 => if sub ≤ 0x20 then s.semWord sub else s.obj k
  | 0x1110 => if sub = 6 then Config.fused k % 2 ^ 48 else if sub = 7 then b2n s.host.mgmtUp else s.obj k
  | 0x1200 =>
    (match sub with
     | 0x00 => s.seasonWord
     | 0x01 => 4 * b2n s.season.faultClear
     | 0x03 => s.season.shedFailed.toNat
     | 0x04 => s.season.time
     | _ => s.obj k)
  | 0x1202 =>
    (match sub with
     | 0x01 => s.power.avg / 1000000
     | 0x02 => s.power.vin
     | 0x03 => s.capStatus
     | _ => s.obj k)
  | 0x1300 => (match sub with | 0x00 => s.time | 0x01 => s.tickNow | 0x02 => s.energyMj | _ => s.obj k)
  | 0x1310 => s.perfWord sub
  | 0x3000 => (match sub with | 0x00 => (s.log 0).next | 0x01 => (s.log 0).ack | 0x02 => (s.log 0).lost | _ => s.obj k)
  | 0x3200 => if sub = 0 then s.flash.faultSeq + s.flash.records.length * 2 ^ 32 else s.obj k
  | 0x4000 =>
    (match sub with
     | 0x01 => s.fwStatus
     | 0x03 => 2 * b2n s.season.restart
     | 0x04 => s.persistStatus
     | _ => s.obj k)
  | _ =>
    if 0x1204 ≤ idx ∧ idx ≤ 0x1207 then
      (if sub = 0 then s.yardPoint (idx - 0x1204) else if sub = 2 then ofInt 16 (s.yard (idx - 0x1204)).temp else s.obj k)
    else if 0x5000 ≤ idx ∧ idx ≤ 0x5003 then (if sub < 16 then vfPoint (idx - 0x5000) sub else vfCrc (idx - 0x5000))
    else s.obj k

/-- The value of an object that is a number or a BLOB of up to 128 bytes. -/
def State.valueOf (s : State) (idx sub : Nat) : Nat :=
  if idx < 0x2000 ∨ 0x3000 ≤ idx then s.moduleValue idx sub
  else if idx ≤ 0x201F then s.partValue (idx - 0x2000) sub
  else if 0x2400 ≤ idx then s.trainValue (idx - 0x2400) sub
  else s.unitValue idx sub

/-- `n` bytes of an object from offset `off` (R325). -/
def State.objBytes (s : State) (d : ObjDef) (idx sub off n : Nat) : List Byte :=
  if d.kind = .str then identity sub
  else if idx = 0x3001 then (s.log 0).bytes off n
  else if idx = 0x3200 ∧ sub = 2 then slice s.selectedRecord off n
  else if idx = 0x4000 ∧ sub = 2 then s.flash.bytes (slotBase s.flash.other + off) n
  else if idx = 0x2110 ∧ sub = 3 then (List.range n).map (fun i => BitVec.ofNat 8 (s.routeByte (off + i)))
  else if 0x2000 ≤ idx ∧ idx ≤ 0x201F ∧ sub = 0xD1 then slice (s.granuleMap (idx - 0x2000)) off n
  else if 0x2000 ≤ idx ∧ idx ≤ 0x201F ∧ sub = 0xE3 then (s.log (idx - 0x2000 + 1)).bytes off n
  else if 0x2360 ≤ idx ∧ idx ≤ 0x237F then
    slice (hotBytes (FMap.get (fun _ => []) (s.part (idx - 0x2360)).hot sub)) off n
  else slice (toBytes d.size (s.valueOf idx sub)) off n

/-- Reading HOT_ROWS restarts its count (R213). -/
def State.afterRead (s : State) (idx sub : Nat) : State :=
  if 0x2360 ≤ idx ∧ idx ≤ 0x237F then
    s.modPart (idx - 0x2360) (fun x => { x with hot := FMap.set (fun _ => []) x.hot sub [] })
  else s

end Sys2Proof.Machine
end

