-- ==== Sys2Proof/Machine/Writes.lean ====
section
/-!
DEFINITION. What a write of each object does: its own rules and its effect (R10, R295, R325, R331, R346, R347, R400 step 11,
and the rule of each object).
-/

namespace Sys2Proof.Machine

/-- STATUS values (R331). -/
def stUnknown : Nat := 1
def stAccess : Nat := 2
def stNoLease : Nat := 3
def stInvalid : Nat := 4
def stNotYet : Nat := 5
def stRunning : Nat := 6
def stNotReady : Nat := 7
def stHeld : Nat := 8
def stResources : Nat := 9
def stVersion : Nat := 10

/-- A write: refused with a status, or the state it leaves. -/
abbrev WR := Except Nat State

/-- Refuse with a status where the condition holds. -/
def refuseIf (b : Bool) (status : Nat) (k : WR) : WR := if b then .error status else k

/-- Whether partition p is neither free nor stopped, so that what changes only while it is stopped may not change (R23,
R295, R346). -/
def State.busyPart (s : State) (p : Nat) : Bool :=
  !(decide ((s.part p).phase = .free) || decide ((s.part p).phase = .stopped))

/-- A value that is stored as it is, and its copy in flash where the object is persistent (R323). -/
def State.storeObj (s : State) (k v : Nat) : State := (s.setObj k v).markDirty k

/-! ### Sampler depth, ports and fabric -/

/-- RUNAHEAD_CTRL (R184, R187): a lower DEPTH discards results beyond it. -/
def State.setDepth (s : State) (p v : Nat) : State :=
  (s.setObj (kRunahead p) v).dropAhead p (fun x a =>
    match x.tmpl with
    | some t => decide (saStep t.bits.toNat + bits v 0 2 < a.step)
    | none => false)

/-- Whether the links are to be up in this season (R371). -/
def State.linksOn (s : State) : Bool :=
  match s.season.phase with
  | .spring => decide (4 ≤ s.season.sub)
  | .summer => true
  | .autumn => decide (s.season.sub ≤ 4)
  | _ => false

/-- PORT_CTRL (R292): ENABLE 0 holds the port down; ENABLE 1 lets it train. -/
def State.setPortCtrl (s : State) (k v : Nat) : State :=
  let s := s.setObj (kPort k 2) v
  let x := s.port k
  if bit v 0 = false then
    (s.setPort k { x with
      phase := .disabled, downSeen := x.downSeen || x.linked, downAt := if x.linked then s.clock else x.downAt,
      nak := false, nrdy := false, skipping := false, resend := 0, resume := false, await := false }).resync
  else if x.phase = .disabled ∧ s.linksOn then
    s.setPort k { x with phase := .training, nextTry := s.clock, backoff := 1000000 }
  else s

/-- Port `k` retrains, unless it is held down: its link goes down if it was up, and the first attempt may start at once
(R259, R294). -/
def State.retrainPort (s : State) (k : Nat) : State :=
  if (s.port k).phase = .disabled then s
  else if (s.port k).linked then s.linkFails k
  else (s.bumpObj (kPort k 5) 1).modPort k (fun x => { x with phase := .training, nextTry := s.clock, backoff := 1000000 })

/-- Every port retrains (R294). -/
def State.retrainAll (s : State) : State := (List.range 12).foldl State.retrainPort s

/-- Whether a nibble of PORT_DIR is a reserved direction (R294). -/
def dirBad (v : Nat) : Bool := (List.range 12).any (fun k => decide (6 ≤ bits v (4 * k) 4 ∧ bits v (4 * k) 4 ≠ 0xF))
/-- Whether a byte of ROUTE_TABLE names no port (R276). -/
def routeBad (b : Byte) : Bool := decide (12 ≤ b.toNat % 16 ∧ b.toNat % 16 ≠ 15) || decide (12 ≤ b.toNat / 16 ∧ b.toNat / 16 ≠ 15)

/-- Writes of the fabric objects (R294): the route to the time root may be lost, and with another root the module is not
synchronised until it has exchanged times (R280). -/
def State.writeFabric (s : State) (sub v : Nat) : WR :=
  let k := objKey 0x2110 sub
  if sub ≤ 1 then
    refuseIf ((List.range 32).any (fun p => s.busyPart p)) stRunning (.ok (s.storeObj k v).retrainAll.resync)
  else if sub = 2 then refuseIf (dirBad v) stInvalid (.ok (s.setObj k v).resync)
  else if sub = 6 ∧ v ≠ s.obj k then .ok (({ s with fabric := { s.fabric with synced := false } } : State).setObj k v)
  else .ok (s.setObj k v)

def State.writePort (s : State) (k sub v : Nat) : WR :=
  match sub with
  | 0x00 => .ok (s.modPort k (fun x => { x with downSeen := x.downSeen && !(bit v 4) }))
  | 0x02 => .ok (s.setPortCtrl k v)
  | 0x0B => .ok (s.modPort k (fun x => { x with txWrap := x.txWrap && !(bit v 63) }))
  | 0x0C => .ok (s.modPort k (fun x => { x with rxWrap := x.rxWrap && !(bit v 63) }))
  | _ => .ok (s.setObj (kPort k sub) v)

/-! ### Tables, stacks, engines -/

/-- TABLE_DESC (R198, R199): PEND 1 requests a switch, PEND 0 withdraws one. -/
def State.writeTable (s : State) (p t v : Nat) : WR :=
  let d := s.obj (kTable p t)
  let e := setBits (setBits d 96 64 (tdPendBase v)) 160 16 (tdPendVersion v)
  if bit v 84 = false then .ok (s.setObj (kTable p t) (setBits e 84 1 0))
  else refuseIf (decide (tdPendBase v % 32 ≠ 0) || s.versionLive p t (tdPendVersion v)) stInvalid
    (.ok (s.requestSwitch p t (tdPendBase v) (tdPendVersion v)))

/-- A software clear of WRAP, bit 63, of a count held as an object (R217). -/
def State.clearWrap (s : State) (k v : Nat) : State := if bit v 63 then s.setObj k (s.obj k % 2 ^ 63) else s

def State.writeUnit (s : State) (idx sub v : Nat) : WR :=
  let k := objKey idx sub
  if idx ≤ 0x210B then s.writePort (idx - 0x2100) sub v
  else if idx = 0x2110 then s.writeFabric sub v
  else if idx ≤ 0x215F then
    (if sub = 0x10 then refuseIf (s.busyPart (idx - 0x2140)) stRunning (refuseIf (laneBad v) stInvalid (.ok (s.setObj k v)))
     else .ok (s.setObj k v))
  else if 0x2200 ≤ idx ∧ idx ≤ 0x220B then
    (if sub = 0 then .ok (s.modHbm (idx - 0x2200) (fun x => { x with hot := x.hot && !(bit v 4) })) else .ok (s.setObj k v))
  else if idx = 0x22F0 then refuseIf (decide (v = 0 ∨ 24 < v)) stInvalid (.ok (s.setObj k v))
  else if 0x2300 ≤ idx ∧ idx ≤ 0x231F then s.writeTable (idx - 0x2300) sub v
  else if 0x2320 ≤ idx ∧ idx ≤ 0x234B then .ok (s.clearWrap k v)
  else if idx = 0x23A0 ∨ idx = 0x23A1 then
    .ok (s.modEngine ((idx - 0x23A0) * 256 + sub) (fun x => { x with wrap := x.wrap && !(bit v 15) }))
  else .ok s

/-! ### Partition objects (R346, R347) -/

/-- Whether a ring size is neither 0 nor a power of two from 16 to 65,536. -/
def ringBad (v : Nat) : Bool := decide (v ≠ 0) && !((List.range 13).any (fun i => decide (v = 2 ^ (i + 4))))

/-- START (R347). -/
def State.startPart (s : State) (p : Nat) : WR :=
  match (s.part p).phase with
  | .free => .error stInvalid
  | .stopped => refuseIf (s.notReady p) stNotReady (.ok (s.modPart p (fun x => { x with phase := .loading })))
  | _ => .error stRunning

/-- PART_CTRL (R346, R347). -/
def State.writePartCtrl (s : State) (p v : Nat) : WR :=
  if bit v 0 ∧ bit v 1 then .error stInvalid
  else if bit v 0 then s.startPart p
  else if bit v 1 then .ok (s.requestStop p)
  else .ok s

/-- Refuse unless the partition is stopped or free. -/
def State.whenStopped (s : State) (p : Nat) (k : WR) : WR := refuseIf (s.busyPart p) stRunning k

/-- The W1C bits of a shed's status object (R94, R161, R191). -/
def State.clearShed (s : State) (p sub v : Nat) : State :=
  if sub ≤ 0x5F then
    if s.owns p (sub - 0x40) then s.modMxa (sub - 0x40) (fun m => { m with intSat := m.intSat && !(bit v 6) }) else s
  else if sub ≤ 0x8F then
    if s.owns p (sub - 0x70) then
      s.modShed (sub - 0x70) (fun x => { x with
        qfull := x.qfull && !(bit v 48), dlfull := x.dlfull && !(bit v 49), fqLost := x.fqLost && !(bit v 50) })
    else s
  else if s.owns p (sub - 0x90) then
    s.modShed (sub - 0x90) (fun x => { x with sampler := { x.sampler with
      adjMiss := x.sampler.adjMiss && !(bit v 10), trunc := x.sampler.trunc && !(bit v 11),
      nanScore := x.sampler.nanScore && !(bit v 12) } })
  else s

/-- A write of ACK of a log (R392). -/
def State.writeAck (s : State) (w v : Nat) : WR :=
  let l := s.log w
  refuseIf (decide (l.next < v ∨ v < l.ack)) stInvalid (.ok (s.setLog w { l with ack := v }))

/-- NAN_TRAP_CTRL (R64, R66): ENABLE and MODE; REARM clears the record. -/
def State.writeTrap (s : State) (p v : Nat) : State :=
  let s := s.setObj (kNanTrap p) (v % 4)
  if bit v 2 then s.setObj (kNanRecord p) 0 else s

def State.writePart (s : State) (p sub v : Nat) : WR :=
  let k := pkey p sub
  if 0x40 ≤ sub ∧ sub ≤ 0x5F ∨ 0x70 ≤ sub ∧ sub ≤ 0xAF then .ok (s.clearShed p sub v)
  else match sub with
    | 0x00 => .ok (s.modPart p (fun x => { x with
        halted := x.halted && !(bit v 3), detLost := x.detLost && !(bit v 4), loadFailed := x.loadFailed && !(bit v 5) }))
    | 0x01 => s.writePartCtrl p v
    | 0x02 => s.whenStopped p (refuseIf (s.shedsTaken p v) stResources
        (match s.setSheds p v with | some t => .ok t | none => .error stResources))
    | 0x03 => s.whenStopped p (refuseIf (weightsBad v) stInvalid (.ok (s.setObj k v)))
    | 0x04 => s.whenStopped p (refuseIf (decide (v % 4096 ≠ 0)) stInvalid (.ok (s.setObj k v)))
    | 0x06 => s.whenStopped p (.ok (s.setObj k v))
    | 0x08 => s.whenStopped p (refuseIf (decide (v % 4096 ≠ 0)) stInvalid (.ok ((s.setObj k v).resetSq p)))
    | 0x09 => s.whenStopped p (refuseIf (ringBad v) stInvalid (.ok ((s.setObj k v).resetSq p)))
    | 0x0A => s.whenStopped p (refuseIf (decide (v % 4096 ≠ 0)) stInvalid (.ok ((s.setObj k v).resetCq p)))
    | 0x0B => s.whenStopped p (refuseIf (ringBad v) stInvalid (.ok ((s.setObj k v).resetCq p)))
    | 0x0C => refuseIf (decide (bits v 8 8 = 0)) stInvalid (.ok (s.setObj k v))
    | 0x32 => .ok (s.writeTrap p v)
    | 0x62 => .ok (if bit v 0 then s.setObj (kStallFault p) 0 else s)
    | 0xB0 => .ok (s.setDepth p v)
    | 0xB1 => s.whenStopped p (refuseIf (decide (8 < v)) stInvalid
        (match s.setStaging p v with | some t => .ok t | none => .error stResources))
    | 0xC0 => refuseIf (decide (100 < v)) stInvalid (.ok (s.setObj k v))
    | 0xC1 => refuseIf (decide (bits v 0 2 = 3)) stInvalid (.ok (s.setObj k v))
    | 0xC2 => .ok (s.setObj k (setBits (s.obj k) 0 3 (bits (s.obj k) 0 3 &&& (7 - bits v 0 3))))
    | 0xD0 => s.whenStopped p (refuseIf (layBad v) stInvalid
        (match s.setLayout p v with | some t => .ok t | none => .error stResources))
    | 0xE1 => s.writeAck (p + 1) v
    | 0xE2 => .ok (s.setLog (p + 1) { s.log (p + 1) with lost := v })
    | _ => .ok (s.setObj k v)

/-! ### Training objects (R295, R299, R301, R304, R311, R312, R314) -/

/-- Whether an FP32 code is a NaN, zero or negative (CLIP_NORM, R301). -/
def clipBad (v : Nat) : Bool := !(f32pos v)

/-- Whether a loss scale is no power of two within MIN_EXP and MAX_EXP (R304). -/
def scaleBad (ctl v : Nat) : Bool :=
  let lo := toInt 8 (bits ctl 16 8)
  let hi := toInt 8 (bits ctl 24 8)
  let e : Int := (bits v 23 8 : Int) - 127
  decide (bits v 0 23 ≠ 0 ∨ bit v 31 ∨ bits v 23 8 = 0 ∨ bits v 23 8 = 255 ∨ e < lo ∨ hi < e)

/-- Whether ALPHA lies outside (0, 1] (R311). -/
def alphaBad (a : Nat) : Bool := !(f32pos a) || FVal.lt (fp32.decode (pow2Code 0)) (fp32.decode a)

/-- Whether MIRROR_CFG breaks a range or alignment (R312). -/
def mirrorBad (m : Nat) : Bool :=
  (mcEnable m && decide (mcInterval m = 0)) || decide (mcRegion m % 4096 ≠ 0 ∨ mcBytes m % 4096 ≠ 0 ∨ mcList m % 32 ≠ 0)

/-- MIRROR_CTRL (R314): NOW asks for an unscheduled mirror at the next boundary, or at once while p is stopped. -/
def State.mirrorNow (s : State) (p : Nat) : State :=
  if (s.part p).phase = .stopped then s.dueNow p else s.modMirror p (fun m => { m with now := true })

/-- Writes of the training objects; CUR of a group that is not speculative stays 0 (R306). -/
def State.writeTrain (s : State) (p sub v : Nat) : WR :=
  let k := tkey p sub
  if 0x10 ≤ sub ∧ sub ≤ 0x2F then s.whenStopped p (.ok (s.setObj k (if grSpec v then v else setBits v 2 1 0)))
  else match sub with
    | 0x00 => s.whenStopped p (refuseIf (decide (8 < vcRegions v) || decide (vcList v % 32 ≠ 0)) stInvalid (.ok (s.setObj k v)))
    | 0x01 => refuseIf (clipBad v) stInvalid (.ok (s.setObj k v))
    | 0x02 => s.whenStopped p (refuseIf (scaleBad (s.obj (kLsCtrl p)) v) stInvalid (.ok (s.setObj k v)))
    | 0x03 => s.whenStopped p (refuseIf (decide (toInt 8 (bits v 24 8) < toInt 8 (bits v 16 8))) stInvalid (.ok (s.setObj k v)))
    | 0x04 => s.whenStopped p (.ok (s.setObj k v))
    | 0x05 => s.whenStopped p (.ok (s.setObj k v))
    | 0x07 => .ok (s.modTrain p (fun t => { t with
        nonfinSeen := t.nonfinSeen && !(bit v 8), clipSeen := t.clipSeen && !(bit v 9), lsFloor := t.lsFloor && !(bit v 10) }))
    | 0x0A => s.whenStopped p (refuseIf (alphaBad (bits v 0 32)) stInvalid (.ok (s.setObj k v)))
    | 0x40 => s.whenStopped p (refuseIf (mirrorBad v) stInvalid (.ok (s.setObj k v)))
    | 0x41 => .ok (if bit v 0 then s.mirrorNow p else s)
    | 0x42 => .ok (s.modMirror p (fun m => { m with failed := m.failed && !(bit v 3), skipped := m.skipped && !(bit v 4) }))
    | _ => .ok (s.setObj k v)

/-! ### Module objects -/

/-- SEASON_CTRL (R372, R375, R376): FAULT_CLEAR is held in Fault and otherwise cleared; ON or OFF is a request. -/
def State.writeSeason (s : State) (v : Nat) : WR :=
  if bit v 0 ∧ bit v 1 then .error stInvalid
  else
    let s := if bit v 2 ∧ s.season.phase = .fault then { s with season := { s.season with faultClear := true } } else s
    .ok (if bit v 0 then s.request true else if bit v 1 then s.request false else s)

/-- CAP_STATUS (R369). -/
def State.clearCap (s : State) (v : Nat) : State :=
  let w := s.power
  { s with power := { w with capped := w.capped && !(bit v 8), throttled := w.throttled && !(bit v 9),
                             exceeded := w.exceeded && !(bit v 10), braked := w.braked && !(bit v 11) } }

/-- PERF_SEL_n (R387): a write restarts the count; a wrap that is due takes place before. -/
def State.setPerfSel (s : State) (n v : Nat) : State :=
  let s := s.wrapPerf n
  (s.setObj (kPerfSel n) v).setPerf n { s.perf n with count := 0 }

/-- COMMIT of FW_CTRL (R383): checks FW_SLOT and writes its COMMIT, or logs an invalid slot. -/
def State.commitSlot (s : State) : State :=
  let f := s.flash
  let i := f.other
  if f.running = 2 ∨ f.headerGood i = false then s.logModule 0x0D0A 2 none 0x10 0 0
  else
    let w := commitWord (f.slotVersion i) (crc32c (f.image i))
    { s with flash := f.put s.season.flashWpN (slotBase i + slotSize - 32) w }

/-- RESTART of FW_CTRL (R383): waits until the module is in Winter or Fault. -/
def State.askRestart (s : State) : State :=
  if s.season.phase = .winter ∨ s.season.phase = .fault then s.restartOstler
  else { s with season := { s.season with restart := true } }

def State.writeModule (s : State) (idx sub v : Nat) : WR :=
  let k := objKey idx sub
  match idx with
  | 0x1110 =>
    refuseIf (match sub with
      | 0x00 => decide (v = 0)
      | 0x03 => decide (v = 0 ∨ 31 < v)
      | 0x05 => decide (v = 0 ∨ 127 < v)
      | _ => false) stInvalid (.ok (s.storeObj k v))
  | 0x1200 =>
    if sub = 1 then s.writeSeason v
    else refuseIf (decide (bits v 16 16 = 0)) stInvalid (.ok (s.storeObj k v))
  | 0x1202 =>
    if sub = 3 then .ok (s.clearCap v)
    else refuseIf (decide (v < 400 ∨ 1800 < v)) stInvalid (.ok (s.storeObj k v))
  | 0x1310 => .ok (if bit v 63 then s.setPerf sub { s.perf sub with wrap := false } else s)
  | 0x1311 => refuseIf (decide (8 ≤ bits v 0 4)) stInvalid (.ok (s.setPerfSel sub v))
  | 0x3000 =>
    (match sub with
     | 0x01 => s.writeAck 0 v
     | 0x02 => .ok (s.setLog 0 { s.log 0 with lost := v })
     | _ => .ok (s.setObj k v))
  | 0x4000 =>
    if sub = 3 then
      let s := if bit v 0 then s.commitSlot else s
      .ok (if bit v 1 then s.askRestart else s)
    else .ok (s.storeObj k v)
  | _ =>
    if 0x1204 ≤ idx ∧ idx ≤ 0x1207 ∧ sub = 1 then refuseIf (decide (15 < v)) stInvalid (.ok (s.setObj k v))
    else .ok (s.storeObj k v)

/-- A write of a number, or of a BLOB held as one, after the checks that every object shares. -/
def State.writeObj (s : State) (idx sub v : Nat) : WR :=
  if idx < 0x2000 ∨ 0x3000 ≤ idx then s.writeModule idx sub v
  else if idx ≤ 0x201F then s.writePart (idx - 0x2000) sub v
  else if 0x2400 ≤ idx then s.writeTrain (idx - 0x2400) sub v
  else s.writeUnit idx sub v

/-- Bytes written into ROUTE_TABLE (R276) or FW_SLOT (R383); a write to FW_SLOT first clears its COMMIT, and writes none. -/
def State.writeLong (s : State) (idx off : Nat) (bs : List Byte) : WR :=
  if idx = 0x4000 then
    let i := s.flash.other
    let f := s.flash.put s.season.flashWpN (slotBase i + slotSize - 32) (zeros 32)
    .ok { s with flash := f.put s.season.flashWpN (slotBase i + off) (bs.take (slotSize - 32 - off)) }
  else
    let rs := (bs.foldl (fun (a : FMap (BitVec 8) × Nat) b => (FMap.set (fun _ => 0xFF) a.1 a.2 b, a.2 + 1)) (s.routes, off)).1
    refuseIf (bs.any routeBad) stInvalid (.ok ({ s with routes := rs } : State).resync)

end Sys2Proof.Machine
end

