-- ==== Sys2Proof/Machine/Messages.lean ====
section
/-!
DEFINITION. The dictionary's service: messages, leases, the order of checks, the rotation, and the responses (R325-R333,
R400).
-/

namespace Sys2Proof.Machine

/-! ### Messages (R329, R330) -/

/-- Fields of a message header (R329). -/
def msVer (m : List Byte) : Nat := field m 0 1
def msOp (m : List Byte) : Nat := field m 1 1
def msLen (m : List Byte) : Nat := field m 2 2
def msSeq (m : List Byte) : Nat := field m 4 4
def msLease (m : List Byte) : Nat := field m 8 4
def msIndex (m : List Byte) : Nat := field m 12 2
def msSub (m : List Byte) : Nat := field m 14 1
def msStatus (m : List Byte) : Nat := field m 15 1
def msOffset (m : List Byte) : Nat := field m 16 8
def msDlen (m : List Byte) : Nat := field m 24 4
def msPad (m : List Byte) : Nat := field m 28 4
def msData (m : List Byte) : List Byte := slice m 32 (msDlen m)

/-- Bytes of a message at most, and of one BLOB_READ or BLOB_WRITE at most, of a requester (R329, R330); a request from
Llyn has the limits of the management port. -/
def maxLen : Requester → Nat
  | .fn _ => 4096
  | _ => 1232
def maxChunk : Requester → Nat
  | .fn _ => 4064
  | _ => 1024

/-- Whether the header is malformed (R400 step 2): a reserved OP, LEN and DLEN that disagree, a length beyond the port's
limit, or a reserved field that is not zero. -/
def msMalformed (who : Requester) (m : List Byte) : Bool :=
  let op := msOp m
  let blob := decide (op = 3 ∨ op = 4)
  decide (op = 0 ∨ 7 < op ∨ msStatus m ≠ 0 ∨ msPad m ≠ 0 ∨ maxLen who < msLen m ∨ m.length < msLen m ∨
    msLen m ≠ 32 + (if op = 2 ∨ op = 4 then msDlen m else 0)) ||
  (if blob then decide (msDlen m = 0 ∨ maxChunk who < msDlen m) else decide (msOffset m ≠ 0)) ||
  (!blob && decide (op ≠ 2) && decide (msDlen m ≠ 0))

/-- The response to a request (R329): its header with OP | 0x80, STATUS and lengths, and the data. -/
def msResponse (m : List Byte) (status : Nat) (data : List Byte) : List Byte :=
  slice m 0 1 ++ toBytes 1 (msOp m ||| 0x80) ++ toBytes 2 (32 + data.length) ++ slice m 4 11 ++ toBytes 1 status ++
    slice m 16 8 ++ toBytes 4 data.length ++ slice m 28 4 ++ data

/-! ### Leases (R327, R328) -/

/-- Whether a lease request names a semaphore (R330). -/
def namesSem (m : List Byte) : Bool := decide (msIndex m = 0x1100 ∧ msSub m ≤ 0x20)

/-- The rights of a requester over an object or semaphore (R327): VF f reaches those of partition f - 1 only. -/
def mayReach (who : Requester) (idx sub : Nat) : Bool :=
  match who with
  | .fn (f + 1) => decide (idx = 0x1000 ∨ (idx = 0x1100 ∧ sub = f + 1) ∨ objPart idx sub = some f)
  | _ => true

/-- Whether a requester holds semaphore `sm` under the lease a request carries. -/
def State.holds (s : State) (who : Requester) (lease sm : Nat) : Bool :=
  let x := s.sem sm
  decide (x.holder = some who ∧ x.lease = lease)

/-- Whether a requester's lease grants a write of an object (R327): the module's, or that of the object's partition. -/
def State.granted (s : State) (who : Requester) (lease idx sub : Nat) : Bool :=
  s.holds who lease 0 || (match objPart idx sub with | some p => s.holds who lease (p + 1) | none => false)

/-- A lease that has run out (R328): the semaphore becomes free, with a log entry and a count. -/
def State.expireLease (s : State) (sm : Nat) : State :=
  let x := s.sem sm
  if x.holder = none ∨ s.clock ≤ x.until_ then s
  else
    let s := (s.setSem sm { x with holder := none }).logModule 0x0D01 1 none 0x10 0 sm
    s.bumpObj kLeaseExpired 1

def State.expireLeases (s : State) : State := (List.range 33).foldl (fun s sm => s.expireLease sm) s

/-- Ten seconds (R328). -/
def leaseTime : Nat := 10000000000

/-- A LEASE_ID for a new grant (R328): not zero, and not that of the grant before; the spec leaves it open otherwise. -/
def freshLease (r last : Nat) : Nat :=
  let a := r % (2 ^ 32 - 1) + 1
  if a = last then a % (2 ^ 32 - 1) + 1 else a

/-- ACQUIRE (R328): what it answers, and the state it leaves. -/
def State.acquire (s : State) (who : Requester) (sm : Nat) : Nat × List Byte × State :=
  let x := s.sem sm
  let till := s.clock + leaseTime
  if x.holder = none then
    let a := freshLease (Config.freeNat s.free) x.lease
    (0, toBytes 4 a, s.draw.setSem sm { holder := some who, lease := a, until_ := till })
  else if x.holder = some who then (0, toBytes 4 x.lease, s.setSem sm { x with until_ := till })
  else (stHeld, [], s)

/-- RENEW (R328). -/
def State.renew (s : State) (who : Requester) (lease sm : Nat) : Nat × List Byte × State :=
  if s.holds who lease sm then (0, [], s.setSem sm { s.sem sm with until_ := s.clock + leaseTime }) else (stNoLease, [], s)

/-- RELEASE (R328). -/
def State.release (s : State) (who : Requester) (lease sm : Nat) : Nat × List Byte × State :=
  if s.holds who lease sm then (0, [], s.setSem sm { s.sem sm with holder := none }) else (stNoLease, [], s)

/-! ### Reads and writes (R325, R330, R400) -/

/-- Steps 3 to 5 of R400 for a request that names an object: its definition, or the status of the first check it fails. -/
def objCheck (who : Requester) (m : List Byte) : Except Nat ObjDef :=
  match objDef (msIndex m) (msSub m) with
  | none => .error stUnknown
  | some d =>
    let op := msOp m
    let blobOp := decide (op = 3 ∨ op = 4)
    if blobOp ∧ d.kind = .blob ∧ d.size < msOffset m + msDlen m then .error stUnknown
    else if mayReach who (msIndex m) (msSub m) = false then .error stAccess
    else if blobOp ∧ d.kind ≠ .blob then .error stInvalid
    else if blobOp = false ∧ d.kind = .blob ∧ maxChunk who < d.size then .error stInvalid
    else if op = 2 ∧ (if d.kind = .str then decide (256 < msDlen m) else decide (msDlen m ≠ d.size)) then .error stInvalid
    else .ok d

/-- READ and BLOB_READ. -/
def State.readObj (s : State) (who : Requester) (m : List Byte) : Nat × List Byte × State :=
  match objCheck who m with
  | .error e => (e, [], s)
  | .ok d =>
    let off := if msOp m = 3 then msOffset m else 0
    let n := if msOp m = 3 then msDlen m else d.size
    (0, s.objBytes d (msIndex m) (msSub m) off n, s.afterRead (msIndex m) (msSub m))

/-- Whether the objects 0x2000-0x24FF refuse writes (R333). -/
def State.notYet (s : State) (idx : Nat) : Bool := decide (0x2000 ≤ idx ∧ idx ≤ 0x24FF ∧ s.season.phase ≠ .summer)

/-- Objects of more bytes than one number of the model holds: FW_SLOT and ROUTE_TABLE. -/
def isLong (d : ObjDef) : Bool := decide (d.kind = .blob ∧ 128 < d.size)

/-- Steps 6 to 11 of R400, and the write itself. -/
def State.writeChecked (s : State) (who : Requester) (m : List Byte) (d : ObjDef) : WR :=
  let idx := msIndex m
  let sub := msSub m
  let off := if msOp m = 4 then msOffset m else 0
  let long := isLong d
  let old := if long then 0 else s.valueOf idx sub
  let v := if long then 0 else ofBytes (splice (toBytes d.size old) off (msData m))
  refuseIf (d.all || decide (idx = 0x4000 ∧ sub = 2 ∧ s.flash.running = 2)) stAccess <|
  refuseIf (d.rws && !(s.granted who (msLease m) idx sub)) stNoLease <|
  refuseIf (s.notYet idx) stNotYet <|
  refuseIf (decide (v &&& d.rsv ≠ 0)) stInvalid <|
  refuseIf (decide ((v ^^^ old) &&& d.ro ≠ 0)) stAccess <|
  if long then s.writeLong idx off (msData m) else s.writeObj idx sub v

/-- WRITE and BLOB_WRITE. -/
def State.writeReq (s : State) (who : Requester) (m : List Byte) : Nat × List Byte × State :=
  match objCheck who m with
  | .error e => (e, [], s)
  | .ok d =>
    match s.writeChecked who m d with
    | .error e => (e, [], s)
    | .ok t => (0, [], t)

/-- ACQUIRE, RENEW and RELEASE. -/
def State.leaseReq (s : State) (who : Requester) (m : List Byte) : Nat × List Byte × State :=
  if namesSem m = false then (stUnknown, [], s)
  else if mayReach who (msIndex m) (msSub m) = false then (stAccess, [], s)
  else if msOp m = 5 then s.acquire who (msSub m)
  else if msOp m = 6 then s.renew who (msLease m) (msSub m)
  else s.release who (msLease m) (msSub m)

/-- One request served (R400): status, data of the response, and the state it leaves. -/
def State.perform (s : State) (who : Requester) (m : List Byte) : Nat × List Byte × State :=
  if msVer m ≠ 1 then (stVersion, [], s)
  else if msMalformed who m then (stInvalid, [], s)
  else if 5 ≤ msOp m then s.leaseReq who m
  else if msOp m = 2 ∨ msOp m = 4 then s.writeReq who m
  else s.readObj who m

/-! ### Which row of the table a request is -/

/-- The commands the dictionary serves. -/
inductive Service where
  | read | write | blobRead | blobWrite | acquire | renew | release
  | hotRows | tablePend | hbmLayout | mirrorNow | sheds | ringConfig | start | stop | trapRearm | faultRearm
  | on | off | faultClear | perfSel | commit | restart | fwSlot
  deriving DecidableEq, Repr

/-- The row of a write of a whole value `v` to an object. -/
def serviceOfWrite (idx sub v : Nat) : Service :=
  if 0x2000 ≤ idx ∧ idx ≤ 0x201F then
    (match sub with
     | 0x01 => if bit v 0 then .start else if bit v 1 then .stop else .write
     | 0x02 => .sheds
     | 0x08 => .ringConfig
     | 0x09 => .ringConfig
     | 0x0A => .ringConfig
     | 0x0B => .ringConfig
     | 0x32 => if bit v 2 then .trapRearm else .write
     | 0x62 => if bit v 0 then .faultRearm else .write
     | 0xD0 => .hbmLayout
     | _ => .write)
  else if 0x2300 ≤ idx ∧ idx ≤ 0x231F then .tablePend
  else if 0x2400 ≤ idx ∧ idx ≤ 0x241F ∧ sub = 0x41 then .mirrorNow
  else if idx = 0x1311 then .perfSel
  else if idx = 0x1200 ∧ sub = 1 then
    (if bit v 0 then .on else if bit v 1 then .off else if bit v 2 then .faultClear else .write)
  else if idx = 0x4000 ∧ sub = 2 then .fwSlot
  else if idx = 0x4000 ∧ sub = 3 then (if bit v 0 then .commit else if bit v 1 then .restart else .write)
  else .write

/-- The row of a request. -/
def serviceOf (m : List Byte) : Service :=
  let idx := msIndex m
  match msOp m with
  | 2 => serviceOfWrite idx (msSub m) (ofBytes (slice (msData m) 0 8))
  | 3 => if 0x2360 ≤ idx ∧ idx ≤ 0x237F then .hotRows else .blobRead
  | 4 =>
    if 0x2300 ≤ idx ∧ idx ≤ 0x231F then .tablePend
    else if idx = 0x4000 ∧ msSub m = 2 then .fwSlot
    else .blobWrite
  | 5 => .acquire
  | 6 => .renew
  | 7 => .release
  | _ => if 0x2360 ≤ idx ∧ idx ≤ 0x237F then .hotRows else .read

/-! ### Serving (R326, R332) -/

/-- Whether the dictionary answers: from 30 ms after power good (R325). -/
def State.dictUp (s : State) : Bool := s.flash.booted && decide (30000000 ≤ s.clock)

/-- The request page of a function as one message. -/
def State.mailbox (s : State) (f : Nat) : List Byte :=
  (List.range 4096).map (fun i => FMap.get (fun _ => 0) (s.fn f).req i)

/-- The function whose mailbox is served next (R326). -/
def State.nextFn (s : State) : Option Nat :=
  ((List.range 33).map (fun i => (s.host.fnNext + i) % 33)).find? (fun f => (s.fn f).go)

/-- The request waiting at a source: 0 the host port, 1 the management port, 2 Llyn MGMT. -/
def State.waiting (s : State) (src : Nat) : Option (Requester × List Byte) :=
  match src with
  | 0 => s.nextFn.map (fun f => (.fn f, s.mailbox f))
  | 1 => s.host.mgmtQ.head?.map (fun r => (.mgmt r.ip r.port, r.msg))
  | _ => s.host.llynQ.head?.map (fun r => (.llyn r.dev, r.msg))

/-- The request the rotation serves next (R326). -/
def State.nextRequest (s : State) : Option (Requester × List Byte) :=
  [0, 1, 2].findSome? (fun i => s.waiting ((s.host.src + i) % 3))

/-- The response stored for a management requester (R332). -/
def State.stored (s : State) (ip port : Nat) : Option (Nat × List Byte) :=
  (s.host.store.find? (fun e => decide (e.1 = (ip, port)))).map (fun e => e.2)

/-- Send a response to a management requester and keep it: the last response of each of the last 64 requesters (R332). -/
def State.answerMgmt (s : State) (ip port seq : Nat) (resp : List Byte) : State :=
  let st := s.host.store.filter (fun e => decide (e.1 ≠ (ip, port))) ++ [((ip, port), (seq, resp))]
  { s with host := { s.host with store := st.drop (st.length - 64) }, out := s.out ++ [.datagram ip port resp] }

/-- Write a mailbox response (R337): GO is cleared, DONE set, and the mailbox vector signalled if IRQ_EN. -/
def State.answerFn (s : State) (f : Nat) (resp : List Byte) : State :=
  let x := s.fn f
  let page := (List.range resp.length).foldl (fun m i => FMap.set (fun _ => 0) m i (resp.getD i 0)) x.resp
  let s := s.setFn f { x with resp := page, go := false, done := true }
  if x.irqEn then s.raiseMsix f (if f = 0 then 32 else 1) else s

/-- Take the served request from its source, and move the rotation on; one from Llyn leaves the VL1 buffer (R326). -/
def State.taken (s : State) (who : Requester) : State :=
  match who with
  | .fn f => { s with host := { s.host with src := 1, fnNext := (f + 1) % 33 } }
  | .mgmt _ _ => { s with host := { s.host with src := 2, mgmtQ := s.host.mgmtQ.tail } }
  | .llyn _ =>
    let t := { s with host := { s.host with src := 0, llynQ := s.host.llynQ.tail } }
    match s.host.llynQ with
    | r :: _ => if r.port = loopPort then t else t.modPort r.port (fun x => x.free r.pkt)
    | [] => t

/-- Send the response of a request. -/
def State.answer (s : State) (who : Requester) (m resp : List Byte) : State :=
  match who with
  | .fn f => s.answerFn f resp
  | .mgmt ip port => s.answerMgmt ip port (msSeq m) resp
  | .llyn dev => s.send { kind := pkMgmt, sub := 1, vl := 1, dev := dev, part := 0, src := 0 } resp

/-- A resent request of a management requester, which is answered from the store (R332). -/
def State.resent (s : State) (who : Requester) (m : List Byte) : Option (List Byte) :=
  match who with
  | .mgmt ip port =>
    (match s.stored ip port with
     | some r => if r.1 = msSeq m then some r.2 else none
     | none => none)
  | _ => none

/-- Serve the next request of the rotation if it is of row `k` (R326, R400). -/
def State.serve (s : State) (k : Service) : Out1 :=
  match s.nextRequest with
  | none => .next s
  | some (who, m) =>
    if s.dictUp = false ∨ serviceOf m ≠ k then .next s
    else
      let s := (s.taken who).expireLeases
      match s.resent who m with
      | some r => .next (s.answer who m r)
      | none =>
        let a := s.perform who m
        .next (a.2.2.answer who m (msResponse m a.1 a.2.1))

/-- OD_READ (R330): the whole value of an object; a request with a reserved OP is refused here. -/
def execOdRead (s : State) : Out1 := s.serve .read
/-- OD_WRITE (R330). -/
def execOdWrite (s : State) : Out1 := s.serve .write
/-- BLOB_READ (R330). -/
def execBlobRead (s : State) : Out1 := s.serve .blobRead
/-- BLOB_WRITE (R330). -/
def execBlobWrite (s : State) : Out1 := s.serve .blobWrite
/-- ACQUIRE (R328). -/
def execAcquire (s : State) : Out1 := s.serve .acquire
/-- RENEW (R328). -/
def execRenew (s : State) : Out1 := s.serve .renew
/-- RELEASE (R328). -/
def execRelease (s : State) : Out1 := s.serve .release
/-- HOT_ROWS_READ (R213). -/
def execHotRowsRead (s : State) : Out1 := s.serve .hotRows
/-- TABLE_DESC_PEND (R199). -/
def execTableDescPend (s : State) : Out1 := s.serve .tablePend
/-- HBM_LAYOUT_WRITE (R239). -/
def execHbmLayoutWrite (s : State) : Out1 := s.serve .hbmLayout
/-- MIRROR_CTRL_NOW (R314). -/
def execMirrorCtrlNow (s : State) : Out1 := s.serve .mirrorNow
/-- SHEDS_WRITE (R346). -/
def execShedsWrite (s : State) : Out1 := s.serve .sheds
/-- RING_CONFIG_WRITE (R346). -/
def execRingConfigWrite (s : State) : Out1 := s.serve .ringConfig
/-- START (R347). -/
def execStart (s : State) : Out1 := s.serve .start
/-- STOP (R347). -/
def execStop (s : State) : Out1 := s.serve .stop
/-- NAN_TRAP_REARM (R66). -/
def execNanTrapRearm (s : State) : Out1 := s.serve .trapRearm
/-- STALL_FAULT_REARM (R132). -/
def execStallFaultRearm (s : State) : Out1 := s.serve .faultRearm
/-- ON (R373). -/
def execSeasonOn (s : State) : Out1 := s.serve .on
/-- OFF (R373). -/
def execSeasonOff (s : State) : Out1 := s.serve .off
/-- FAULT_CLEAR (R375). -/
def execFaultClear (s : State) : Out1 := s.serve .faultClear
/-- PERF_SEL_WRITE (R387). -/
def execPerfSelWrite (s : State) : Out1 := s.serve .perfSel
/-- COMMIT (R383). -/
def execCommit (s : State) : Out1 := s.serve .commit
/-- RESTART (R383). -/
def execRestart (s : State) : Out1 := s.serve .restart
/-- FW_SLOT_WRITE (R383). -/
def execFwSlotWrite (s : State) : Out1 := s.serve .fwSlot

/-- LEASE_EXPIRY (R328): the lease of semaphore `m` has run out. -/
def execLeaseExpiry (m : Nat) (s : State) : Out1 :=
  if 33 ≤ m then .fault .noSuchUnit else .next (s.expireLease m)

end Sys2Proof.Machine
end

