-- ==== Sys2Proof/Machine/HostIf.lean ====
section
/-!
DEFINITION. The host port, the management port and the rings: mailboxes, BAR0 registers, BAR4, doorbells, submission
entries, completions and their interrupts (R332, R334-R345, R357).
-/

namespace Sys2Proof.Machine

/-- The host link is up and PERST_N is not asserted (R357). -/
def State.hostUp (s : State) : Bool := s.host.linkUp && !s.host.perst

/-! ### Links and functions -/

/-- Whether the host link may train: the I/O die has power, which IO_UP gives and IO_DOWN takes, and PERST_N is released
(R357, R371, R378). -/
def State.hostPower (s : State) : Bool :=
  !s.host.perst && (match s.season.phase with
    | .spring => !(s.season.retry && decide (s.season.sub = 1))
    | .summer => true
    | .autumn => decide (s.season.sub ≤ 7)
    | _ => false)

/-- HOST_LINK_CHANGE (R357, R378): while the link is down a training attempt ends, with the link up or not, and counts in
ATTEMPTS_7; while it is up it may go down. -/
def execHostLinkChange (up : Bool) (s : State) : Out1 :=
  if s.host.linkUp then .next { s with host := { s.host with linkUp := up } }
  else if s.hostPower then .next (({ s with host := { s.host with linkUp := up } } : State).bumpObj (kAttempts 7) 1)
  else .next s

/-- MGMT_LINK_CHANGE (R333, R377): LINK.UP, once the ostler has started the PHY. -/
def execMgmtLinkChange (up : Bool) (s : State) : Out1 :=
  if up ∧ s.flash.booted = false then .next s else .next { s with host := { s.host with mgmtUp := up } }

/-- Bytes of a function's BAR4 (R336). -/
def HostFn.barSize (x : HostFn) : Nat := 2 ^ (30 + x.bar4)

/-- The host sizes BAR4 of function `f` (R334, R336): 2^(30 + e) bytes, from 1 GiB to 1 TiB; the window stays a multiple of
it (R337). -/
def State.sizeBar (s : State) (f e : Nat) : State :=
  if 10 < e ∨ s.fnExists f = false then s
  else s.setFn f { s.fn f with bar4 := e, window := (s.fn f).window / 2 ^ (30 + e) * 2 ^ (30 + e) }

/-- NUMVFS_WRITE (R334, R344): configuration space as the host leaves it: NumVFs, the MSI-X enable of each function, and the
sizes given to BAR4 of functions; a VF that ends loses its registers. -/
def execNumvfsWrite (n : Nat) (cfg : Nat × List (Nat × Nat)) (s : State) : Out1 :=
  if s.hostUp = false ∨ 32 < n then .next s
  else
    let t : State := { s with host := { s.host with
      numVfs := n, msixEn := cfg.1 % 2 ^ (n + 1), fns := s.host.fns.filter (fun e => decide (e.1 ≤ n)) } }
    .next (cfg.2.foldl (fun t b => t.sizeBar b.1 b.2) t)

/-- MGMT_DATAGRAM (R332): a datagram to the management port is answered from the store, queued, or discarded and counted
when it is shorter than a header or the queue of 16 is full. -/
def execMgmtDatagram (src port : Nat) (data : List (BitVec 8)) (s : State) : Out1 :=
  let v4 := decide (src / 2 ^ 32 = 0xFFFF)
  let addr := s.obj (objKey 0x1110 (if v4 then 2 else 4))
  if s.host.mgmtUp = false ∨ s.flash.booted = false ∨ bit (s.obj kNetCtrl) (if v4 then 0 else 1) = false ∨ addr = 0 then
    .next s
  else if data.length < 32 then .next (s.bumpObj kMgmtDropped 1)
  else match s.resent (.mgmt src port) data with
    | some r => .next (s.answer (.mgmt src port) data r)
    | none =>
      if 16 ≤ s.host.mgmtQ.length then .next (s.bumpObj kMgmtDropped 1)
      else .next { s with host := { s.host with mgmtQ := s.host.mgmtQ ++ [{ ip := src, port := port, msg := data }] } }

/-! ### Doorbells (R338, R339) -/

/-- A doorbell write that is ignored. -/
def State.dropBell (s : State) (p : Nat) : State :=
  (s.bumpObj (kDbIgnored p) 1).modRings p (fun r => { r with dbDrop := true })

/-- A write of SQ_TAIL (R339). -/
def State.writeSqTail (s : State) (p : Nat) (t : BitVec 32) : State :=
  let r := (s.part p).rings
  if (t - r.sqHead).toNat ≤ s.obj (kSqSize p) ∧ (t - r.sqTail).toNat < 2 ^ 31 then
    s.modRings p (fun r => { r with sqTail := t })
  else s.dropBell p

/-- A write of CQ_HEAD (R339). -/
def State.writeCqHead (s : State) (p : Nat) (h : BitVec 32) : State :=
  let r := (s.part p).rings
  if (r.cqTail - h).toNat ≤ s.obj (kCqSize p) ∧ (h - r.cqHead).toNat < 2 ^ 31 then
    s.modRings p (fun r => { r with cqHead := h })
  else s.dropBell p

/-- SQ_TAIL (R339). -/
def execSqTail (p : Nat) (t : BitVec 32) (s : State) : Out1 :=
  if 32 ≤ p then .fault .noSuchUnit else if s.hostUp then .next (s.writeSqTail p t) else .next s

/-- CQ_HEAD (R339). -/
def execCqHead (p : Nat) (t : BitVec 32) (s : State) : Out1 :=
  if 32 ≤ p then .fault .noSuchUnit else if s.hostUp then .next (s.writeCqHead p t) else .next s

/-! ### BAR0 registers (R335, R337, R338) -/

/-- GO (R337): a GO write while GO is 1 has no effect. -/
def State.setGo (s : State) (f : Nat) : State := s.setFn f { s.fn f with go := true }

/-- MBOX_GO (R337). -/
def execMboxGo (fn : Nat) (s : State) : Out1 :=
  if 33 ≤ fn then .fault .noSuchUnit
  else if s.hostUp ∧ s.fnExists fn then .next (s.setGo fn) else .next s

/-- What an offset of a function's BAR0 is. -/
inductive Reg where
  | req (i : Nat)
  | resp (i : Nat)
  | ctrl (i : Nat)
  | bell (p i : Nat)
  | msix (i : Nat)
  | pba (i : Nat)
  | none
  deriving DecidableEq, Repr

/-- The layout of BAR0 (R335). -/
def regAt (fn off : Nat) : Reg :=
  if off < 0x1000 then .req off
  else if off < 0x2000 then .resp (off - 0x1000)
  else if 0x2000 ≤ off ∧ off < 0x3000 then .ctrl (off - 0x2000)
  else if fn = 0 then
    (if 0x100000 ≤ off ∧ off < 0x120000 then .bell ((off - 0x100000) / 0x1000) ((off - 0x100000) % 0x1000)
     else if 0x1000000 ≤ off ∧ off < 0x1000000 + 544 then .msix (off - 0x1000000)
     else if 0x1008000 ≤ off ∧ off < 0x1008008 then .pba (off - 0x1008000) else .none)
  else if 0x4000 ≤ off ∧ off < 0x5000 then .bell (fn - 1) (off - 0x4000)
  else if 0x8000 ≤ off ∧ off < 0x8000 + 48 then .msix (off - 0x8000)
  else if 0x9000 ≤ off ∧ off < 0x9008 then .pba (off - 0x9000)
  else .none

/-- The control page of a function (R337). -/
def HostFn.ctrlPage (x : HostFn) : List Byte :=
  toBytes 8 (word [(0, b2n x.go), (1, b2n x.done), (2, b2n x.irqEn)]) ++ toBytes 8 x.window

/-- The doorbell page of partition `p` (R338): SQ_TAIL, CQ_HEAD, SQ_HEAD, CQ_TAIL, RING_FLAGS. -/
def State.bellPage (s : State) (p : Nat) : List Byte :=
  let r := (s.part p).rings
  toBytes 4 r.sqTail.toNat ++ toBytes 4 r.cqHead.toNat ++ toBytes 4 r.sqHead.toNat ++ toBytes 4 r.cqTail.toNat ++
    toBytes 4 (s.ringFlags p)

/-- What a host read of a byte of a function's BAR0 returns (R335, R337, R338): no read changes the module, so no command
stands for it; reserved bits and unlisted offsets read as zero. -/
def State.bar0Byte (s : State) (f off : Nat) : Byte :=
  match regAt f off with
  | .req i => FMap.get (fun _ => 0) (s.fn f).req i
  | .resp i => FMap.get (fun _ => 0) (s.fn f).resp i
  | .ctrl i => (s.fn f).ctrlPage.getD i 0
  | .bell p i => (s.bellPage p).getD i 0
  | .msix i => FMap.get msixReset (s.fn f).msix i
  | .pba i => BitVec.ofNat 8 ((s.fn f).pba / 2 ^ (8 * i))
  | .none => 0

/-- A host read of `n` bytes of BAR0 (R335); none of a function that does not exist, or while the host port is down. -/
def State.bar0Read (s : State) (f off n : Nat) : Option (List Byte) :=
  if s.hostUp = false ∨ s.fnExists f = false then none else some ((List.range n).map (fun i => s.bar0Byte f (off + i)))

/-- MBOX_CTRL's first byte: GO is set, DONE cleared, IRQ_EN written. -/
def State.writeMbox (s : State) (f : Nat) (b : Byte) : State :=
  let x := s.fn f
  s.setFn f { x with go := x.go || b.getLsbD 0, done := x.done && !(b.getLsbD 1), irqEn := b.getLsbD 2 }

/-- A byte of an MSI-X table (PCI Express): of a vector control only the mask bit; a vector unmasked while pending is
sent. -/
def State.writeMsix (s : State) (f i : Nat) (b : Byte) : State :=
  let x := s.fn f
  let c : Byte := if i % 16 = 12 then b &&& 1 else if 13 ≤ i % 16 then 0 else b
  let v := i / 16
  let s := s.setFn f { x with msix := FMap.set msixReset x.msix i c }
  if i % 16 = 12 ∧ c = 0 ∧ bit x.pba v then (s.setFn f { s.fn f with pba := x.pba ^^^ 2 ^ v }).raiseMsix f v else s

/-- One byte of a host write to BAR0, outside the doorbell counts; reserved bits are ignored (R11). -/
def State.writeBar0Byte (s : State) (f off : Nat) (b : Byte) : State :=
  match regAt f off with
  | .req i => s.setFn f { s.fn f with req := FMap.set (fun _ => 0) (s.fn f).req i b }
  | .ctrl i =>
    if i = 0 then s.writeMbox f b
    else if 8 ≤ i ∧ i < 16 then
      let x := s.fn f
      s.setFn f { x with window := setBits x.window (8 * (i - 8)) 8 b.toNat / x.barSize * x.barSize }
    else s
  | .bell p i =>
    if i = 16 then s.modRings p (fun r => { r with dbDrop := r.dbDrop && !(b.getLsbD 3) }) else s
  | .msix i => s.writeMsix f i b
  | .resp _ => s
  | .pba _ => s
  | .none => s

/-- The part of a write to a doorbell page that falls on a count, from byte `i` of the write on, if it begins there: the
count's bytes that are not written keep their value. -/
def State.writeBell (s : State) (f off i : Nat) (val : List Byte) : State :=
  let new (old : BitVec 32) (j : Nat) : BitVec 32 :=
    BitVec.ofNat 32 (ofBytes (splice (toBytes 4 old.toNat) j ((val.drop i).take (4 - j))))
  match regAt f (off + i) with
  | .bell p j =>
    let r := (s.part p).rings
    if 8 ≤ j ∨ (i ≠ 0 ∧ j % 4 ≠ 0) then s
    else if j < 4 then s.writeSqTail p (new r.sqTail j)
    else s.writeCqHead p (new r.cqHead (j - 4))
  | _ => s

/-- MMIO_REGISTER_WRITE (R11, R335): a host write to BAR0 of a function. -/
def execMmioRegisterWrite (fn off : Nat) (val : List (BitVec 8)) (s : State) : Out1 :=
  if 33 ≤ fn then .fault .noSuchUnit
  else if s.hostUp = false ∨ s.fnExists fn = false then .next s
  else
    let s := (List.range val.length).foldl (fun s i => s.writeBell fn off i val) s
    .next ((List.range val.length).foldl (fun s i => s.writeBar0Byte fn (off + i) (val.getD i 0)) s)

/-! ### BAR4 (R336) -/

/-- The keys of `len` bytes at offset `off` of a function's BAR4; none beyond the function's memory. -/
def State.bar4Keys (s : State) (fn off len : Nat) : Option (List Nat) :=
  let a := (s.fn fn).window + off
  if fn = 0 then
    if a / 2 ^ 38 < 4 ∧ a % 2 ^ 38 + len ≤ 715 * 2 ^ 28 then
      some ((List.range len).map (fun i => hbmKey (a / 2 ^ 38) (a % 2 ^ 38 + i)))
    else none
  else if a + len ≤ s.hbmBytes (fn - 1) then (List.range len).mapM (fun i => s.hbmOff (fn - 1) (a + i))
  else none

/-- Whether the stacks that keys lie in answer: none is off or training. -/
def State.hbmUp (s : State) (ks : List Nat) : Bool :=
  (hbmSectors ks).all (fun c =>
    let x := s.hbm (engineOf (32 * c) / 32)
    decide (x.phase = .ready ∨ x.phase = .failed))

/-- Count a host access's foreground requests against the partition of its VF (R217, R336). -/
def State.countHost (s : State) (fn : Nat) (ks : List Nat) : State := if fn = 0 then s else s.countLoad (fn - 1) ks

/-- The partition a host access is for, as engines and caches see it: that of its VF, none (32) for PF0. -/
def fnPart (fn : Nat) : Nat := if fn = 0 then 32 else fn - 1

/-- A host read of HBM: the bytes, and whether a sector was poisoned (R246, R336). -/
def State.bar4Read (s : State) (fn : Nat) (ks : List Nat) : State :=
  let r := (s.countHost fn ks).readThrough (fnPart fn) ks
  { r.1 with out := r.1.out ++ [Out.bar4 fn r.2.1 r.2.2] }

/-- A host write of HBM: a partial write of a poisoned sector is not performed (R246). -/
def State.bar4Write (s : State) (fn : Nat) (ks : List Nat) (data : List Byte) : State :=
  ((s.countHost fn ks).writeThrough (fnPart fn) (ks.zip data)).1

/-- BAR4_ACCESS (R336): an access within the BAR reaches the function's memory, or completes as an Unsupported Request. -/
def execBar4Access (fn : Nat) (write : Bool) (off len : Nat) (data : List (BitVec 8)) (s : State) : Out1 :=
  if 33 ≤ fn then .fault .noSuchUnit
  else if s.hostUp = false ∨ s.fnExists fn = false ∨ (s.fn fn).barSize < off + (if write then data.length else len) then
    .next s
  else match s.bar4Keys fn off (if write then data.length else len) with
    | none =>
      let s := { s with out := s.out ++ [Out.unsupported fn] }
      .next (s.logModule 0x0D09 1 (if fn = 0 then none else some (fn - 1)) 0x13 fn 0)
    | some ks =>
      if s.hbmUp ks = false then .next s
      else .next ((s.ifOpen (if write then s.bar4Write fn ks data else s.bar4Read fn ks)).getD s)

/-! ### Submission entries (R340-R342) -/

def enCid (e : Nat) : Nat := bits e 0 16
def enPrio (e : Nat) : Nat := bits e 16 3
def enOp (e : Nat) : Nat := bits e 24 8
def enKey (e : Nat) : Nat := bits e 32 16
def enQueue (e : Nat) : Nat := bits e 64 32
def enArg (e : Nat) : Nat := bits e 160 160

/-- Whether an entry has an invalid field (R341). -/
def entryBad (e : Nat) : Bool :=
  decide (bits e 19 5 ≠ 0 ∨ bits e 48 16 ≠ 0 ∨ bits e 96 64 ≠ 0 ∨ bits e 320 192 ≠ 0) ||
  !(decide (enOp e = 1 ∧ enQueue e = 0) || decide (enOp e = 2))

/-- The event of an entry (R342). -/
def entryEvent (e : Nat) : BitVec 256 :=
  BitVec.ofNat 256 (enPrio e * 2 ^ 11 + enKey e * 2 ^ 16 + enCid e * 2 ^ 64 + enArg e * 2 ^ 96)

/-- The entry is accepted: SQ_HEAD passes it, if it still has a place in the ring (R340). -/
def State.acceptEntry (s : State) (p : Nat) (comp : Option (BitVec 128)) : State :=
  s.modRings p (fun r => { r with
    sqHead := if r.sqHead = r.fetched then r.sqHead else r.sqHead + 1, heldEntry := none,
    pendEntry := if comp.isSome then comp else r.pendEntry })

/-- Whether a queue INDEX names an enabled queue of partition p. -/
def State.queueOpen (s : State) (p qi : Nat) : Bool :=
  decide (qi < 32768) && s.owns p (qi / 1024) && qEnable ((s.shed (qi / 1024)).queue (qi % 1024))

/-- A fetched entry goes to its queue `qi`, is held while that is full, or makes an entry completion (R340, R342). -/
def State.offerEntry (s : State) (p : Nat) (e : BitVec 512) (qi : Nat) : State :=
  let n := e.toNat
  if entryBad n then s.acceptEntry p (some (completion (enCid n) 0x8001 0))
  else if s.queueOpen p qi = false then s.acceptEntry p (some (completion (enCid n) 0x8005 0))
  else match s.pushQueue qi kindHost noStall p (entryEvent n) with
    | .ok t => t.acceptEntry p none
    | .wait t => t.modRings p (fun r => { r with heldEntry := some e })
    | .refuse _ => s.acceptEntry p (some (completion (enCid n) 0x8005 0))

/-- The queue INDEX an entry names (R341). -/
def State.entryTarget (s : State) (p : Nat) (e : BitVec 512) : Nat :=
  if enOp e.toNat = 1 then (s.part p).entryQ else enQueue e.toNat

/-- ENTRY_FETCH (R340): the held entry is offered again, but not during a load; otherwise the next entry of the ring, whose bits are `entry`, is
fetched while the partition runs in Summer and no entry completion is pending. -/
def execEntryFetch (p : Nat) (entry : BitVec 512) (s : State) : Out1 :=
  if 32 ≤ p then .fault .noSuchUnit
  else
    let r := (s.part p).rings
    match r.heldEntry with
    | some e =>
      let qi := s.entryTarget p e
      if s.partRuns p ∨ (s.part p).phase = .stopping ∨ ((s.part p).phase = .stopped ∧ s.queueOpen p qi = true) then
        .next (s.offerEntry p e qi)
      else .next s
    | none =>
      if s.hostUp ∧ s.partRuns p ∧ s.season.phase = .summer ∧ r.pendEntry = none ∧ r.fetched ≠ r.sqTail then
        .next ((s.modRings p (fun r => { r with fetched := r.fetched + 1 })).offerEntry p entry (s.entryTarget p entry))
      else .next s

/-! ### Completions (R343, R344) -/

/-- The software completion the I/O die takes next: the first event of CMPL_Q in dispatch order (R152, R153). -/
def State.nextCompletion (s : State) (p : Nat) : Option Cand :=
  let qi := (s.part p).cmplQ
  let x := s.shed (qi / 1024)
  let q := x.queue (qi % 1024)
  if s.partRuns p = false ∨ 32768 ≤ qi ∨ x.asleep ∨ s.owns p (qi / 1024) = false then none
  else if qJoined q ∧ (x.queue (qPartner q)).items = [] then none
  else (sortBy Cand.le (candsOf (qi % 1024) q.items (fun _ => false) [])).head?

/-- The completion of an event of CMPL_Q (R343): its payload starts at bit 64. -/
def eventCompletion (h : Nat) : BitVec 128 := completion (bits h 0 16) (bits h 16 15) (bits h 32 64)

/-- Take the event of CMPL_Q that its entry was made from; it retires at once. -/
def State.takeCompletion (s : State) (p : Nat) (c : Cand) : State :=
  let k := (s.part p).cmplQ / 1024
  let x := s.shed k
  let q := x.queue c.queue
  let x' := x.setQueue c.queue { q with items := removeAt q.items c.place }
  let pq := x.queue (qPartner q)
  (s.setShed k (if qJoined q then x'.setQueue (qPartner q) { pq with items := pq.items.drop 1 } else x')).touch k

/-- Write a completion entry at CQ_TAIL, with its PHASE, and count it for the interrupt (R343, R344). -/
def State.putCompletion (s : State) (p : Nat) (c : BitVec 128) : State :=
  let r := (s.part p).rings
  let size := s.obj (kCqSize p)
  let n := r.cqTail.toNat
  let e := c.toNat + (1 - n / size % 2) * 2 ^ 32
  let en := bit (s.obj (kIntrCtrl p)) 0
  let s := { s with out := s.out ++ [Out.cq p (s.obj (kCqBase p) + 16 * (n % size)) (BitVec.ofNat 128 e)] }
  s.modRings p (fun r => { r with
    cqTail := r.cqTail + 1, unsig := if en then r.unsig + 1 else r.unsig,
    unsigAt := if en ∧ r.unsig = 0 then s.clock else r.unsigAt })

/-- COMPLETION_WRITE (R343): with room in the ring, the pending entry completion, the pending state completion or the next
software completion is written. -/
def execCompletionWrite (p : Nat) (s : State) : Out1 :=
  if 32 ≤ p then .fault .noSuchUnit
  else
    let r := (s.part p).rings
    if s.hostUp = false ∨ s.obj (kCqSize p) ≤ (r.cqTail - r.cqHead).toNat then .next s
    else match r.pendEntry, r.pendState with
      | some c, _ => .next ((s.modRings p (fun r => { r with pendEntry := none })).putCompletion p c)
      | none, some c => .next ((s.modRings p (fun r => { r with pendState := none })).putCompletion p c)
      | none, none =>
        (match s.nextCompletion p with
         | some c => .next ((s.takeCompletion p c).putCompletion p (eventCompletion c.ev.h.toNat))
         | none => .next s)

/-- Whether partition p's completion interrupt is due (R344). -/
def State.intrDue (s : State) (p : Nat) : Bool :=
  let r := (s.part p).rings
  let c := s.obj (kIntrCtrl p)
  bit c 0 && decide (0 < r.unsig) &&
    (decide (bits c 8 8 ≤ r.unsig) || decide (bits c 16 16 ≠ 0 ∧ r.unsigAt + 1000 * bits c 16 16 ≤ s.clock))

/-- MSIX_RAISE (R344): vector 0 of VF p + 1 where that has MSI-X enabled, otherwise PF0 vector p. -/
def execMsixRaise (p : Nat) (s : State) : Out1 :=
  if 32 ≤ p then .fault .noSuchUnit
  else if s.hostUp = false ∨ s.intrDue p = false then .next s
  else
    let s := s.modRings p (fun r => { r with unsig := 0 })
    .next (if s.fnExists (p + 1) ∧ bit s.host.msixEn (p + 1) then s.raiseMsix (p + 1) 0 else s.raiseMsix 0 p)

end Sys2Proof.Machine
end

