-- ==== Sys2Proof/Machine/Image.lean ====
section
/-!
DEFINITION. The workload image: its layout, and the loader's checks of header, sections, loft layouts, queues, pens and
templates, in the order of R351 (R27, R28, R95, R148, R349-R352).
-/

namespace Sys2Proof.Machine

/-! ### Failures (R352) -/

/-- A failure of a load: CODE, and SECTION, ITEM and DETAIL where the spec gives them (none: a free value). -/
structure LErr where
  code   : Nat
  sect   : Option Nat
  item   : Option Nat
  detail : Option Nat
  deriving DecidableEq, Repr

/-- A check of the loader: it fails, or goes on. -/
abbrev LM := Except LErr

def failIf (b : Bool) (e : LErr) : LM Unit := if b then .error e else .ok ()

def eImage : Nat := 0x0B01
def eSheds : Nat := 0x0B02
def eSection : Nat := 0x0B03
def eLayout : Nat := 0x0B04
def ePen : Nat := 0x0B05
def eTableImg : Nat := 0x0B06
def eQueues : Nat := 0x0B07
def eResource : Nat := 0x0B08
def eObject : Nat := 0x0B09
def eQcfg : Nat := 0x0508

/-- SECTION of a failure found in the header. -/
def hdrSect : Option Nat := some 0xFFFF

/-! ### Header (R349, R351 step 1) -/

def ihFormat (b : List Byte) : Nat := field b 0 4
def ihSheds (b : List Byte) : Nat := field b 4 4
def ihStep (b : List Byte) : Nat := field b 8 8
def ihOpt (b : List Byte) : Nat := field b 16 8
def ihEntryQ (b : List Byte) : Nat := field b 24 4
def ihFaultQ (b : List Byte) : Nat := field b 28 4
def ihCmplQ (b : List Byte) : Nat := field b 32 4
def ihTrap (b : List Byte) : Nat := field b 36 4
def ihSections (b : List Byte) : Nat := field b 40 4
def ihOff (b : List Byte) : Nat := field b 44 4
def ihBytes (b : List Byte) : Nat := field b 48 8
def ihCrc (b : List Byte) : Nat := field b 56 4

/-- The stall address of offset `o` of the partition's HBM (R125). -/
def hbmAddr (o : Nat) : Nat := 2 ^ 48 + o

/-- `n` bytes of the image, whose sectors the controllers have read; outside the granules or poisoned, the image fails. -/
def State.readImage (s : State) (p o n : Nat) : LM (List Byte) :=
  match s.physRange p none (hbmAddr o) n with
  | none => .error ⟨eImage, hdrSect, none, some o⟩
  | some ks => if (hbmSectors ks).any (fun c => decide (s.check c = poisonMark)) then .error ⟨eImage, hdrSect, none, some o⟩
    else .ok (ks.map s.byte)

/-- The loader's reads of an image (R245, R246): its header, and the rest if the header gives it a size within the
partition's HBM. -/
def State.fetchImage (s : State) (p : Nat) : State :=
  let base := s.obj (kImage p)
  let h := s.peek p (hbmAddr base) 128
  let n := ihBytes h.1
  if ihFormat h.1 = 1 ∧ 128 ≤ n ∧ base + n ≤ s.hbmBytes p then (h.2.peek p (hbmAddr (base + 128)) (n - 128)).2 else h.2

/-- Step 1: the image, whole. -/
def State.checkHeader (s : State) (p : Nat) : LM (List Byte) := do
  let base := s.obj (kImage p)
  failIf (decide (s.hbmBytes p < base + 128)) ⟨eImage, hdrSect, none, some base⟩
  let h ← s.readImage p base 128
  failIf (decide (ihFormat h ≠ 1)) ⟨eImage, hdrSect, none, none⟩
  failIf (decide (ihBytes h < 128 ∨ s.hbmBytes p < base + ihBytes h)) ⟨eImage, hdrSect, none, some (ihBytes h)⟩
  let img ← s.readImage p base (ihBytes h)
  failIf (decide (crc32c (splice img 56 (zeros 4)) ≠ ihCrc h)) ⟨eImage, hdrSect, none, none⟩
  failIf ((slice h 60 68).any (fun b => decide (b ≠ 0)) || decide (4 ≤ ihTrap h)) ⟨eImage, hdrSect, none, none⟩
  failIf (decide (ihOff h % 32 ≠ 0 ∨ ihBytes h < ihOff h + 32 * ihSections h)) ⟨eImage, hdrSect, none, some (ihOff h)⟩
  .ok img

/-! ### Sections (R349, R350, R351 step 3) -/

/-- A section entry, with its place in the table. -/
structure Sect where
  idx   : Nat
  kind  : Nat
  shed  : Nat
  stall : Nat
  rsv   : Nat
  src   : Nat
  dest  : Nat
  size  : Nat
  deriving DecidableEq, Repr

def sectOf (img : List Byte) (i : Nat) : Sect :=
  let e := field img (ihOff img + 32 * i) 32
  { idx := i, kind := bits e 0 8, shed := bits e 8 5, stall := bits e 13 5, rsv := bits e 18 46, src := bits e 64 64,
    dest := bits e 128 64, size := bits e 192 64 }

/-- The contents of a section. -/
def Sect.content (x : Sect) (img : List Byte) : List Byte := slice img x.src x.size

/-- Bytes of a record of a kind; 1 for contents of any size (R350). -/
def recordSize (kind : Nat) : Nat :=
  match kind with
  | 4 => 8
  | 7 => 528
  | 8 => 64
  | 9 => 32
  | 10 => 136
  | _ => 1

/-- The records of a section. -/
def Sect.records (x : Sect) (img : List Byte) : List (List Byte) :=
  let n := recordSize x.kind
  (List.range (x.size / n)).map (fun i => slice img (x.src + n * i) n)

/-- A record of an OBJECTS section (R350): index, subindex, value, and whether its reserved byte and padding are zero. -/
structure ObjRec where
  idx   : Nat
  sub   : Nat
  val   : List Byte
  clean : Bool
  deriving DecidableEq, Repr

/-- The records of an OBJECTS section; none if its bytes end within one. -/
def objRecs : Nat → List Byte → Option (List ObjRec)
  | 0, _ => some []
  | n + 1, b =>
    if b = [] then some []
    else
      let k := field b 4 4
      let e := 8 + roundUp k 8
      if b.length < 8 ∨ b.length < e then none
      else (objRecs n (b.drop e)).map (fun rs =>
        { idx := field b 0 2, sub := field b 2 1, val := slice b 8 k,
          clean := decide (field b 3 1 = 0) && (slice b (8 + k) (e - 8 - k)).all (fun c => decide (c = 0)) } :: rs)

/-- Whether BYTES does not suit the kind. -/
def Sect.badSize (x : Sect) (img : List Byte) : Bool :=
  match x.kind with
  | 11 => (objRecs x.size (x.content img)).isNone
  | 2 => decide (x.size ≠ 32)
  | 5 => decide (x.size ≠ 16384)
  | 6 => decide (x.size ≠ 512)
  | k => decide (x.size % recordSize k ≠ 0)

/-- Whether the destination is out of range. -/
def State.badDest (s : State) (p : Nat) (x : Sect) : Bool :=
  match x.kind with
  | 1 => decide (2 ^ 18 < x.dest + x.size)
  | 3 => decide (2 ^ 25 < x.dest + x.size)
  | 13 => decide (x.dest % 32 ≠ 0 ∨ s.hbmBytes p < x.dest + x.size)
  | _ => decide (x.dest ≠ 0)

/-- Whether a kind may appear once only for a stall or shed, and an earlier section is of the same. -/
def Sect.repeats (x : Sect) (before : List Sect) : Bool :=
  before.any (fun y => decide (y.kind = x.kind ∧ y.shed = x.shed ∧
    ((x.kind = 2 ∧ y.stall = x.stall) ∨ x.kind = 4 ∨ x.kind = 5 ∨ x.kind = 6)))

def State.checkSection (s : State) (p : Nat) (img : List Byte) (before : List Sect) (x : Sect) : LM Unit := do
  let at_ : Option Nat → LErr := fun d => ⟨eSection, some x.idx, none, d⟩
  failIf (decide (x.kind = 0 ∨ 13 < x.kind ∨ x.rsv ≠ 0)) (at_ none)
  failIf (bit (ihSheds img) x.shed = false) (at_ none)
  failIf (decide (x.src % 32 ≠ 0 ∨ ihBytes img < x.src + x.size)) (at_ (some x.src))
  failIf (x.badSize img) (at_ (some x.size))
  failIf (x.repeats before) (at_ none)
  let c := x.content img
  failIf (decide (x.kind = 2 ∧ (field c 0 4 % 4 ≠ 0 ∨ 2 ^ 18 ≤ field c 0 4 ∨ field c 4 4 ≠ 0))) (at_ (some (field c 0 4)))
  failIf (s.badDest p x) (at_ (some x.dest))

/-- Step 3: every section, in the order of the table. -/
def State.checkSections (s : State) (p : Nat) (img : List Byte) : LM (List Sect) :=
  let xs := (List.range (ihSections img)).map (sectOf img)
  (xs.foldlM (fun (before : List Sect) x => do
    s.checkSection p img before x
    .ok (before ++ [x])) [])

/-! ### Loft layouts (R351 step 4) -/

def layoutOf (b : List Byte) : List (Nat × Nat) :=
  (List.range (b.length / 8)).map (fun i => (field b (8 * i) 4, field b (8 * i + 4) 4))

/-- Whether two ranges share a byte. -/
def overlaps (a m b n : Nat) : Bool := decide (0 < m ∧ 0 < n ∧ a < b + n ∧ b < a + m)

def checkLayout (x : Sect) (bs : List (Nat × Nat)) : LM Unit :=
  (List.range bs.length).forM (fun i =>
    let b := bs.getD i (0, 0)
    failIf (decide (b.1 % 4096 ≠ 0 ∨ 2 ^ 25 < b.1 + b.2) || (bs.take i).any (fun a => overlaps a.1 a.2 b.1 b.2))
      ⟨eLayout, some x.idx, some i, some b.1⟩)

/-- The loft layout of shed `k` in the image. -/
def imgLayout (img : List Byte) (xs : List Sect) (k : Nat) : List (Nat × Nat) :=
  match xs.find? (fun x => decide (x.kind = 4 ∧ x.shed = k)) with
  | some x => layoutOf (x.content img)
  | none => []

def checkLayouts (img : List Byte) (xs : List Sect) : LM Unit :=
  (xs.filter (fun x => decide (x.kind = 4))).forM (fun x => checkLayout x (layoutOf (x.content img)))

/-! ### Queues (R148, R351 step 5) -/

/-- The queue descriptors of shed `k` in the image: unused where it gives none. -/
def imgQueues (img : List Byte) (xs : List Sect) (k : Nat) : List Nat :=
  match xs.find? (fun x => decide (x.kind = 5 ∧ x.shed = k)) with
  | some x => (List.range 1024).map (fun i => field (x.content img) (16 * i) 16)
  | none => List.replicate 1024 Queue.reset.desc.toNat

/-- A queue that holds no event. -/
def qOf (d : Nat) : Queue := { desc := BitVec.ofNat 128 d, items := [] }

/-- Whether a descriptor has reserved bits or a DEPTH beyond 4,096, or ENABLE with DEPTH 0. -/
def queueBad (d : Nat) : Bool :=
  decide (bits d 28 4 ≠ 0 ∨ bits d 48 16 ≠ 0 ∨ bits d 96 32 ≠ 0 ∨ 4096 < qDepth (qOf d)) ||
  (qEnable (qOf d) && decide (qDepth (qOf d) = 0))

/-- Whether the join of descriptor `i` breaks R148: its partner has consumers, is itself joined, or is shared. -/
def joinBad (ds : List Nat) (i : Nat) : Bool :=
  let q := qOf (ds.getD i 0)
  let p := qOf (ds.getD (qPartner q) 0)
  qJoined q && (decide (qConsumers p ≠ 0) || qJoined p ||
    (List.range i).any (fun j => qJoined (qOf (ds.getD j 0)) && decide (qPartner (qOf (ds.getD j 0)) = qPartner q)))

def checkQueues (img : List Byte) (xs : List Sect) : LM Unit :=
  (xs.filter (fun x => decide (x.kind = 5))).forM (fun x => do
    let ds := imgQueues img xs x.shed
    let total := (ds.map (fun d => qDepth (qOf d))).sum
    failIf (decide (16384 < total)) ⟨eQcfg, some x.idx, none, some total⟩
    (List.range 1024).forM (fun i =>
      let n := qDepth (qOf (ds.getD i 0))
      failIf (queueBad (ds.getD i 0) || joinBad ds i)
        ⟨eQcfg, some x.idx, some i, if n = 0 ∨ 4096 < n then some n else none⟩))

/-- Whether a queue INDEX of the header is enabled and in the partition. -/
def queueNamed (img : List Byte) (xs : List Sect) (qi : Nat) : Bool :=
  decide (qi < 32768) && bit (ihSheds img) (qi / 1024) &&
    qEnable (qOf ((imgQueues img xs (qi / 1024)).getD (qi % 1024) 0))

/-- ENTRY_Q, FAULT_Q and CMPL_Q. -/
def checkNamed (img : List Byte) (xs : List Sect) : LM Unit := do
  let e : LErr := ⟨eQueues, hdrSect, none, none⟩
  let c := ihCmplQ img
  failIf (!(queueNamed img xs (ihEntryQ img))) e
  failIf (!(queueNamed img xs (ihFaultQ img))) e
  failIf (decide (c ≠ 0xFFFFFFFF) && (!(queueNamed img xs c) ||
    decide (qConsumers (qOf ((imgQueues img xs (c / 1024)).getD (c % 1024) 0)) ≠ 0))) e

/-! ### Pens (R27, R28, R350, R351 step 6) -/

/-- A pen record with its INDEX under R25 and its place. -/
structure PenRec where
  sect : Nat
  item : Nat
  idx  : Nat
  members : List Nat
  deriving DecidableEq, Repr

/-- The pen records of a section; a record of a wrong form gives its item, and its count where that is wrong. -/
def pensOf (img : List Byte) (x : Sect) : Except (Nat × Option Nat) (List PenRec) :=
  let rs := x.records img
  (List.range rs.length).mapM (fun i =>
    let b := rs.getD i []
    let n := field b 2 1
    let ms := (List.range 64).map (fun j => field b (16 + 8 * j) 8)
    if n = 0 ∨ 64 < n then .error (i, some n)
    else if 512 ≤ field b 0 2 ∨ field b 3 13 ≠ 0 ∨ (ms.drop n).any (fun m => decide (m ≠ 0)) then .error (i, none)
    else .ok { sect := x.idx, item := i, idx := 512 * x.shed + field b 0 2, members := ms.take n })

/-- Depth of a pen by its local levels (R28): none beyond the fuel, so with fuel 8 a cycle or a depth above 8 has none. -/
def penDepth (ps : List PenRec) : Nat → Nat → Option Nat
  | 0, _ => none
  | n + 1, i =>
    match ps.find? (fun r => decide (r.idx = i)) with
    | none => none
    | some r =>
      (r.members.mapM (fun m =>
        if uaKind m ≠ 7 then some 0
        else if uaLocal m = false then some 1
        else penDepth ps n (uaIndex m))).map (fun ds => 1 + ds.foldl max 0)

/-- KINDs of the leaves of a pen's local levels. -/
def penKinds (ps : List PenRec) : Nat → Nat → List Nat
  | 0, _ => []
  | n + 1, i =>
    match ps.find? (fun r => decide (r.idx = i)) with
    | none => []
    | some r => r.members.flatMap (fun m =>
        if uaKind m ≠ 7 then [uaKind m] else if uaLocal m then penKinds ps n (uaIndex m) else [])

/-- Whether a pen breaks R27 or R28: a member of a reserved kind or with reserved bits, a local member pen that is not
defined, a cycle, a depth above 8, or leaves of two kinds. -/
def penBad (ps : List PenRec) (r : PenRec) : Bool :=
  r.members.any (fun m => decide (uaReserved m ≠ 0 ∨ 8 ≤ uaKind m)) || !(penDepth ps 8 r.idx).any (· ≤ 8) ||
  decide (1 < (dedup (penKinds ps 8 r.idx)).length)

/-- Step 6: every pen record of the image. -/
def checkPens (img : List Byte) (xs : List Sect) : LM (List PenRec) := do
  let ps ← (xs.filter (fun x => decide (x.kind = 7))).foldlM (fun (acc : List PenRec) x =>
    match pensOf img x with
    | .error i => .error ⟨ePen, some x.idx, some i.1, i.2⟩
    | .ok rs => rs.foldlM (fun (acc : List PenRec) r =>
        if acc.any (fun q => decide (q.idx = r.idx)) then .error ⟨ePen, some x.idx, some r.item, none⟩
        else .ok (acc ++ [r])) acc) []
  ps.forM (fun r => failIf (penBad ps r) ⟨ePen, some r.sect, some r.item, none⟩)
  .ok ps

/-! ### Templates (R95, R350, R351 step 7) -/

/-- A template record (R350): command, buffer numbers of its address fields, the MX.LOADW template it names. -/
structure Tmpl where
  cmd  : Nat
  bufs : List Nat
  load : Nat
  zero : Bool                    -- its last bytes are zero
  deriving DecidableEq, Repr

def tmplOf (b : List Byte) : Tmpl :=
  { cmd := field b 0 32, bufs := (List.range 8).map (fun i => field b (32 + 2 * i) 2), load := field b 48 2,
    zero := decide (field b 50 14 = 0) }

/-- Every template of the image, in order; a template's number is its place. -/
def tmplsOf (img : List Byte) (xs : List Sect) : List Tmpl :=
  (xs.filter (fun x => decide (x.kind = 8))).flatMap (fun x => (x.records img).map tmplOf)

/-- A region of a template: the number of its address field, the field, its bytes, and whether it is written. -/
structure TReg where
  fld  : Nat
  addr : Nat
  len  : Nat
  wr   : Bool
  deriving DecidableEq, Repr

/-- The regions of a command; those of a stream need the MX.LOADW `w` it names. -/
def tmplRegions (c : Nat) (w : Option Nat) : List TReg :=
  let f := mxFmtF c
  match mxOp c, w with
  | 1, _ =>
    [⟨0, lwW c, (lwK c - 1) * lwPitch c + rowBytes f (lwN c), false⟩] ++
    (if mxaIsMx f then [⟨1, lwScale c, lwK c / 32 * lwN c, false⟩] else []) ++
    (if lwIdxv c then [⟨2, lwIdx c, 4 * lwEntries c, false⟩] else [])
  | 2, some x =>
    [⟨0, stAct c, (stRows c - 1) * stActPitch c + rowBytes f (lwK x), false⟩] ++
    (if mxaIsMx f then [⟨1, stAscale c, stRows c * (lwK x / 32), false⟩] else []) ++
    [⟨2, stTot c, (stRows c - 1) * stTotPitch c + 8 * lwN x, true⟩]
  | 3, some x =>
    [⟨0, spRuns c, 1, false⟩, ⟨1, spPtr c, 4 * (stRows c + 1), false⟩] ++
    (if spMode c then [⟨2, spAct c, (stRows c - 1) * spActPitch c + rowBytes f (lwK x), false⟩] else []) ++
    [⟨3, stTot c, (stRows c - 1) * spTotPitch c + 8 * lwN x, true⟩]
  | 4, _ => [⟨0, drOut c, 1, true⟩] ++ (if drForm c then [⟨0, drOut c + drPitch c, 1, true⟩] else [])
  | _, _ => []

/-- Where a region starts in the loft: in the buffer its field has, or in the one that contains it; none outside.  Both
columns of a FORM 1 drain lie in the buffer that its OUT field has: R95 says that a template's buffer contains the region,
and not whether OUT + OUT_PITCH may lie in another one (the model's choice, log 54). -/
def regStart (lay : List (Nat × Nat)) (bufs : List Nat) (r : TReg) : Option Nat :=
  let b := bufs.getD r.fld 0xFFFF
  if b = 0xFFFF then
    if lay.any (fun e => decide (e.1 ≤ r.addr ∧ r.addr + r.len ≤ e.1 + e.2)) then some r.addr else none
  else
    match lay[b]? with
    | some e => if r.addr + r.len ≤ e.2 then some (e.1 + r.addr) else none
    | none => none

/-- Whether a pitch is below the row it steps over, as the MX.LOADW that the template names gives it (E_ALIGN): R92 has
this check at Start, and R95 does not say that the loader makes it (the model's choice, log 54). -/
def tmplPitchBad (c : Nat) (w : Option Nat) : Bool :=
  match mxOp c, w with
  | 2, some x => decide (stActPitch c < rowBytes (mxFmtF c) (lwK x) ∨ stTotPitch c < 8 * lwN x)
  | 3, some x => decide ((spMode c ∧ spActPitch c < rowBytes (mxFmtF c) (lwK x)) ∨ spTotPitch c < 8 * lwN x)
  | _, _ => false

/-- Whether a format is wrong (E_FMT): reserved, of another group than the slot's, or MX in MX.SPSTREAM. -/
def tmplFmtBad (c : Nat) (w : Option Nat) : Bool :=
  let g := mxaGroup (mxFmtF c)
  match mxOp c with
  | 1 => g.isNone
  | 4 => drFinal c && decide (drOfmt c = 7)
  | 5 => false
  | op => g.isNone || decide (op = 3 ∧ g = some 4) ||
      (match w with | some x => decide (mxaGroup (mxFmtF x) ≠ g) | none => false)

/-- Whether a region that is written shares a byte with one that is read (E_OVERLAP). -/
def tmplOverlap (lay : List (Nat × Nat)) (bufs : List Nat) (rs : List TReg) : Bool :=
  let ps := rs.filterMap (fun r => (regStart lay bufs r).map (fun a => (a, r)))
  ps.any (fun x => x.2.wr && ps.any (fun y => !(y.2.wr) && overlaps x.1 x.2.len y.1 y.2.len))

/-- The first check a template fails, with an address where one offends; 0 for none (R92, R95). -/
def State.tmplCheck (s : State) (p : Nat) (all : List Tmpl) (lay : List (Nat × Nat)) (t : Tmpl) : Nat × Option Nat :=
  let c := t.cmd
  let stream := decide (mxOp c = 2 ∨ mxOp c = 3)
  let named := if stream then (all[t.load]?).map Tmpl.cmd else none
  let w := match named with | some x => if mxOp x = 1 then some x else none | none => none
  let rs := tmplRegions c w
  if t.zero = false ∨ mxBadField c ∨ (stream = false ∧ t.load ≠ 0xFFFF) then (0x0301, none)
  else if mxOp c = 1 ∧ mxaIsMx (mxFmtF c) ∧ lwK c % 32 ≠ 0 then (0x0308, none)
  else if mxBadAlign c ∨ tmplPitchBad c w then (0x0304, none)
  else if mxBadBounds c then (0x0305, none)
  else match rs.find? (fun r => (regStart lay t.bufs r).isNone) with
    | some r => (0x0305, some r.addr)
    | none =>
      if s.badTarget p c then (0x030A, none)
      else if tmplFmtBad c w then (0x0303, none)
      else if stream && (match w with | none => true | some x => decide (mxOp c = 3 ∧ lwAxis x ≠ spMode c)) then (0x0307, none)
      else if tmplOverlap lay t.bufs rs then (0x030C, none)
      else (0, none)

def State.checkTemplates (s : State) (p : Nat) (img : List Byte) (xs : List Sect) : LM Unit :=
  let all := tmplsOf img xs
  (xs.filter (fun x => decide (x.kind = 8))).forM (fun x =>
    let rs := x.records img
    (List.range rs.length).forM (fun i =>
      let r := s.tmplCheck p all (imgLayout img xs x.shed) (tmplOf (rs.getD i []))
      failIf (decide (r.1 ≠ 0)) ⟨r.1, some x.idx, some i, r.2⟩))

/-- Tables: KIND 1-4, BASE a multiple of 32, reserved bits zero. -/
def tableRecBad (b : List Byte) : Bool :=
  let e := ofBytes b
  decide (bits e 8 4 = 0 ∨ 4 < bits e 8 4 ∨ bits e 64 64 % 32 ≠ 0 ∨ bits e 12 4 ≠ 0 ∨ bits e 32 32 ≠ 0 ∨ bits e 128 128 ≠ 0)

def checkTables (img : List Byte) (xs : List Sect) : LM Unit :=
  (xs.filter (fun x => decide (x.kind = 9))).forM (fun x =>
    let rs := x.records img
    (List.range rs.length).forM (fun i =>
      failIf (tableRecBad (rs.getD i [])) ⟨eTableImg, some x.idx, some i, some (field (rs.getD i []) 8 8)⟩))

end Sys2Proof.Machine
end

