-- ==== Sys2Proof/Machine/Loader.lean ====
section
/-!
DEFINITION. The end of a load (R351): the checks of plans, objects, training, pipeline and resources, made on the state as
the image would leave it; the writes and resets of a success; LOAD_STATUS of a failure (R91, R134, R284, R290, R295-R322,
R340, R347, R352, R354).
-/

namespace Sys2Proof.Machine

/-! ### What the image writes (R350, R351) -/

/-- The contents of STALL_MEM, LOFT_DATA and HBM_DATA sections. -/
def State.loadBytes (s : State) (p : Nat) (img : List Byte) (x : Sect) : State :=
  let c := x.content img
  match x.kind with
  | 1 => s.putBytes (stallKey (32 * x.shed + x.stall) x.dest) c
  | 3 => s.putBytes (loftKey x.shed x.dest) c
  | 13 => s.poke p (hbmAddr x.dest) c
  | _ => s

/-- A stall as the image starts it: its STALL_START, or parked (R103, R350). -/
def startStall (img : List Byte) (xs : List Sect) (t : Nat) : Stall :=
  match xs.find? (fun x => decide (x.kind = 2 ∧ 32 * x.shed + x.stall = t)) with
  | some x =>
    let c := x.content img
    { Stall.reset with
      pc := BitVec.ofNat 32 (field c 0 4), rngKey := BitVec.ofNat 64 (field c 8 8), rngLo := BitVec.ofNat 64 (field c 16 8),
      rngHi := BitVec.ofNat 64 (field c 24 8), mode := .running }
  | none => Stall.reset

/-- The flags of shed `k` that the image sets (R134, R350). -/
def imgFlags (img : List Byte) (xs : List Sect) (k : Nat) : FMap Bool :=
  match xs.find? (fun x => decide (x.kind = 6 ∧ x.shed = k)) with
  | some x =>
    let c := x.content img
    (List.range 4096).filterMap (fun f => if (c.getD (f / 8) 0).getLsbD (f % 8) then some (f, true) else none)
  | none => []

/-- The queues of shed `k`, empty, as the image configures them (R148). -/
def startQueues (img : List Byte) (xs : List Sect) (k : Nat) : FMap Queue :=
  let ds := imgQueues img xs k
  (List.range 1024).filterMap (fun i =>
    if qOf (ds.getD i 0) = Queue.reset then none else some (i, qOf (ds.getD i 0)))

/-- The pens of shed `k` (R28). -/
def startPens (ps : List PenRec) (k : Nat) : FMap (List (BitVec 64)) :=
  (ps.filter (fun r => decide (r.idx / 512 = k))).foldl (fun m r =>
    FMap.set (fun _ => []) m (r.idx % 512) (r.members.map (BitVec.ofNat 64))) []

/-- A shed as a start leaves it (R91, R134, R148, R185, R351): sticky bits stay. -/
def State.startShed (s : State) (img : List Byte) (xs : List Sect) (ps : List PenRec) (k : Nat) : State :=
  let x := s.shed k
  let s := s.setShed k { x with
    flags := imgFlags img xs k, watches := [], pens := startPens ps k, queues := startQueues img xs k, delay := [],
    asleep := false, busyAt := s.clock, mxa := { x.mxa.resetAll with queue := [], held := [] },
    sampler := { x.sampler with queue := [], cur := none, tmpl := none, held := [] }, layout := imgLayout img xs k }
  (List.range 32).foldl (fun s i => s.setStall (32 * k + i) (startStall img xs (32 * k + i))) s

/-- Whether a push waits for the slot of a fired watch of the sheds `ks`; such watches are reset (R134). -/
def firedIn (ks : List Nat) (u : Push) : Bool := match u.reply with | .slot k _ => ks.contains k | _ => false

/-- TABLE_DESC of the image's tables; every other table of p is unused (R198, R350). -/
def State.startTables (s : State) (p : Nat) (img : List Byte) (xs : List Sect) : State :=
  let s := { s with objs := s.objs.filter (fun e => decide (e.1 / 256 ≠ 0x2300 + p)) }
  ((xs.filter (fun x => decide (x.kind = 9))).flatMap (fun x => x.records img)).foldl (fun s b =>
    let e := ofBytes b
    s.setObj (kTable p (bits e 0 8)) (word [(0, bits e 64 64), (64, bits e 16 16), (80, bits e 8 4)])) s

/-- The state the image would leave, but for plans and objects: memory, sheds, stalls and tables, with the partition
stopped so that objects may be written; a CUR that no record gives is 0 (R309). -/
def State.tentative (s : State) (p : Nat) (img : List Byte) (xs : List Sect) (ps : List PenRec) : State :=
  let ks := s.shedsOf p
  let s := xs.foldl (fun s x => s.loadBytes p img x) s
  let s := ks.foldl (fun s k => s.startShed img xs ps k) { s with pushes := s.pushes.filter (fun u => !(firedIn ks u)) }
  let s := s.modPart p (fun x => { x with
    phase := .stopped, entryQ := ihEntryQ img, faultQ := ihFaultQ img, cmplQ := ihCmplQ img, orders := [], spilled := [],
    plans := [], base := (List.range 4).filterMap (fun y =>
      if (s.yard y).cycles = 0 then none else some (y, (s.yard y).cycles)) })
  let s := (List.range 32).foldl (fun s g => s.setObj (kGroup p g) (setBits (s.obj (kGroup p g)) 2 1 0)) s
  ({ s with fwd := s.fwd.filter (fun f => decide (f.part ≠ p)) } : State).startTables p img xs

/-! ### Plans (R283, R290) -/

/-- Bytes of an element of a plan's format code. -/
def planSize (f : Nat) : Nat := if f = 0 then 4 else 2

/-- Bytes of OBUF that a plan needs in mode `m`. -/
def obufNeed (d m : Nat) : Nat :=
  match m with
  | 1 => (plN d - 1) * plShard d * 4
  | 2 => plElems d * planSize (plOfmt d)
  | _ => 0

/-- The first of a list of conditions that holds, with the address or count that offends where there is one (R352). -/
def firstBad (cs : List (Bool × Option Nat)) : Option (Option Nat) := (cs.find? Prod.fst).map Prod.snd

/-- Whether a region lies in the partition, is aligned, and lies in HBM where it must (R283, R290). -/
def State.planRegion (s : State) (p : Nat) (hbm : Bool) (a n : Nat) : Bool :=
  decide (n = 0) || (decide (a % 32 = 0) && (!hbm || (inHbm a && inHbm (a + n - 1))) && s.mapped p none a n)

/-- The regions of a plan: whether each must lie in HBM, its address and its bytes (R283). -/
def planRegions (d : Nat) : List (Bool × Nat × Nat) :=
  [(false, plRanks d, 4 * plN d), (true, plSrc d, plElems d * planSize (plIfmt d)),
    (true, plDst d, plElems d * planSize (plOfmt d)), (true, plAcc d, plShard d * 4), (true, plObuf d, plObufKib d * 1024),
    (false, plSideIn d, 4 * plMbCount d), (false, plSideOut d, 64)]

/-- What is wrong with a plan (R283, R290). -/
def State.planBad (s : State) (p d : Nat) : Option (Option Nat) :=
  if bits d 11 21 ≠ 0 ∨ bits d 49 15 ≠ 0 ∨ bits d 81 15 ≠ 0 ∨ bits d 480 32 ≠ 0 ∨ bits d 704 320 ≠ 0 ∨
      plMode d = 3 ∨ plIfmt d = 3 ∨ plOfmt d = 3 then some none
  else if plValid d = false then none
  else
    firstBad ([(decide (4 < plMbCount d), some (plMbCount d)), (decide (plN d ≤ plRank d), some (plRank d)),
        (decide (plElems d = 0), some 0), (decide (plObufKib d * 1024 < obufNeed d (plMode d)), some (plObufKib d))] ++
      (planRegions d).map (fun r => (!(s.planRegion p r.1 r.2.1 r.2.2), some r.2.1)) ++
      [(decide (s.rankOf p d (plRank d) ≠ (s.device, p)), some (plRanks d + 4 * plRank d))])

/-- The plans of the image: all others do not exist. -/
def State.loadPlans (s : State) (p : Nat) (img : List Byte) (xs : List Sect) : LM State :=
  let s := { s with objs := s.objs.filter (fun e => decide (e.1 / 256 ≠ 0x2160 + p)) }
  (xs.filter (fun x => decide (x.kind = 10))).foldlM (fun s x =>
    let rs := x.records img
    (List.range rs.length).foldlM (fun (s : State) i =>
      let b := rs.getD i []
      let d := field b 8 128
      if 64 ≤ field b 0 1 ∨ field b 1 7 ≠ 0 then .error ⟨0x0908, some x.idx, some i, none⟩
      else match s.planBad p d with
        | some e => .error ⟨0x0908, some x.idx, some i, e⟩
        | none => .ok (s.setObj (kPlan p (field b 0 1)) d)) s) s

/-! ### Objects (R350, R351 step 8) -/

/-- Objects that change only while p is stopped or free, and PART_CTRL: an image may not set them. -/
def objBarred (p idx sub : Nat) : Bool :=
  (decide (idx = 0x2000 + p) && [0x01, 0x02, 0x03, 0x04, 0x06, 0x08, 0x09, 0x0A, 0x0B, 0xB1, 0xD0].contains sub) ||
  decide (idx = 0x2140 + p ∧ sub = 0x10)

/-- RO bits whose reset is the image's (R198, R306). -/
def imageBits (p idx sub : Nat) : Nat :=
  if idx = 0x2300 + p then mask [(83, 0)]
  else if idx = 0x2400 + p ∧ 0x10 ≤ sub ∧ sub ≤ 0x2F then mask [(2, 2)] else 0

/-- Whether a value for TABLE_DESC names a reserved KIND or a BASE that is no multiple of 32. -/
def tableValBad (p idx v : Nat) : Bool := decide (idx = 0x2300 + p ∧ (4 < tdKind v ∨ tdBase v % 32 ≠ 0))

/-- One record of an OBJECTS section; none if it is not allowed or invalid. -/
def State.loadObject (s : State) (p : Nat) (r : ObjRec) : Option State :=
  match objDef r.idx r.sub with
  | none => none
  | some d =>
    let v := ofBytes r.val
    let old := s.valueOf r.idx r.sub
    let im := imageBits p r.idx r.sub
    let ro := d.ro - (d.ro &&& im)
    if objPart r.idx r.sub ≠ some p ∨ objBarred p r.idx r.sub ∨ d.all ∨ r.clean = false ∨ r.val.length ≠ d.size ∨
        v &&& d.rsv ≠ 0 ∨ (v ^^^ old) &&& ro ≠ 0 ∨ tableValBad p r.idx v then none
    else
      let k := objKey r.idx r.sub
      let s := if im = 0 then s else s.setObj k ((s.obj k - (s.obj k &&& im)) ||| (v &&& im))
      (s.writeObj r.idx r.sub v).toOption

def State.loadObjects (s : State) (p : Nat) (img : List Byte) (xs : List Sect) : LM State :=
  (xs.filter (fun x => decide (x.kind = 11))).foldlM (fun s x =>
    let rs := (objRecs x.size (x.content img)).getD []
    (List.range rs.length).foldlM (fun (s : State) i =>
      match (rs[i]?).bind (fun r => s.loadObject p r) with
      | some t => .ok t
      | none => .error ⟨eObject, some x.idx, some i, none⟩) s) s

/-! ### Training (R299, R306, R311-R313, R322) -/

/-- Whether a flag field of VERDICT_CFG is neither none nor a flag of the partition. -/
def State.vflagBad (s : State) (p i : Nat) : Bool := decide (i ≠ 0xFFFFFFFF) && (s.cfgFlag p i).isNone

/-- Whether VTARGET is no queue, or pen of queues, of the partition (R26, R322). -/
def State.vtargetBad (s : State) (p a : Nat) : Bool :=
  match s.resolve p a [3] with
  | .plain _ _ => false
  | .pen _ => false
  | _ => true

/-- E_VCFG (R311, R322): an invalid NOISE_CFG whenever MBN is above 0, the rest where the engine runs. -/
def State.verdictBad (s : State) (p : Nat) : Option (Option Nat) :=
  let c := s.obj (kVerdictCfg p)
  let n := s.obj (kNoiseCfg p)
  let mb := plMbCount (s.obj (kPlan p (vcTail c)))
  let noise : List (Bool × Option Nat) :=
    if vcMbn c = 0 then []
    else [(decide (bits n 32 32 = 0), some 0), (decide (bits n 64 32 ≤ bits n 32 32), some (bits n 64 32)),
      (decide (bits n 96 32 = 0), some 0), (alphaBad (bits n 0 32), none)]
  let engine : List (Bool × Option Nat) :=
    if vcEnable c = false then []
    else [(!(bit (vcPlans c) (vcTail c)), none),
      ((List.range 64).any (fun i => bit (vcPlans c) i && !(plValid (s.obj (kPlan p i)))), none),
      (decide (mb < 1 + vcMbn c), some mb), (decide (vcVstart c = 0xFFFFFFFF), some (vcVstart c))] ++
      [vcVstart c, vcVflag c, vcApply c, vcAltFree c].map (fun f => (s.vflagBad p f, some f)) ++
      [(decide (vcTarget c ≠ 0) && s.vtargetBad p (vcTarget c), some (vcTarget c))]
  firstBad (engine ++ noise)

/-- E_GROUP of group `g`. -/
def State.groupBad (s : State) (p g : Nat) : Option (Option Nat) :=
  let x := s.obj (kGroup p g)
  let t : Nat → Nat → Bool × Option Nat := fun tab m =>
    let d := s.obj (kTable p tab)
    (decide (tab ≠ 0xFF ∧ (tdKind d ≠ 4 ∨ tdBase d ≠ grBase x m (grCur x))), some (tdBase d))
  if grValid x = false then none
  else
    firstBad ([grBase x 0 0, grBase x 0 1, grBase x 1 0, grBase x 1 1].map (fun b => (decide (b % 32 ≠ 0), some b)) ++
      (if grTabled x then [t (grTable x) 0, t (grMtable x) 1] else []))

/-- E_MIRROR. -/
def State.mirrorCfgBad (s : State) (p : Nat) : Option (Option Nat) :=
  let m := s.obj (kMirrorCfg p)
  let n := mcCount m
  let b := s.seen p (mcList m) (16 * n)
  let es := (List.range n).map (fun i => field b (16 * i) 16)
  if mcEnable m = false then none
  else
    firstBad ([(!(s.mapped p none (mcList m) (16 * n)), some (mcList m))] ++
      es.flatMap (fun e => [(decide (bits e 64 64 % 32 ≠ 0), some (bits e 64 64)),
        (if bit e 63 then !(grValid (s.obj (kGroup p (bits e 0 5)))) else decide (bits e 0 63 % 32 ≠ 0), some (bits e 0 63))]) ++
      [(decide (mcBytes m < 4096 + (es.map (fun e => bits e 64 64)).sum + 32), some (mcBytes m))])

/-- A check that gives what offends: it fails with a code, or goes on. -/
def failWith (code : Nat) : Option (Option Nat) → LM Unit
  | none => .ok ()
  | some d => .error ⟨code, none, none, d⟩

def State.checkTraining (s : State) (p : Nat) : LM Unit := do
  failWith 0x0A01 (s.verdictBad p)
  (List.range 32).forM (fun g => failWith 0x0A02 (s.groupBad p g))
  failWith 0x0A03 (s.mirrorCfgBad p)

/-! ### The pipeline (R319, R320) -/

/-- What a PIPELINE section declares; how its bytes spell it is free. -/
structure Pipe where
  layers : Nat
  stages : List (Nat × Nat × Nat)      -- sheds, layers, cost
  pads   : List (Nat × Nat)            -- padding regions: stall address, bytes
  deriving DecidableEq, Repr

def pipeOf (b : List Byte) : Pipe :=
  let n := Config.pipe b 1
  { layers := Config.pipe b 0,
    stages := (List.range n).map (fun i => (Config.pipe b (2 + 3 * i), Config.pipe b (3 + 3 * i), Config.pipe b (4 + 3 * i))),
    pads := (List.range (Config.pipe b (2 + 3 * n))).map (fun i =>
      (Config.pipe b (3 + 3 * n + 2 * i), Config.pipe b (4 + 3 * n + 2 * i))) }

/-- What is wrong with a division of the layers into stages (R319): the shed count of a stage, or its layers. -/
def Pipe.divisionBad (x : Pipe) : Option (Option Nat) :=
  let n := x.stages.length
  firstBad ([(decide (n = 0), some 0)] ++
    x.stages.map (fun a => (decide (a.1 ≠ (x.stages.headD (0, 0, 0)).1), some a.1)) ++
    x.stages.map (fun a => (decide (a.2.1 ≠ x.layers / n ∧ a.2.1 ≠ ceilDiv x.layers n), some a.2.1)) ++
    [(decide ((x.stages.map (fun a => a.2.1)).sum ≠ x.layers), some x.layers)])

/-- The regions a padding region must keep clear of: SRC and DST of plans, and the regions of the verdict (R320). -/
def State.reduced (s : State) (p : Nat) : List (Nat × Nat) :=
  let plans := (List.range 64).flatMap (fun i =>
    let d := s.obj (kPlan p i)
    if plValid d then [(plSrc d, plElems d * planSize (plIfmt d)), (plDst d, plElems d * planSize (plOfmt d))] else [])
  let c := s.obj (kVerdictCfg p)
  let b := s.seen p (vcList c) (16 * vcRegions c)
  let regs := (List.range (vcRegions c)).map (fun i =>
    let e := field b (16 * i) 16
    (bits e 0 64, if bits e 64 24 = 0 then 0 else (bits e 64 24 - 1) * (32 * bits e 104 24) + 4 * (bits e 88 16 + 1)))
  plans ++ (if vcEnable c then regs else [])

/-- PIPE_IMBALANCE (R319): max ÷ mean of the costs, rounded once; free when every cost is 0. -/
def Pipe.imbalance (x : Pipe) (free : Nat) : Nat :=
  let cs := x.stages.map (fun a => a.2.2)
  if cs.sum = 0 then free % 2 ^ 32
  else fp32.encode ((fOfInt (cs.foldl max 0 * cs.length : Nat)).div (fOfInt (cs.sum : Nat)))

/-- Step 9. -/
def State.loadPipes (s : State) (p : Nat) (img : List Byte) (xs : List Sect) : LM State :=
  (xs.filter (fun x => decide (x.kind = 12))).foldlM (fun (s : State) x =>
    let y := pipeOf (x.content img)
    let pads := firstBad (y.pads.map (fun a => ((s.reduced p).any (fun b => overlaps a.1 a.2 b.1 b.2), some a.1)))
    match y.divisionBad.orElse (fun _ => pads) with
    | some d => .error ⟨0x0A04, some x.idx, none, d⟩
    | none => .ok ((s.setObj (kPipe p) (y.imbalance (Config.freeNat s.free))).draw)) s

/-! ### Resources (R184, R310, R354, R351 step 10) -/

/-- Bytes of an HBM region that lie beyond the partition's granules. -/
def State.beyond (s : State) (p a n : Nat) : Nat := if inHbm a then a - 2 ^ 48 + n - s.hbmBytes p else 0

/-- Bytes that a copy of a group misses: the rows of its table, or its first byte where no table gives its size. -/
def State.copyBeyond (s : State) (p : Nat) (tabled : Bool) (base : Nat) : Nat :=
  if base = 0 then 0
  else if tabled then
    let t := rowTabOf (s.seen p base 96)
    max (s.beyond p base 96) (s.beyond p t.rowsBase (t.count * t.pitch))
  else s.beyond p base 1

/-- Bytes missing for group `g`. -/
def State.groupShort (s : State) (p g : Nat) : Nat :=
  let x := s.obj (kGroup p g)
  if grValid x = false then 0
  else ((if grSpec x then [0, 1] else [0]).map (fun c =>
    max (s.copyBeyond p (grTabled x) (grBase x 0 c)) (s.copyBeyond p (grTabled x) (grBase x 1 c)))).foldl max 0

/-- Bytes missing for the order buffer of table `t` under STRICT. -/
def State.orderShort (s : State) (p t : Nat) : Nat :=
  let d := s.obj (kTable p t)
  if tdKind d ≠ 4 then 0
  else
    let x := rowTabOf (s.seen p (tdBase d) 96)
    if x.orderBuf = 0 then 0 else s.beyond p x.orderBuf (x.orderCap * x.orderSize)

/-- Bytes missing in the OBUF of plan `n` under STRICT. -/
def State.obufShort (s : State) (p n : Nat) : Nat :=
  let d := s.obj (kPlan p n)
  if plValid d ∧ plMode d = 0 then obufNeed d 1 - plObufKib d * 1024 else 0

/-- Bytes missing of whatever the partition needs. -/
def State.shortfall (s : State) (p : Nat) : Nat :=
  let gs := (List.range 32).map (fun g => s.groupShort p g)
  let os := if s.strict p then
    (List.range 256).map (fun t => s.orderShort p t) ++ (List.range 64).map (fun n => s.obufShort p n) else []
  let ra := (s.obj (kRaGranules p) - (s.part p).stage.length) * 2 ^ 30
  ((gs ++ os ++ [ra]).find? (fun n => decide (n ≠ 0))).getD 0

/-! ### The load (R351) -/

/-- Every check of R351 in its order; on success the state the image leaves. -/
def State.load (s : State) (p : Nat) : LM (List Byte × State) := do
  let img ← s.checkHeader p
  failIf (decide (ihSheds img ≠ (s.part p).sheds.toNat)) ⟨eSheds, hdrSect, none, none⟩
  let xs ← s.checkSections p img
  checkLayouts img xs
  checkQueues img xs
  checkNamed img xs
  let ps ← checkPens img xs
  s.checkTemplates p img xs
  checkTables img xs
  let t ← (s.tentative p img xs ps).loadPlans p img xs
  let t ← t.loadObjects p img xs
  t.checkTraining p
  let t ← t.loadPipes p img xs
  failIf (decide (t.shortfall p ≠ 0)) ⟨eResource, none, none, some (t.shortfall p)⟩
  .ok (img, t)

/-- ACC of every plan is zeroed (R284). -/
def State.zeroAccs (s : State) (p : Nat) : State :=
  (List.range 64).foldl (fun s n =>
    let d := s.obj (kPlan p n)
    if plValid d then s.poke p (plAcc d) (zeros (4 * plShard d)) else s) s

/-- The verdict engine as a start leaves it (R302, R309, R321): no verdict has been formed; sticky bits stay. -/
def State.startTrain (s : State) (p : Nat) : State :=
  (s.setObj (kVerdict p) (setBits (s.obj (kVerdict p)) 0 1 0)).modTrain p (fun t => { t with
    state := if vcEnable (s.obj (kVerdictCfg p)) then 1 else 0, finiteRun := 0, first := true, formed := false,
    nonfin := false, clipped := false, regionErr := false })

/-- STEP, OPT_STEP, NAN_TRAP_CTRL and LOAD_STATUS (R64, R296, R351). -/
def State.startObjects (s : State) (p : Nat) (img : List Byte) : State :=
  (((s.setObj (kStep p) (ihStep img)).setObj (kOptStep p) (ihOpt img)).setObj (kNanTrap p) (ihTrap img)).setObj
    (kLoadStatus p) 0

/-- A held submission entry is offered to its queue, by the number it had, in the reset queues (R340). -/
def State.offerHeld (s : State) (p qi : Nat) : State :=
  match (s.part p).rings.heldEntry with
  | some e => s.offerEntry p e qi
  | none => s

/-- The partition runs, or goes on to stopping if a STOP was held (R347). -/
def State.startRunning (s : State) (p : Nat) : State :=
  let stop := (s.part p).stopReq
  let s := s.modPart p (fun x => { x with phase := .running })
  if stop then s.beginStop p false else s

/-- A load that succeeds; `old` is the state before it. -/
def State.loadDone (s old : State) (p : Nat) (img : List Byte) : State :=
  let qi := match (old.part p).rings.heldEntry with | some e => old.entryTarget p e | none => 0
  let s := ((s.zeroAccs p).startTrain p).startObjects p img
  let s := s.modMirror p (fun m => { m with slotOk := false, extra := false })
  (s.startRunning p).offerHeld p qi

/-- LOAD_STATUS of a failure (R352). -/
def State.loadStatus (s : State) (e : LErr) : Nat :=
  e.code + (e.sect.getD (Config.freeNat s.free)) % 2 ^ 16 * 2 ^ 16 +
    (e.item.getD (Config.freeNat (s.free + 1))) % 2 ^ 32 * 2 ^ 32 +
    (e.detail.getD (Config.freeNat (s.free + 2))) % 2 ^ 64 * 2 ^ 64

/-- A load that fails (R347, R351, R401): STATE 1, LOAD_FAILED, a log entry and a completion LOAD_FAILED. -/
def State.loadFailed (s : State) (p : Nat) (e : LErr) : State :=
  let w := s.loadStatus e
  let s := ({ s with free := s.free + 3 }.setObj (kLoadStatus p) w).logPart p e.code 2 0x16 0 (w / 2 ^ 64)
  s.modPart p (fun x => { x with
    phase := .stopped, loadFailed := true, stopReq := false,
    rings := { x.rings with pendState := some (completion 0 0x8002 (w % 2 ^ 64)) } })

/-- What the checks of plans, training and the pipeline read of the partition's memory (R245, R246). -/
def State.loaderReads (s : State) (p : Nat) (img : List Byte) : List (Nat × Nat) :=
  let ranks := (List.range 64).filterMap (fun n =>
    let d := s.obj (kPlan p n)
    if plValid d then some (plRanks d, 4 * plN d) else none)
  let m := s.obj (kMirrorCfg p)
  let c := s.obj (kVerdictCfg p)
  let pipes := (List.range (ihSections img)).any (fun i => decide ((sectOf img i).kind = 12))
  let bases := (List.range 32).flatMap (fun g =>
    let x := s.obj (kGroup p g)
    if grValid x ∧ grTabled x then ([grBase x 0 0, grBase x 0 1, grBase x 1 0, grBase x 1 1].filter (· ≠ 0)).map (fun b => (b, 96))
    else [])
  ranks ++ (if mcEnable m then [(mcList m, 16 * mcCount m)] else []) ++
    (if pipes then [(vcList c, 16 * vcRegions c)] else []) ++ bases

/-- LOAD_END (R351): the loader's checks end, and the image is written or the load fails. -/
def execLoadEnd (p : Nat) (s : State) : Out1 :=
  if 32 ≤ p then .fault .noSuchUnit
  else if (s.part p).phase ≠ .loading then .next s
  else
    let u := s.fetchImage p
    .next ((s.ifOpen (match u.load p with
      | .ok r => ((r.2.loaderReads p r.1).foldl (fun s a => (s.peek p a.1 a.2).2) r.2).loadDone u p r.1
      | .error e => u.loadFailed p e)).getD s)

end Sys2Proof.Machine
end

