-- ==== Sys2Proof/Machine/Clock.lean ====
section
/-!
DEFINITION. What passes with time: the microsecond that goes by when no command waits, the wraps of cycle-driven counts, and
a stall that meets a word no instruction has (R32, R100, R105, R131, R249, R280, R362, R386, R387).
-/

namespace Sys2Proof.Machine

/-! ### Performance counters (R387) -/

/-- Sheds of a yard (R5). -/
def yardSheds (y : Nat) : List Nat := (List.range 8).map (fun i => 8 * y + i)

/-- Whether a port has a packet to start and too few credits for it. -/
def Port.wantsCredit (x : Port) : Bool := x.linked && !x.txq.isEmpty && x.ready?.isNone

/-- Whether event `e` of PERF_SEL holds in yard `y` throughout a microsecond; dispatches are counted as they happen. -/
def State.perfHolds (s : State) (y e : Nat) : Bool :=
  let x := s.yard y
  match e with
  | 0 => true
  | 1 => (yardSheds y).any (fun k => (s.mxa k).stream.isSome)
  | 3 => (yardSheds y).all (fun k => (s.shed k).asleep)
  | 4 => decide (0 < x.droop)
  | 5 => decide (x.point < s.obj (kMaxPoint y))
  | 6 => (List.range 96).any (fun i => decide (256 ≤ (s.engine (96 * y + i)).occupied))
  | 7 => (List.range 3).any (fun i => (s.port (3 * y + i)).wantsCredit)
  | _ => false

/-- Shed-clock cycles of yard `y` in the microsecond that begins at time `t` of the reference. -/
def State.cyclesIn (s : State) (y t : Nat) : Nat :=
  let f := freqKhz (s.yard y).speed
  let n := t / 1000
  f * (n + 1) / 1000 - f * n / 1000

/-- PERF_n counts a microsecond. -/
def State.countPerf (s : State) (n : Nat) : State :=
  let c := s.obj (kPerfSel n)
  let y := bits c 4 2
  if s.perfHolds y (bits c 0 4) then s.setPerf n { s.perf n with count := (s.perf n).count + s.cyclesIn y s.clock } else s

/-! ### The passing of time -/

/-- Slewing of fabric time: one nanosecond in every five ticks while a correction is left (R280). -/
def Fabric.slewStep (f : Fabric) : Int × Fabric :=
  if f.slew = 0 then (0, { f with slewed := 0 })
  else if f.slewed < 4 then (0, { f with slewed := f.slewed + 1 })
  else
    let d : Int := if 0 < f.slew then 1 else -1
    (d, { f with slew := f.slew - d, slewed := 0 })

/-- Sheds that are not quiet, and windows that are not empty, are noted with the time (R32, R249). -/
def State.noteBusy (s : State) : State :=
  let s := (List.range 32).foldl (fun s k => if s.quiet k then s else s.modShed k (fun x => { x with busyAt := s.clock })) s
  { s with engines := s.engines.map (fun e =>
      (e.1, if e.2.window.isEmpty then e.2 else { e.2 with emptyAt := s.clock })) }

/-- One microsecond with no command: the reference, fabric time, what the yards' clocks count, and the end of a write of
flash (assumption log 31). -/
def State.tick (s : State) : State :=
  if s.season.phase = .noPower then s
  else
    let s := if s.clocksUp then
        let s := (List.range 16).foldl (fun s n => s.countPerf n) s
        (List.range 4).foldl (fun s y => s.modYard y (fun x => { x with cycles := x.cycles + s.cyclesIn y s.clock })) s
      else s
    let f := s.fabric.slewStep
    ({ s with clock := s.clock + 1000, time := ((s.time : Int) + 1000 + f.1).toNat, fabric := f.2 } : State).noteBusy.finishFlash

/-! ### Wraps (R387, R388) -/

/-- CYCLE of stall `t` wraps: WRAP is set (R100, R387). -/
def State.wrapCycle (s : State) (t : Nat) : State :=
  match s.owner (t / 32) with
  | none => s
  | some p =>
    let x := s.stall t
    if x.wraps < s.cycles p t / 2 ^ 48 then s.setStall t { x with wrap := true, wraps := x.wraps + 1 } else s

/-- COUNTER_WRAP (R387): kind 0 is CYCLE of stall `k`, kind 1 is PERF_k. -/
def execCounterWrap (kind k : Nat) (s : State) : Out1 :=
  match kind with
  | 0 => if 1024 ≤ k then .fault .noSuchUnit else .next (s.wrapCycle k)
  | 1 => if 16 ≤ k then .fault .noSuchUnit else .next (s.wrapPerf k)
  | _ => .fault .noSuchUnit

/-! ### Words without an instruction -/

/-- INVALID_ENCODING (R105, R131): a running stall meets a word that no instruction has, and stops with E_ILLEGAL. -/
def execInvalidEncoding (st : Nat) (w : BitVec 32) (s : State) : Out1 :=
  match decodeStallWord st w with
  | some _ => if 1024 ≤ st then .fault .noSuchUnit else .next s
  | none => issue st [] s fun p _ => illegal p st s

end Sys2Proof.Machine
end

