-- ==== Sys2Proof/Machine/ScalarFp.lean ====
section
/-!
DEFINITION. The scalar FP32 instructions of a stall (R108).
-/

namespace Sys2Proof.Machine

/-- gd = f(ga, gb) on FP32 (R108). -/
def execFF (strict : Bool) (st : Nat) (d a b : BitVec 5) (f : FVal → FVal → FVal) (s : State) : Out1 :=
  execF st d [a.toNat, b.toNat] (fun x =>
    let u := f32of (x.getG a)
    let v := f32of (x.getG b)
    fRes fp32 strict [u, v] (f u v)) s

/-- FADD (R47, R48, R108, R114). -/
def execFadd (st : Nat) (d a b : BitVec 5) (s : State) : Out1 := execFF false st d a b FVal.add s
/-- FSUB (R47, R48, R108, R114). -/
def execFsub (st : Nat) (d a b : BitVec 5) (s : State) : Out1 := execFF false st d a b FVal.sub s
/-- FMUL (R47, R48, R108, R114). -/
def execFmul (st : Nat) (d a b : BitVec 5) (s : State) : Out1 := execFF false st d a b FVal.mul s
/-- FDIV (R47, R48, R108, R114). -/
def execFdiv (st : Nat) (d a b : BitVec 5) (s : State) : Out1 := execFF true st d a b FVal.div s
/-- FMIN (R47, R48, R108, R114). -/
def execFmin (st : Nat) (d a b : BitVec 5) (s : State) : Out1 := execFF false st d a b FVal.min s
/-- FMAX (R47, R48, R108, R114). -/
def execFmax (st : Nat) (d a b : BitVec 5) (s : State) : Out1 := execFF false st d a b FVal.max s
/-- FEQ (R48, R108): 1 or 0. -/
def execFeq (st : Nat) (d a b : BitVec 5) (s : State) : Out1 := execFCmp st d a b FVal.eq s
/-- FLT (R48, R108): 1 or 0. -/
def execFlt (st : Nat) (d a b : BitVec 5) (s : State) : Out1 := execFCmp st d a b FVal.lt s
/-- FLE (R48, R108): 1 or 0. -/
def execFle (st : Nat) (d a b : BitVec 5) (s : State) : Out1 := execFCmp st d a b FVal.le s
/-- FSQRT (R108, R114). -/
def execFsqrt (st : Nat) (d a : BitVec 5) (s : State) : Out1 :=
  execF st d [a.toNat] (fun x => let u := f32of (x.getG a); fRes fp32 true [u] u.sqrt) s
/-- FCVT.F.I (R49, R108): signed 64-bit ga to FP32. -/
def execFcvtFI (st : Nat) (d a : BitVec 5) (s : State) : Out1 :=
  execGA st d a (fun v => (BitVec.ofNat 64 (fp32.encode (fOfInt v.toInt)), 0)) s
/-- FCVT.I.F (R49, R108): FP32 ga to signed 64-bit; INV when it does not fit. -/
def execFcvtIF (st : Nat) (d a : BitVec 5) (s : State) : Out1 :=
  execGA st d a (fun v => let r := toIntTy 64 (f32of v); (BitVec.ofNat 64 r.code, r.flags)) s
/-- FMADD (R108): gd = ga × gb + gd, fused. -/
def execFmadd (st : Nat) (d a b : BitVec 5) (s : State) : Out1 :=
  execF st d [a.toNat, b.toNat, d.toNat] (fun x =>
    let u := f32of (x.getG a)
    let v := f32of (x.getG b)
    let w := f32of (x.getG d)
    fRes fp32 false [u, v, w] (FVal.fma u v w)) s

end Sys2Proof.Machine
end

