-- ==== Sys2Proof/Machine/ScalarInt.lean ====
section
/-!
DEFINITION. The scalar integer instructions of a stall (R57, R107): register forms, word forms, immediate forms.
-/

namespace Sys2Proof.Machine

/-- ADD (R57, R107): 64 bits. -/
def execAdd (st : Nat) (d a b : BitVec 5) (s : State) : Out1 := execGG st d a b (aluAdd 64) s
/-- SUB (R57, R107): 64 bits. -/
def execSub (st : Nat) (d a b : BitVec 5) (s : State) : Out1 := execGG st d a b (aluSub 64) s
/-- MUL (R57, R107): 64 bits. -/
def execMul (st : Nat) (d a b : BitVec 5) (s : State) : Out1 := execGG st d a b (aluMul 64) s
/-- DIV (R57, R107): 64 bits. -/
def execDiv (st : Nat) (d a b : BitVec 5) (s : State) : Out1 := execGG st d a b (aluDiv 64) s
/-- DIVU (R57, R107): 64 bits. -/
def execDivu (st : Nat) (d a b : BitVec 5) (s : State) : Out1 := execGG st d a b (aluDivu 64) s
/-- REM (R57, R107): 64 bits. -/
def execRem (st : Nat) (d a b : BitVec 5) (s : State) : Out1 := execGG st d a b (aluRem 64) s
/-- REMU (R57, R107): 64 bits. -/
def execRemu (st : Nat) (d a b : BitVec 5) (s : State) : Out1 := execGG st d a b (aluRemu 64) s
/-- SHL (R57, R107): 64 bits. -/
def execShl (st : Nat) (d a b : BitVec 5) (s : State) : Out1 := execGG st d a b (aluShl 64) s
/-- SHR (R57, R107): 64 bits. -/
def execShr (st : Nat) (d a b : BitVec 5) (s : State) : Out1 := execGG st d a b (aluShr 64) s
/-- SRA (R57, R107): 64 bits. -/
def execSra (st : Nat) (d a b : BitVec 5) (s : State) : Out1 := execGG st d a b (aluSra 64) s
/-- NEG (R57, R107): 64 bits. -/
def execNeg (st : Nat) (d a : BitVec 5) (s : State) : Out1 := execGA st d a (aluNeg 64) s
/-- ABS (R57, R107): 64 bits. -/
def execAbs (st : Nat) (d a : BitVec 5) (s : State) : Out1 := execGA st d a (aluAbs 64) s
/-- ADDW (R57, R107): word form, bits [31:0] sign-extended. -/
def execAddw (st : Nat) (d a b : BitVec 5) (s : State) : Out1 := execGG st d a b (aluAdd 32) s
/-- SUBW (R57, R107): word form, bits [31:0] sign-extended. -/
def execSubw (st : Nat) (d a b : BitVec 5) (s : State) : Out1 := execGG st d a b (aluSub 32) s
/-- MULW (R57, R107): word form, bits [31:0] sign-extended. -/
def execMulw (st : Nat) (d a b : BitVec 5) (s : State) : Out1 := execGG st d a b (aluMul 32) s
/-- DIVW (R57, R107): word form, bits [31:0] sign-extended. -/
def execDivw (st : Nat) (d a b : BitVec 5) (s : State) : Out1 := execGG st d a b (aluDiv 32) s
/-- DIVUW (R57, R107): word form, bits [31:0] sign-extended. -/
def execDivuw (st : Nat) (d a b : BitVec 5) (s : State) : Out1 := execGG st d a b (aluDivu 32) s
/-- REMW (R57, R107): word form, bits [31:0] sign-extended. -/
def execRemw (st : Nat) (d a b : BitVec 5) (s : State) : Out1 := execGG st d a b (aluRem 32) s
/-- REMUW (R57, R107): word form, bits [31:0] sign-extended. -/
def execRemuw (st : Nat) (d a b : BitVec 5) (s : State) : Out1 := execGG st d a b (aluRemu 32) s
/-- SHLW (R57, R107): word form, bits [31:0] sign-extended. -/
def execShlw (st : Nat) (d a b : BitVec 5) (s : State) : Out1 := execGG st d a b (aluShl 32) s
/-- SHRW (R57, R107): word form, bits [31:0] sign-extended. -/
def execShrw (st : Nat) (d a b : BitVec 5) (s : State) : Out1 := execGG st d a b (aluShr 32) s
/-- SRAW (R57, R107): word form, bits [31:0] sign-extended. -/
def execSraw (st : Nat) (d a b : BitVec 5) (s : State) : Out1 := execGG st d a b (aluSra 32) s
/-- NEGW (R57, R107): word form, bits [31:0] sign-extended. -/
def execNegw (st : Nat) (d a : BitVec 5) (s : State) : Out1 := execGA st d a (aluNeg 32) s
/-- ABSW (R57, R107): word form, bits [31:0] sign-extended. -/
def execAbsw (st : Nat) (d a : BitVec 5) (s : State) : Out1 := execGA st d a (aluAbs 32) s
/-- MULH (R107). -/
def execMulh (st : Nat) (d a b : BitVec 5) (s : State) : Out1 := execGG st d a b aluMulh s
/-- MULHU (R107). -/
def execMulhu (st : Nat) (d a b : BitVec 5) (s : State) : Out1 := execGG st d a b aluMulhu s
/-- AND (R107). -/
def execAnd (st : Nat) (d a b : BitVec 5) (s : State) : Out1 := execGG st d a b aluAnd s
/-- OR (R107). -/
def execOr (st : Nat) (d a b : BitVec 5) (s : State) : Out1 := execGG st d a b aluOr s
/-- XOR (R107). -/
def execXor (st : Nat) (d a b : BitVec 5) (s : State) : Out1 := execGG st d a b aluXor s
/-- SLT (R107). -/
def execSlt (st : Nat) (d a b : BitVec 5) (s : State) : Out1 := execGG st d a b aluSlt s
/-- SLTU (R107). -/
def execSltu (st : Nat) (d a b : BitVec 5) (s : State) : Out1 := execGG st d a b aluSltu s
/-- MIN (R107). -/
def execMin (st : Nat) (d a b : BitVec 5) (s : State) : Out1 := execGG st d a b aluMin s
/-- MAX (R107). -/
def execMax (st : Nat) (d a b : BitVec 5) (s : State) : Out1 := execGG st d a b aluMax s
/-- ADDI (R107): IMM in place of gb. -/
def execAddi (st : Nat) (d a : BitVec 5) (imm : BitVec 15) (s : State) : Out1 := execGI st d a imm (aluAdd 64) s
/-- ADDIW (R107): the word form of ADDI. -/
def execAddiw (st : Nat) (d a : BitVec 5) (imm : BitVec 15) (s : State) : Out1 := execGI st d a imm (aluAdd 32) s
/-- ANDI (R107). -/
def execAndi (st : Nat) (d a : BitVec 5) (imm : BitVec 15) (s : State) : Out1 := execGI st d a imm aluAnd s
/-- ORI (R107). -/
def execOri (st : Nat) (d a : BitVec 5) (imm : BitVec 15) (s : State) : Out1 := execGI st d a imm aluOr s
/-- XORI (R107). -/
def execXori (st : Nat) (d a : BitVec 5) (imm : BitVec 15) (s : State) : Out1 := execGI st d a imm aluXor s
/-- SLTI (R107). -/
def execSlti (st : Nat) (d a : BitVec 5) (imm : BitVec 15) (s : State) : Out1 := execGI st d a imm aluSlt s
/-- SHLI (R107): IMM[5:0] is the shift. -/
def execShli (st : Nat) (d a : BitVec 5) (imm : BitVec 15) (s : State) : Out1 := execShiftI st d a imm (aluShl 64) s
/-- SHRI (R107). -/
def execShri (st : Nat) (d a : BitVec 5) (imm : BitVec 15) (s : State) : Out1 := execShiftI st d a imm (aluShr 64) s
/-- SRAI (R107). -/
def execSrai (st : Nat) (d a : BitVec 5) (imm : BitVec 15) (s : State) : Out1 := execShiftI st d a imm (aluSra 64) s
/-- LUI (R106): OFF sign-extended and shifted left 12. -/
def execLui (st : Nat) (d : BitVec 5) (off : BitVec 20) (s : State) : Out1 :=
  execG st d [] (fun _ => (off.signExtend 64 <<< 12, 0)) s

end Sys2Proof.Machine
end

