-- ==== Sys2Proof/Machine/Vector.lean ====
section
/-!
DEFINITION. The vector and predicate instructions of a stall (R106, R110-R116, R123).
-/

namespace Sys2Proof.Machine

/-- VADD (R110). -/
def execVadd (st : Nat) (d a b : BitVec 5) (p et : BitVec 3) (s : State) : Out1 :=
  execVV .any st d a b p et vAdd s
/-- VSUB (R110). -/
def execVsub (st : Nat) (d a b : BitVec 5) (p et : BitVec 3) (s : State) : Out1 :=
  execVV .any st d a b p et vSub s
/-- VMUL (R110). -/
def execVmul (st : Nat) (d a b : BitVec 5) (p et : BitVec 3) (s : State) : Out1 :=
  execVV .any st d a b p et vMul s
/-- VMIN (R110). -/
def execVmin (st : Nat) (d a b : BitVec 5) (p et : BitVec 3) (s : State) : Out1 :=
  execVV .any st d a b p et vMin s
/-- VMAX (R110). -/
def execVmax (st : Nat) (d a b : BitVec 5) (p et : BitVec 3) (s : State) : Out1 :=
  execVV .any st d a b p et vMax s
/-- VADDS (R110). -/
def execVadds (st : Nat) (d a b : BitVec 5) (p et : BitVec 3) (s : State) : Out1 :=
  execVV .int st d a b p et vAdds s
/-- VSUBS (R110). -/
def execVsubs (st : Nat) (d a b : BitVec 5) (p et : BitVec 3) (s : State) : Out1 :=
  execVV .int st d a b p et vSubs s
/-- VMULS (R110). -/
def execVmuls (st : Nat) (d a b : BitVec 5) (p et : BitVec 3) (s : State) : Out1 :=
  execVV .int st d a b p et vMuls s
/-- VAND (R110). -/
def execVand (st : Nat) (d a b : BitVec 5) (p et : BitVec 3) (s : State) : Out1 :=
  execVV .any st d a b p et vAnd s
/-- VOR (R110). -/
def execVor (st : Nat) (d a b : BitVec 5) (p et : BitVec 3) (s : State) : Out1 :=
  execVV .any st d a b p et vOr s
/-- VXOR (R110). -/
def execVxor (st : Nat) (d a b : BitVec 5) (p et : BitVec 3) (s : State) : Out1 :=
  execVV .any st d a b p et vXor s
/-- VSHL (R110). -/
def execVshl (st : Nat) (d a b : BitVec 5) (p et : BitVec 3) (s : State) : Out1 :=
  execVV .int st d a b p et vShl s
/-- VSHR (R110). -/
def execVshr (st : Nat) (d a b : BitVec 5) (p et : BitVec 3) (s : State) : Out1 :=
  execVV .int st d a b p et vShr s
/-- VSRA (R110). -/
def execVsra (st : Nat) (d a b : BitVec 5) (p et : BitVec 3) (s : State) : Out1 :=
  execVV .int st d a b p et vSra s
/-- VDIV (R110). -/
def execVdiv (st : Nat) (d a b : BitVec 5) (p et : BitVec 3) (s : State) : Out1 :=
  execVV .float st d a b p et vDiv s
/-- VEXPD (R110). -/
def execVexpd (st : Nat) (d a b : BitVec 5) (p et : BitVec 3) (s : State) : Out1 :=
  execVV .float st d a b p et vExpd s
/-- VABS (R110). -/
def execVabs (st : Nat) (d a : BitVec 5) (p et : BitVec 3) (s : State) : Out1 :=
  execVA .any st d a p et vAbs s
/-- VNEG (R110). -/
def execVneg (st : Nat) (d a : BitVec 5) (p et : BitVec 3) (s : State) : Out1 :=
  execVA .any st d a p et vNeg s
/-- VABSS (R110). -/
def execVabss (st : Nat) (d a : BitVec 5) (p et : BitVec 3) (s : State) : Out1 :=
  execVA .int st d a p et vAbss s
/-- VNEGS (R110). -/
def execVnegs (st : Nat) (d a : BitVec 5) (p et : BitVec 3) (s : State) : Out1 :=
  execVA .int st d a p et vNegs s
/-- VMOV (R110). -/
def execVmov (st : Nat) (d a : BitVec 5) (p et : BitVec 3) (s : State) : Out1 :=
  execVA .any st d a p et vMov s
/-- VSQRT (R110). -/
def execVsqrt (st : Nat) (d a : BitVec 5) (p et : BitVec 3) (s : State) : Out1 :=
  execVA .float st d a p et vSqrt s
/-- VRCP (R110). -/
def execVrcp (st : Nat) (d a : BitVec 5) (p et : BitVec 3) (s : State) : Out1 :=
  execVA .float st d a p et vRcp s
/-- VRSQRT (R110). -/
def execVrsqrt (st : Nat) (d a : BitVec 5) (p et : BitVec 3) (s : State) : Out1 :=
  execVA .float st d a p et vRsqrt s
/-- VEXP2 (R110). -/
def execVexp2 (st : Nat) (d a : BitVec 5) (p et : BitVec 3) (s : State) : Out1 :=
  execVA .float st d a p et vExp2 s
/-- VEXPE (R110). -/
def execVexpe (st : Nat) (d a : BitVec 5) (p et : BitVec 3) (s : State) : Out1 :=
  execVA .float st d a p et vExpe s
/-- VLOG2 (R110). -/
def execVlog2 (st : Nat) (d a : BitVec 5) (p et : BitVec 3) (s : State) : Out1 :=
  execVA .float st d a p et vLog2 s
/-- VLN (R110). -/
def execVln (st : Nat) (d a : BitVec 5) (p et : BitVec 3) (s : State) : Out1 :=
  execVA .float st d a p et vLn s
/-- VCMP.EQ (R48, R110). -/
def execVcmpEq (st : Nat) (d a b : BitVec 5) (p et : BitVec 3) (s : State) : Out1 :=
  execCmpVV .any st d a b p et (fun et => vCmp et FVal.eq (fun x y => decide (x = y))) s
/-- VCMP.NE (R48, R110). -/
def execVcmpNe (st : Nat) (d a b : BitVec 5) (p et : BitVec 3) (s : State) : Out1 :=
  execCmpVV .any st d a b p et (fun et => vCmp et (fun x y => !(x.eq y)) (fun x y => decide (x ≠ y))) s
/-- VCMP.LT (R48, R110). -/
def execVcmpLt (st : Nat) (d a b : BitVec 5) (p et : BitVec 3) (s : State) : Out1 :=
  execCmpVV .any st d a b p et (fun et => vCmp et FVal.lt (fun x y => decide (x < y))) s
/-- VCMP.LE (R48, R110). -/
def execVcmpLe (st : Nat) (d a b : BitVec 5) (p et : BitVec 3) (s : State) : Out1 :=
  execCmpVV .any st d a b p et (fun et => vCmp et FVal.le (fun x y => decide (x ≤ y))) s
/-- VCMP.LTU (R48, R110). -/
def execVcmpLtu (st : Nat) (d a b : BitVec 5) (p et : BitVec 3) (s : State) : Out1 :=
  execCmpVV .int st d a b p et (fun _ x y => decide (x < y)) s
/-- VCMP.LEU (R48, R110). -/
def execVcmpLeu (st : Nat) (d a b : BitVec 5) (p et : BitVec 3) (s : State) : Out1 :=
  execCmpVV .int st d a b p et (fun _ x y => decide (x ≤ y)) s
/-- VCMP.ISNAN (R110). -/
def execVcmpIsnan (st : Nat) (d a : BitVec 5) (p et : BitVec 3) (s : State) : Out1 :=
  execCmpVA st d a p et FVal.isNaN s
/-- VCMP.ISINF (R110). -/
def execVcmpIsinf (st : Nat) (d a : BitVec 5) (p et : BitVec 3) (s : State) : Out1 :=
  execCmpVA st d a p et FVal.isInf s
/-- VFMA (R106). -/
def execVfma (st : Nat) (d a b c : BitVec 5) (p : BitVec 3) (ft : BitVec 2) (s : State) : Out1 :=
  execVVV st d a b c p ft vFma s
/-- VFMS (R106). -/
def execVfms (st : Nat) (d a b c : BitVec 5) (p : BitVec 3) (ft : BitVec 2) (s : State) : Out1 :=
  execVVV st d a b c p ft vFms s
/-- VCLAMP (R106). -/
def execVclamp (st : Nat) (d a b c : BitVec 5) (p : BitVec 3) (ft : BitVec 2) (s : State) : Out1 :=
  execVVV st d a b c p ft vClamp s

/-- VBCAST (R106): every active element of vd takes the low ET-width bits of ga. -/
def execVbcast (st : Nat) (d a : BitVec 5) (p et : BitVec 3) (s : State) : Out1 :=
  execV st d p (etWidth et.toNat) (etOk .any et.toNat) [a.toNat] 1
    (fun x _ => plain ((x.getG a).toNat % 2 ^ etWidth et.toNat)) s

/-- VPERM (R106): element i of vd is element vb[i] mod lanes of va. -/
def execVperm (st : Nat) (d a b : BitVec 5) (p et : BitVec 3) (s : State) : Out1 :=
  let w := etWidth et.toNat
  execV st d p w (etOk .any et.toNat) [vreg a.toNat, vreg b.toNat] 1
    (fun x i => plain (elem w (x.getV a) (elem w (x.getV b) i % (1024 / w)))) s

/-- VGET (R106): element gb mod lanes of va; integers sign-extended, floats zero-extended. -/
def execVget (st : Nat) (d a b : BitVec 5) (et : BitVec 3) (s : State) : Out1 :=
  let w := etWidth et.toNat
  if etOk .any et.toNat then
    execG st d [vreg a.toNat, b.toNat]
      (fun x => (extend (etInt et.toNat) w (elem w (x.getV a) ((x.getG b).toNat % (1024 / w))), 0)) s
  else issue st [] s fun pt _ => illegal pt st s

/-! ### Reductions -/

/-- One level of the pairwise tree (R113). -/
def pairUp {α : Type} (f : α → α → α) : List α → List α
  | x :: y :: r => f x y :: pairUp f r
  | l => l

/-- The tree over 2^n elements (R113). -/
def treeN {α : Type} (f : α → α → α) : Nat → List α → List α
  | 0, l => l
  | n + 1, l => treeN f n (pairUp f l)

/-- Which reduction (R113). -/
inductive RedOp where
  | sum | max | min
  deriving DecidableEq, Repr

/-- The identity an inactive element stands for, as an FP32 code (R113). -/
def RedOp.idF : RedOp → Nat
  | .sum => 0x80000000
  | .max => 0xFF800000
  | .min => 0x7F800000

/-- One combination in FP32, rounded once; the flag says an invalid operation occurred (R46-R48, R113). -/
def RedOp.combF (o : RedOp) (a b : Nat × Bool) : Nat × Bool :=
  let x := fp32.decode a.1
  let y := fp32.decode b.1
  let r := match o with | .sum => x.add y | .max => x.max y | .min => x.min y
  (fp32.encode r, a.2 || b.2 || (r.isNaN && !x.isNaN && !y.isNaN))

/-- Identity and combination on integers: RSUM wraps in 64 bits (R113). -/
def RedOp.idI (o : RedOp) (w : Nat) : Int :=
  match o with | .sum => 0 | .max => intMin w | .min => intMax w
def RedOp.combI (o : RedOp) (a b : Int) : Int :=
  match o with | .sum => toInt 64 (ofInt 64 (a + b)) | .max => Max.max a b | .min => Min.min a b

/-- The scalar result of VRED (R113). -/
def redResult (o : RedOp) (et : Nat) (pr : BitVec 128) (v : BitVec 1024) : ERes :=
  let w := etWidth et
  let n := 1024 / w
  match fmtOf et with
  | some f =>
    let xs := (List.range n).map (fun i => if active pr w i then fp32.encode (f.decode (elem w v i)) else o.idF)
    let r := (treeN o.combF (Nat.log2 n) (xs.map (fun x => (x, false)))).headD (0, false)
    let anyNaN := (List.range n).any (fun i => active pr w i && (f.decode (elem w v i)).isNaN)
    { code := r.1, flags := if r.2 then fINV else 0,
      cause := if f32nan r.1 then (if anyNaN then causeConsumed else causeInvalid) else 0 }
  | none =>
    let xs := (List.range n).map (fun i => if active pr w i then toInt w (elem w v i) else o.idI w)
    plain (ofInt 64 ((treeN o.combI (Nat.log2 n) xs).headD 0))

/-- VRED (R113). -/
def execRed (o : RedOp) (st : Nat) (d a : BitVec 5) (p et : BitVec 3) (s : State) : Out1 :=
  if etOk .any et.toNat then
    issue st [vreg a.toNat] s fun pt x =>
      let r := redResult o et.toNat (x.getP p.toNat) (x.getV a)
      .next ((s.setStall st (x.doG d (BitVec.ofNat 64 r.code, r.flags))).nanEvents pt ⟨1, 1, st, x.pc.toNat⟩
        [(0, r.cause)])
  else issue st [] s fun pt _ => illegal pt st s

/-- VRED RSUM (R113). -/
def execVredRsum (st : Nat) (d a : BitVec 5) (p et : BitVec 3) (s : State) : Out1 := execRed .sum st d a p et s
/-- VRED RMAX (R113). -/
def execVredRmax (st : Nat) (d a : BitVec 5) (p et : BitVec 3) (s : State) : Out1 := execRed .max st d a p et s
/-- VRED RMIN (R113). -/
def execVredRmin (st : Nat) (d a : BitVec 5) (p et : BitVec 3) (s : State) : Out1 := execRed .min st d a p et s

/-! ### Conversions -/

/-- The source type of VCVT (R115). -/
def cvtSrc (et fn : Nat) : Option NumTy :=
  if bit fn 3 then (if et = 0 then some (.flt e4m3) else if et = 1 then some (.flt e5m2) else none)
  else if et ≤ 6 then cvtTy et else none

/-- The source and destination of a valid VCVT (R105, R115). -/
def cvtForm (et b fn : Nat) : Option (NumTy × NumTy) :=
  match cvtSrc et fn, cvtTy b with
  | some x, some y =>
    let r := max 1 (max (x.width / y.width) (y.width / x.width))
    if (bit fn 2 && !(x.isInt && y.isInt && decide (y.width < x.width))) || decide (r ≤ fn % 4) then none
    else some (x, y)
  | _, _ => none

/-- The result of element `i` of the converted set (R115). -/
def cvtElem (x y : NumTy) (fn : Nat) (va : BitVec 1024) (i : Nat) : ERes :=
  let n := 1024 / max x.width y.width
  let j := if x.width < y.width then (fn % 4) * n + i else i
  convert x y (bit fn 2) (elem x.width va j)

/-- The vector VCVT writes: results from byte offset q × n × (destination bytes), the rest kept (R115). -/
def cvtMerge (x y : NumTy) (fn : Nat) (pr : BitVec 128) (old va : BitVec 1024) : BitVec 1024 :=
  let n := 1024 / max x.width y.width
  let base := if y.width < x.width then (fn % 4) * n else 0
  packV y.width ((List.range (1024 / y.width)).map (fun j =>
    if base ≤ j ∧ j < base + n ∧ active pr x.width (j - base) then (cvtElem x y fn va (j - base)).code
    else elem y.width old j))

/-- VCVT (R49, R115): the predicate governs elements by index with the source's width (assumption log 12). -/
def execVcvt (st : Nat) (d a b : BitVec 5) (p et : BitVec 3) (fn : BitVec 4) (s : State) : Out1 :=
  match cvtForm et.toNat b.toNat fn.toNat with
  | none => issue st [] s fun pt _ => illegal pt st s
  | some (x, y) =>
    issue st [vreg d.toNat, vreg a.toNat] s fun pt u =>
      let n := 1024 / max x.width y.width
      let pr := u.getP p.toNat
      let rs := (List.range n).filterMap (fun i =>
        if active pr x.width i then some (i, cvtElem x y fn.toNat (u.getV a) i) else none)
      .next ((s.setStall st (((u.setV d (cvtMerge x y fn.toNat pr (u.getV d) (u.getV a))).flag (flagsOf rs)).advance)).nanEvents
        pt ⟨1, 2, st, u.pc.toNat⟩ (causesOf rs))

/-- VCVTMX (R41, R116): 32 FP32 elements of va into one MX block at position q of vb; the scale goes to g register D. -/
def execVcvtmx (st : Nat) (d a b : BitVec 5) (fn : BitVec 5) (s : State) : Out1 :=
  let k := fn.toNat % 8
  let q := fn.toNat / 8
  if 6 ≤ k then issue st [] s fun pt _ => illegal pt st s
  else issue st [vreg a.toNat, vreg b.toNat] s fun pt x =>
    let xs := (List.range 32).map (fun i => elem 32 (x.getV a) i)
    let r := mxBlock k xs
    let w := mxBits k
    let vb := BitVec.ofNat 1024 (setBits (x.getV b).toNat (q * 32 * w) (32 * w) (packNat w r.2.1))
    let first := (indexOf? (fun c => !(f32fin c)) xs).getD 0
    .next ((s.setStall st ((((x.setV b vb).setG d (BitVec.ofNat 64 r.1)).advance))).nanEvents pt ⟨1, 2, st, x.pc.toNat⟩
      [(first, if r.2.2 then causeMxBlock else 0)])

/-! ### Random numbers -/

/-- The 8 blocks of a counter: words 0 to 31 (R123). -/
def randWords (key ctr : Nat) : List Nat :=
  ((List.range 8).map (fun j => philox key ((ctr + j) % 2 ^ 128))).flatten

/-- The vector VRAND writes: words, or FP32 in [0, 1) (R123). -/
def randVec (fp : Bool) (key ctr : Nat) : BitVec 1024 :=
  packV 32 ((randWords key ctr).map (fun u => if fp then fp32.encode (.fin false (u / 2 ^ 8) (-24)) else u))

/-- VRAND (R123): from RNG_CTR, which rises by 8. -/
def execVrand (st : Nat) (d : BitVec 5) (fn : BitVec 4) (s : State) : Out1 :=
  issue st [] s fun pt x =>
    if 1 < fn.toNat then illegal pt st s
    else
      let c := x.rngLo.toNat + 2 ^ 64 * x.rngHi.toNat
      let c' := (c + 8) % 2 ^ 128
      let x := x.setV d (randVec (decide (fn = 1)) x.rngKey.toNat c)
      .next (s.setStall st ({ x with rngLo := BitVec.ofNat 64 c', rngHi := BitVec.ofNat 64 (c' / 2 ^ 64) }.advance))

/-- VRANDC (R123): from the counter in va[127:0]. -/
def execVrandc (st : Nat) (d a : BitVec 5) (fn : BitVec 4) (s : State) : Out1 :=
  issue st [vreg a.toNat] s fun pt x =>
    if 1 < fn.toNat then illegal pt st s
    else .next (s.setStall st ((x.setV d (randVec (decide (fn = 1)) x.rngKey.toNat ((x.getV a).toNat % 2 ^ 128))).advance))

/-! ### Predicates -/

/-- Whether p register fields have bits [4:3] clear (R104, R105). -/
def predOk (rs : List (BitVec 5)) : Bool := rs.all (fun r => decide (r.toNat < 8))

/-- pd = f(stall) (R111). -/
def execP (ok : Bool) (st : Nat) (d : BitVec 5) (rs : List Nat) (f : Stall → BitVec 128) (s : State) : Out1 :=
  issue st (if ok then rs else []) s fun pt x =>
    if ok then .next (s.setStall st ((x.setP d.toNat (f x)).advance)) else illegal pt st s

/-- PAND (R111). -/
def execPand (st : Nat) (d a b : BitVec 5) (s : State) : Out1 :=
  execP (predOk [d, a, b]) st d [] (fun x => x.getP a.toNat &&& x.getP b.toNat) s
/-- POR (R111). -/
def execPor (st : Nat) (d a b : BitVec 5) (s : State) : Out1 :=
  execP (predOk [d, a, b]) st d [] (fun x => x.getP a.toNat ||| x.getP b.toNat) s
/-- PXOR (R111). -/
def execPxor (st : Nat) (d a b : BitVec 5) (s : State) : Out1 :=
  execP (predOk [d, a, b]) st d [] (fun x => x.getP a.toNat ^^^ x.getP b.toNat) s
/-- PNOT (R111). -/
def execPnot (st : Nat) (d a : BitVec 5) (s : State) : Out1 :=
  execP (predOk [d, a]) st d [] (fun x => ~~~(x.getP a.toNat)) s

/-- The predicate with elements 0 to g − 1 of width `w` active, all byte bits of each (R111). -/
def countPred (w g : Nat) : BitVec 128 :=
  BitVec.ofNat 128 (packNat 1 ((List.range 128).map (fun j => b2n (decide (j / (w / 8) < g)))))

/-- PCNT (R111): element i is active when i < ga. -/
def execPcnt (st : Nat) (d a : BitVec 5) (et : BitVec 3) (s : State) : Out1 :=
  execP (predOk [d] && etOk .any et.toNat) st d [a.toNat]
    (fun x => countPred (etWidth et.toNat) (x.getG a).toNat) s

end Sys2Proof.Machine
end

