-- ==== Sys2Proof/Machine/Dispatch.lean ====
section
/-!
DEFINITION. The meaning of each command: one arm a constructor, one call of its meaning.
-/

namespace Sys2Proof.Machine

def exec (i : Instr) (s : State) : Host.Outcome State Fault Refusal :=
  match i with
  | .add st d a b => Sys2Proof.Machine.execAdd st d a b s
  | .sub st d a b => Sys2Proof.Machine.execSub st d a b s
  | .mul st d a b => Sys2Proof.Machine.execMul st d a b s
  | .mulh st d a b => Sys2Proof.Machine.execMulh st d a b s
  | .mulhu st d a b => Sys2Proof.Machine.execMulhu st d a b s
  | .div st d a b => Sys2Proof.Machine.execDiv st d a b s
  | .divu st d a b => Sys2Proof.Machine.execDivu st d a b s
  | .rem st d a b => Sys2Proof.Machine.execRem st d a b s
  | .remu st d a b => Sys2Proof.Machine.execRemu st d a b s
  | .and st d a b => Sys2Proof.Machine.execAnd st d a b s
  | .or st d a b => Sys2Proof.Machine.execOr st d a b s
  | .xor st d a b => Sys2Proof.Machine.execXor st d a b s
  | .shl st d a b => Sys2Proof.Machine.execShl st d a b s
  | .shr st d a b => Sys2Proof.Machine.execShr st d a b s
  | .sra st d a b => Sys2Proof.Machine.execSra st d a b s
  | .slt st d a b => Sys2Proof.Machine.execSlt st d a b s
  | .sltu st d a b => Sys2Proof.Machine.execSltu st d a b s
  | .min st d a b => Sys2Proof.Machine.execMin st d a b s
  | .max st d a b => Sys2Proof.Machine.execMax st d a b s
  | .addw st d a b => Sys2Proof.Machine.execAddw st d a b s
  | .subw st d a b => Sys2Proof.Machine.execSubw st d a b s
  | .mulw st d a b => Sys2Proof.Machine.execMulw st d a b s
  | .divw st d a b => Sys2Proof.Machine.execDivw st d a b s
  | .divuw st d a b => Sys2Proof.Machine.execDivuw st d a b s
  | .remw st d a b => Sys2Proof.Machine.execRemw st d a b s
  | .remuw st d a b => Sys2Proof.Machine.execRemuw st d a b s
  | .shlw st d a b => Sys2Proof.Machine.execShlw st d a b s
  | .shrw st d a b => Sys2Proof.Machine.execShrw st d a b s
  | .sraw st d a b => Sys2Proof.Machine.execSraw st d a b s
  | .neg st d a => Sys2Proof.Machine.execNeg st d a s
  | .abs st d a => Sys2Proof.Machine.execAbs st d a s
  | .negw st d a => Sys2Proof.Machine.execNegw st d a s
  | .absw st d a => Sys2Proof.Machine.execAbsw st d a s
  | .addi st d a imm => Sys2Proof.Machine.execAddi st d a imm s
  | .addiw st d a imm => Sys2Proof.Machine.execAddiw st d a imm s
  | .andi st d a imm => Sys2Proof.Machine.execAndi st d a imm s
  | .ori st d a imm => Sys2Proof.Machine.execOri st d a imm s
  | .xori st d a imm => Sys2Proof.Machine.execXori st d a imm s
  | .slti st d a imm => Sys2Proof.Machine.execSlti st d a imm s
  | .shli st d a imm => Sys2Proof.Machine.execShli st d a imm s
  | .shri st d a imm => Sys2Proof.Machine.execShri st d a imm s
  | .srai st d a imm => Sys2Proof.Machine.execSrai st d a imm s
  | .lui st d off => Sys2Proof.Machine.execLui st d off s
  | .ldB st d a imm => Sys2Proof.Machine.execLdB st d a imm s
  | .ldH st d a imm => Sys2Proof.Machine.execLdH st d a imm s
  | .ldW st d a imm => Sys2Proof.Machine.execLdW st d a imm s
  | .ldD st d a imm => Sys2Proof.Machine.execLdD st d a imm s
  | .ldBu st d a imm => Sys2Proof.Machine.execLdBu st d a imm s
  | .ldHu st d a imm => Sys2Proof.Machine.execLdHu st d a imm s
  | .ldWu st d a imm => Sys2Proof.Machine.execLdWu st d a imm s
  | .stB st d a imm => Sys2Proof.Machine.execStB st d a imm s
  | .stH st d a imm => Sys2Proof.Machine.execStH st d a imm s
  | .stW st d a imm => Sys2Proof.Machine.execStW st d a imm s
  | .stD st d a imm => Sys2Proof.Machine.execStD st d a imm s
  | .vld st d a imm => Sys2Proof.Machine.execVld st d a imm s
  | .vst st d a imm => Sys2Proof.Machine.execVst st d a imm s
  | .vstp st d a b p => Sys2Proof.Machine.execVstp st d a b p s
  | .beq st a b off => Sys2Proof.Machine.execBeq st a b off s
  | .bne st a b off => Sys2Proof.Machine.execBne st a b off s
  | .blt st a b off => Sys2Proof.Machine.execBlt st a b off s
  | .bge st a b off => Sys2Proof.Machine.execBge st a b off s
  | .bltu st a b off => Sys2Proof.Machine.execBltu st a b off s
  | .bgeu st a b off => Sys2Proof.Machine.execBgeu st a b off s
  | .jal st d off => Sys2Proof.Machine.execJal st d off s
  | .jalr st d a imm => Sys2Proof.Machine.execJalr st d a imm s
  | .fence st mask => Sys2Proof.Machine.execFence st mask s
  | .srd st d idx => Sys2Proof.Machine.execSrd st d idx s
  | .swr st a idx => Sys2Proof.Machine.execSwr st a idx s
  | .fadd st d a b => Sys2Proof.Machine.execFadd st d a b s
  | .fsub st d a b => Sys2Proof.Machine.execFsub st d a b s
  | .fmul st d a b => Sys2Proof.Machine.execFmul st d a b s
  | .fdiv st d a b => Sys2Proof.Machine.execFdiv st d a b s
  | .fmin st d a b => Sys2Proof.Machine.execFmin st d a b s
  | .fmax st d a b => Sys2Proof.Machine.execFmax st d a b s
  | .feq st d a b => Sys2Proof.Machine.execFeq st d a b s
  | .flt st d a b => Sys2Proof.Machine.execFlt st d a b s
  | .fle st d a b => Sys2Proof.Machine.execFle st d a b s
  | .fmadd st d a b => Sys2Proof.Machine.execFmadd st d a b s
  | .fsqrt st d a => Sys2Proof.Machine.execFsqrt st d a s
  | .fcvtFI st d a => Sys2Proof.Machine.execFcvtFI st d a s
  | .fcvtIF st d a => Sys2Proof.Machine.execFcvtIF st d a s
  | .aadd st a b fn => Sys2Proof.Machine.execAadd st a b fn s
  | .acas st d a b c => Sys2Proof.Machine.execAcas st d a b c s
  | .getWork st d c => Sys2Proof.Machine.execGetWork st d c s
  | .evdone st => Sys2Proof.Machine.execEvdone st s
  | .evpush st a b => Sys2Proof.Machine.execEvpush st a b s
  | .send st a b => Sys2Proof.Machine.execSend st a b s
  | .hpush st a b => Sys2Proof.Machine.execHpush st a b s
  | .fset st a => Sys2Proof.Machine.execFset st a s
  | .fclr st a => Sys2Proof.Machine.execFclr st a s
  | .ftest st d a => Sys2Proof.Machine.execFtest st d a s
  | .wcancel st d a => Sys2Proof.Machine.execWcancel st d a s
  | .watch st d a b c fn => Sys2Proof.Machine.execWatch st d a b c fn s
  | .ucmd st a b fn => Sys2Proof.Machine.execUcmd st a b fn s
  | .mxInstruction st a b fn => Sys2Proof.Machine.execMxInstruction st a b fn s
  | .vadd st d a b p et => Sys2Proof.Machine.execVadd st d a b p et s
  | .vsub st d a b p et => Sys2Proof.Machine.execVsub st d a b p et s
  | .vmul st d a b p et => Sys2Proof.Machine.execVmul st d a b p et s
  | .vmin st d a b p et => Sys2Proof.Machine.execVmin st d a b p et s
  | .vmax st d a b p et => Sys2Proof.Machine.execVmax st d a b p et s
  | .vadds st d a b p et => Sys2Proof.Machine.execVadds st d a b p et s
  | .vsubs st d a b p et => Sys2Proof.Machine.execVsubs st d a b p et s
  | .vmuls st d a b p et => Sys2Proof.Machine.execVmuls st d a b p et s
  | .vand st d a b p et => Sys2Proof.Machine.execVand st d a b p et s
  | .vor st d a b p et => Sys2Proof.Machine.execVor st d a b p et s
  | .vxor st d a b p et => Sys2Proof.Machine.execVxor st d a b p et s
  | .vshl st d a b p et => Sys2Proof.Machine.execVshl st d a b p et s
  | .vshr st d a b p et => Sys2Proof.Machine.execVshr st d a b p et s
  | .vsra st d a b p et => Sys2Proof.Machine.execVsra st d a b p et s
  | .vdiv st d a b p et => Sys2Proof.Machine.execVdiv st d a b p et s
  | .vexpd st d a b p et => Sys2Proof.Machine.execVexpd st d a b p et s
  | .vcmpEq st d a b p et => Sys2Proof.Machine.execVcmpEq st d a b p et s
  | .vcmpNe st d a b p et => Sys2Proof.Machine.execVcmpNe st d a b p et s
  | .vcmpLt st d a b p et => Sys2Proof.Machine.execVcmpLt st d a b p et s
  | .vcmpLe st d a b p et => Sys2Proof.Machine.execVcmpLe st d a b p et s
  | .vcmpLtu st d a b p et => Sys2Proof.Machine.execVcmpLtu st d a b p et s
  | .vcmpLeu st d a b p et => Sys2Proof.Machine.execVcmpLeu st d a b p et s
  | .vperm st d a b p et => Sys2Proof.Machine.execVperm st d a b p et s
  | .vabs st d a p et => Sys2Proof.Machine.execVabs st d a p et s
  | .vneg st d a p et => Sys2Proof.Machine.execVneg st d a p et s
  | .vabss st d a p et => Sys2Proof.Machine.execVabss st d a p et s
  | .vnegs st d a p et => Sys2Proof.Machine.execVnegs st d a p et s
  | .vmov st d a p et => Sys2Proof.Machine.execVmov st d a p et s
  | .vsqrt st d a p et => Sys2Proof.Machine.execVsqrt st d a p et s
  | .vrcp st d a p et => Sys2Proof.Machine.execVrcp st d a p et s
  | .vrsqrt st d a p et => Sys2Proof.Machine.execVrsqrt st d a p et s
  | .vexp2 st d a p et => Sys2Proof.Machine.execVexp2 st d a p et s
  | .vexpe st d a p et => Sys2Proof.Machine.execVexpe st d a p et s
  | .vlog2 st d a p et => Sys2Proof.Machine.execVlog2 st d a p et s
  | .vln st d a p et => Sys2Proof.Machine.execVln st d a p et s
  | .vcmpIsnan st d a p et => Sys2Proof.Machine.execVcmpIsnan st d a p et s
  | .vcmpIsinf st d a p et => Sys2Proof.Machine.execVcmpIsinf st d a p et s
  | .vredRsum st d a p et => Sys2Proof.Machine.execVredRsum st d a p et s
  | .vredRmax st d a p et => Sys2Proof.Machine.execVredRmax st d a p et s
  | .vredRmin st d a p et => Sys2Proof.Machine.execVredRmin st d a p et s
  | .vbcast st d a p et => Sys2Proof.Machine.execVbcast st d a p et s
  | .vcvt st d a b p et fn => Sys2Proof.Machine.execVcvt st d a b p et fn s
  | .vfma st d a b c p ft => Sys2Proof.Machine.execVfma st d a b c p ft s
  | .vfms st d a b c p ft => Sys2Proof.Machine.execVfms st d a b c p ft s
  | .vclamp st d a b c p ft => Sys2Proof.Machine.execVclamp st d a b c p ft s
  | .vrand st d fn => Sys2Proof.Machine.execVrand st d fn s
  | .vrandc st d a fn => Sys2Proof.Machine.execVrandc st d a fn s
  | .vcvtmx st d a b fn => Sys2Proof.Machine.execVcvtmx st d a b fn s
  | .pand st d a b => Sys2Proof.Machine.execPand st d a b s
  | .por st d a b => Sys2Proof.Machine.execPor st d a b s
  | .pxor st d a b => Sys2Proof.Machine.execPxor st d a b s
  | .pnot st d a => Sys2Proof.Machine.execPnot st d a s
  | .pcnt st d a et => Sys2Proof.Machine.execPcnt st d a et s
  | .vget st d a b et => Sys2Proof.Machine.execVget st d a b et s
  | .loadValueReturn st k => Sys2Proof.Machine.execLoadValueReturn st k s
  | .controlIssue st => Sys2Proof.Machine.execControlIssue st s
  | .flagSet k => Sys2Proof.Machine.execFlagSet k s
  | .flagClear k => Sys2Proof.Machine.execFlagClear k s
  | .flagTest k => Sys2Proof.Machine.execFlagTest k s
  | .watchArm k => Sys2Proof.Machine.execWatchArm k s
  | .watchCancel k => Sys2Proof.Machine.execWatchCancel k s
  | .penOperation k => Sys2Proof.Machine.execPenOperation k s
  | .penSubwatchReport k => Sys2Proof.Machine.execPenSubwatchReport k s
  | .eventPush k => Sys2Proof.Machine.execEventPush k s
  | .mailboxDelivery k => Sys2Proof.Machine.execMailboxDelivery k s
  | .delayEntryDue sh k => Sys2Proof.Machine.execDelayEntryDue sh k s
  | .dispatch sh => Sys2Proof.Machine.execDispatch sh s
  | .shedSleep sh => Sys2Proof.Machine.execShedSleep sh s
  | .shedWake sh => Sys2Proof.Machine.execShedWake sh s
  | .mxLoadw k => Sys2Proof.Machine.execMxLoadw k s
  | .mxStream k => Sys2Proof.Machine.execMxStream k s
  | .mxSpstream k => Sys2Proof.Machine.execMxSpstream k s
  | .mxDrain k => Sys2Proof.Machine.execMxDrain k s
  | .mxReset k => Sys2Proof.Machine.execMxReset k s
  | .mxaCommandStart sh => Sys2Proof.Machine.execMxaCommandStart sh s
  | .streamRowFinal sh tileB => Sys2Proof.Machine.execStreamRowFinal sh tileB s
  | .mxaCommandComplete sh eng => Sys2Proof.Machine.execMxaCommandComplete sh eng s
  | .sample k => Sys2Proof.Machine.execSample k s
  | .score k => Sys2Proof.Machine.execScore k s
  | .samplerDescriptorStart sh => Sys2Proof.Machine.execSamplerDescriptorStart sh s
  | .samplerDescriptorComplete sh => Sys2Proof.Machine.execSamplerDescriptorComplete sh s
  | .runaheadCompute sh => Sys2Proof.Machine.execRunaheadCompute sh s
  | .prefetchHint k => Sys2Proof.Machine.execPrefetchHint k s
  | .gather k => Sys2Proof.Machine.execGather k s
  | .pool k => Sys2Proof.Machine.execPool k s
  | .replay k => Sys2Proof.Machine.execReplay k s
  | .scatter k => Sys2Proof.Machine.execScatter k s
  | .flush k => Sys2Proof.Machine.execFlush k s
  | .applyOrdered k => Sys2Proof.Machine.execApplyOrdered k s
  | .opt8 k => Sys2Proof.Machine.execOpt8 k s
  | .tswitch k => Sys2Proof.Machine.execTswitch k s
  | .replicate k => Sys2Proof.Machine.execReplicate k s
  | .migrate k => Sys2Proof.Machine.execMigrate k s
  | .rowDescriptorStart e p => Sys2Proof.Machine.execRowDescriptorStart e p s
  | .rowDescriptorComplete e p => Sys2Proof.Machine.execRowDescriptorComplete e p s
  | .migrateCopy e p => Sys2Proof.Machine.execMigrateCopy e p s
  | .requestEnterWindow st k j => Sys2Proof.Machine.execRequestEnterWindow st k j s
  | .sectorAccess e k errs => Sys2Proof.Machine.execSectorAccess e k errs s
  | .atomicAtHome st k => Sys2Proof.Machine.execAtomicAtHome st k s
  | .hotRowsRead => Sys2Proof.Machine.execHotRowsRead s
  | .cacheCounterHalve e => Sys2Proof.Machine.execCacheCounterHalve e s
  | .copy k => Sys2Proof.Machine.execCopy k s
  | .compress k => Sys2Proof.Machine.execCompress k s
  | .expand k => Sys2Proof.Machine.execExpand k s
  | .dmaDescriptorStart sh => Sys2Proof.Machine.execDmaDescriptorStart sh s
  | .dmaDescriptorComplete sh => Sys2Proof.Machine.execDmaDescriptorComplete sh s
  | .tableDescPend => Sys2Proof.Machine.execTableDescPend s
  | .refresh k ch pc postpone => Sys2Proof.Machine.execRefresh k ch pc postpone s
  | .stackTemperatureRead k reading => Sys2Proof.Machine.execStackTemperatureRead k reading s
  | .recalibration k ch => Sys2Proof.Machine.execRecalibration k ch s
  | .patrolScrub k errs => Sys2Proof.Machine.execPatrolScrub k errs s
  | .frameClearing y f => Sys2Proof.Machine.execFrameClearing y f s
  | .hbmLayoutWrite => Sys2Proof.Machine.execHbmLayoutWrite s
  | .flitSend k => Sys2Proof.Machine.execFlitSend k s
  | .flitReceive k flit => Sys2Proof.Machine.execFlitReceive k flit s
  | .replayTimeout k => Sys2Proof.Machine.execReplayTimeout k s
  | .nrdyRetry k => Sys2Proof.Machine.execNrdyRetry k s
  | .trainingAttempt k ok partner pport => Sys2Proof.Machine.execTrainingAttempt k ok partner pport s
  | .linkDown k => Sys2Proof.Machine.execLinkDown k s
  | .failover k => Sys2Proof.Machine.execFailover k s
  | .flowMoveBack k => Sys2Proof.Machine.execFlowMoveBack k s
  | .pktWrite k j => Sys2Proof.Machine.execPktWrite k j s
  | .pktRead k j => Sys2Proof.Machine.execPktRead k j s
  | .pktReadResp k j => Sys2Proof.Machine.execPktReadResp k j s
  | .pktRowAtomic k j => Sys2Proof.Machine.execPktRowAtomic k j s
  | .messageEvpush k j => Sys2Proof.Machine.execMessageEvpush k j s
  | .messageHpush k j => Sys2Proof.Machine.execMessageHpush k j s
  | .messageSend k j => Sys2Proof.Machine.execMessageSend k j s
  | .messageResult k j => Sys2Proof.Machine.execMessageResult k j s
  | .messageAck k j => Sys2Proof.Machine.execMessageAck k j s
  | .messageNack k j => Sys2Proof.Machine.execMessageNack k j s
  | .flagSetPacket k j => Sys2Proof.Machine.execFlagSetPacket k j s
  | .mgmtRequest k j => Sys2Proof.Machine.execMgmtRequest k j s
  | .flagOnLastTrailer k => Sys2Proof.Machine.execFlagOnLastTrailer k s
  | .transactionTimeout tag => Sys2Proof.Machine.execTransactionTimeout tag s
  | .timeExchange k sent far => Sys2Proof.Machine.execTimeExchange k sent far s
  | .collectiveStart p n => Sys2Proof.Machine.execCollectiveStart p n s
  | .collectiveContribution k j => Sys2Proof.Machine.execCollectiveContribution k j s
  | .collectiveResult k j => Sys2Proof.Machine.execCollectiveResult k j s
  | .collectiveChainSum k j => Sys2Proof.Machine.execCollectiveChainSum k j s
  | .collectiveSidecar k j => Sys2Proof.Machine.execCollectiveSidecar k j s
  | .vstartDetected p => Sys2Proof.Machine.execVstartDetected p s
  | .regionScan p => Sys2Proof.Machine.execRegionScan p s
  | .verdict p => Sys2Proof.Machine.execVerdict p s
  | .stepBoundary p => Sys2Proof.Machine.execStepBoundary p s
  | .altFreeSet p => Sys2Proof.Machine.execAltFreeSet p s
  | .mirrorStart p => Sys2Proof.Machine.execMirrorStart p s
  | .mirrorCommit p => Sys2Proof.Machine.execMirrorCommit p s
  | .mirrorFailed p => Sys2Proof.Machine.execMirrorFailed p s
  | .mirrorCtrlNow => Sys2Proof.Machine.execMirrorCtrlNow s
  | .odRead => Sys2Proof.Machine.execOdRead s
  | .odWrite => Sys2Proof.Machine.execOdWrite s
  | .blobRead => Sys2Proof.Machine.execBlobRead s
  | .blobWrite => Sys2Proof.Machine.execBlobWrite s
  | .acquire => Sys2Proof.Machine.execAcquire s
  | .renew => Sys2Proof.Machine.execRenew s
  | .release => Sys2Proof.Machine.execRelease s
  | .leaseExpiry m => Sys2Proof.Machine.execLeaseExpiry m s
  | .mgmtDatagram src port data => Sys2Proof.Machine.execMgmtDatagram src port data s
  | .mboxGo fn => Sys2Proof.Machine.execMboxGo fn s
  | .sqTail p t => Sys2Proof.Machine.execSqTail p t s
  | .cqHead p t => Sys2Proof.Machine.execCqHead p t s
  | .entryFetch p entry => Sys2Proof.Machine.execEntryFetch p entry s
  | .completionWrite p => Sys2Proof.Machine.execCompletionWrite p s
  | .msixRaise p => Sys2Proof.Machine.execMsixRaise p s
  | .bar4Access fn write off len data => Sys2Proof.Machine.execBar4Access fn write off len data s
  | .mmioRegisterWrite fn off val => Sys2Proof.Machine.execMmioRegisterWrite fn off val s
  | .shedsWrite => Sys2Proof.Machine.execShedsWrite s
  | .ringConfigWrite => Sys2Proof.Machine.execRingConfigWrite s
  | .start => Sys2Proof.Machine.execStart s
  | .stop => Sys2Proof.Machine.execStop s
  | .loadEnd p => Sys2Proof.Machine.execLoadEnd p s
  | .partitionStopped p => Sys2Proof.Machine.execPartitionStopped p s
  | .nanTrapRearm => Sys2Proof.Machine.execNanTrapRearm s
  | .stallFaultRearm => Sys2Proof.Machine.execStallFaultRearm s
  | .perstN asserted => Sys2Proof.Machine.execPerstN asserted s
  | .powerGood modEn recoveryN flashWpN => Sys2Proof.Machine.execPowerGood modEn recoveryN flashWpN s
  | .vinLow => Sys2Proof.Machine.execVinLow s
  | .powerLoss => Sys2Proof.Machine.execPowerLoss s
  | .modEnEdge rising => Sys2Proof.Machine.execModEnEdge rising s
  | .seasonOn => Sys2Proof.Machine.execSeasonOn s
  | .seasonOff => Sys2Proof.Machine.execSeasonOff s
  | .faultClear => Sys2Proof.Machine.execFaultClear s
  | .safeEnd endOfStep ok mask => Sys2Proof.Machine.execSafeEnd endOfStep ok mask s
  | .faultEnter cause sensor reading => Sys2Proof.Machine.execFaultEnter cause sensor reading s
  | .faultExit => Sys2Proof.Machine.execFaultExit s
  | .retryBackoffExpiry => Sys2Proof.Machine.execRetryBackoffExpiry s
  | .backgroundRetry stack k ok => Sys2Proof.Machine.execBackgroundRetry stack k ok s
  | .powerSample vin iin => Sys2Proof.Machine.execPowerSample vin iin s
  | .sensorRead yards other regFault => Sys2Proof.Machine.execSensorRead yards other regFault s
  | .thermalCeilingUpdate y => Sys2Proof.Machine.execThermalCeilingUpdate y s
  | .droop y => Sys2Proof.Machine.execDroop y s
  | .droopRestore y => Sys2Proof.Machine.execDroopRestore y s
  | .pwrBrake low => Sys2Proof.Machine.execPwrBrake low s
  | .perfSelWrite => Sys2Proof.Machine.execPerfSelWrite s
  | .commit => Sys2Proof.Machine.execCommit s
  | .restart => Sys2Proof.Machine.execRestart s
  | .fwSlotWrite => Sys2Proof.Machine.execFwSlotWrite s
  | .persistCommit => Sys2Proof.Machine.execPersistCommit s
  | .shedParity sh => Sys2Proof.Machine.execShedParity sh s
  | .unownedStateError => Sys2Proof.Machine.execUnownedStateError s
  | .invalidEncoding st w => Sys2Proof.Machine.execInvalidEncoding st w s
  | .fetchOutsideLocalMemory st => Sys2Proof.Machine.execFetchOutsideLocalMemory st s
  | .hostLinkChange up => Sys2Proof.Machine.execHostLinkChange up s
  | .mgmtLinkChange up => Sys2Proof.Machine.execMgmtLinkChange up s
  | .counterWrap kind k => Sys2Proof.Machine.execCounterWrap kind k s
  | .numvfsWrite n cfg => Sys2Proof.Machine.execNumvfsWrite n cfg s

end Sys2Proof.Machine
end

