-- ==== Sys2Proof/WellFormed.lean ====
section
/-!
DEFINITION. Which commands are well formed: they name units the module has (R5, R25, R99), and a stall instruction's fields
hold no reserved encoding (R100, R104, R105, R109-R111, R115, R116).  A command that is not well formed still has a meaning:
one that names no unit stops as noSuchUnit, and an instruction with a reserved encoding raises E_ILLEGAL (R131).
-/

namespace Sys2Proof

/-- Integer ET codes (R104). -/
def intEt (et : Nat) : Bool := decide (3 ≤ et ∧ et ≤ 6)

/-- Indices of special registers (R100). -/
def specialOk (i : Nat) : Bool := decide (i ≤ 5 ∨ i = 8 ∨ i = 9 ∨ i = 0xA)

/-- Bytes of an element of ET code `et` (R104). -/
def etBytes (et : Nat) : Nat := if et = 6 then 8 else if et = 0 ∨ et = 5 then 4 else if et = 3 then 1 else 2

/-- Fields of VCVT (R115): source ET, or E4M3 and E5M2 with FN[3]; destination code; FN[2] only from an integer to a
narrower one; FN[1:0] below the ratio of the widths. -/
def cvtOk (et b fn : Nat) : Bool :=
  let src8 := decide (8 ≤ fn)
  let sb := if src8 then 1 else etBytes et
  let db := if 8 ≤ b then 1 else etBytes b
  decide (if src8 then et ≤ 1 else et ≤ 6) && decide (b ≤ 6 ∨ b = 8 ∨ b = 9) &&
    decide (fn % 4 < max 1 (max (sb / db) (db / sb))) &&
    (decide (fn / 4 % 2 = 0) || (!src8 && intEt et && intEt b && decide (db < sb)))

/-- Whether a command names only units the module has (R5, R25). -/
def Instr.unitsOk : Instr → Bool
  | .add st _ _ _ | .sub st _ _ _ | .mul st _ _ _ | .mulh st _ _ _ | .mulhu st _ _ _ | .div st _ _ _ |
    .divu st _ _ _ | .rem st _ _ _ | .remu st _ _ _ | .and st _ _ _ | .or st _ _ _ | .xor st _ _ _ |
    .shl st _ _ _ | .shr st _ _ _ | .sra st _ _ _ | .slt st _ _ _ | .sltu st _ _ _ | .min st _ _ _ |
    .max st _ _ _ | .addw st _ _ _ | .subw st _ _ _ | .mulw st _ _ _ | .divw st _ _ _ | .divuw st _ _ _ |
    .remw st _ _ _ | .remuw st _ _ _ | .shlw st _ _ _ | .shrw st _ _ _ | .sraw st _ _ _ | .neg st _ _ |
    .abs st _ _ | .negw st _ _ | .absw st _ _ | .addi st _ _ _ | .addiw st _ _ _ | .andi st _ _ _ | .ori st _ _ _ |
    .xori st _ _ _ | .slti st _ _ _ | .shli st _ _ _ | .shri st _ _ _ | .srai st _ _ _ | .lui st _ _ |
    .ldB st _ _ _ | .ldH st _ _ _ | .ldW st _ _ _ | .ldD st _ _ _ | .ldBu st _ _ _ | .ldHu st _ _ _ |
    .ldWu st _ _ _ | .stB st _ _ _ | .stH st _ _ _ | .stW st _ _ _ | .stD st _ _ _ | .vld st _ _ _ |
    .vst st _ _ _ | .vstp st _ _ _ _ | .beq st _ _ _ | .bne st _ _ _ | .blt st _ _ _ | .bge st _ _ _ |
    .bltu st _ _ _ | .bgeu st _ _ _ | .jal st _ _ | .jalr st _ _ _ | .fence st _ | .srd st _ _ | .swr st _ _ |
    .fadd st _ _ _ | .fsub st _ _ _ | .fmul st _ _ _ | .fdiv st _ _ _ | .fmin st _ _ _ | .fmax st _ _ _ |
    .feq st _ _ _ | .flt st _ _ _ | .fle st _ _ _ | .fmadd st _ _ _ | .fsqrt st _ _ | .fcvtFI st _ _ |
    .fcvtIF st _ _ | .aadd st _ _ _ | .acas st _ _ _ _ | .getWork st _ _ | .evdone st | .evpush st _ _ |
    .send st _ _ | .hpush st _ _ | .fset st _ | .fclr st _ | .ftest st _ _ | .wcancel st _ _ |
    .watch st _ _ _ _ _ | .ucmd st _ _ _ | .mxInstruction st _ _ _ | .vadd st _ _ _ _ _ | .vsub st _ _ _ _ _ |
    .vmul st _ _ _ _ _ | .vmin st _ _ _ _ _ | .vmax st _ _ _ _ _ | .vadds st _ _ _ _ _ | .vsubs st _ _ _ _ _ |
    .vmuls st _ _ _ _ _ | .vand st _ _ _ _ _ | .vor st _ _ _ _ _ | .vxor st _ _ _ _ _ | .vshl st _ _ _ _ _ |
    .vshr st _ _ _ _ _ | .vsra st _ _ _ _ _ | .vdiv st _ _ _ _ _ | .vexpd st _ _ _ _ _ | .vcmpEq st _ _ _ _ _ |
    .vcmpNe st _ _ _ _ _ | .vcmpLt st _ _ _ _ _ | .vcmpLe st _ _ _ _ _ | .vcmpLtu st _ _ _ _ _ |
    .vcmpLeu st _ _ _ _ _ | .vperm st _ _ _ _ _ | .vabs st _ _ _ _ | .vneg st _ _ _ _ | .vabss st _ _ _ _ |
    .vnegs st _ _ _ _ | .vmov st _ _ _ _ | .vsqrt st _ _ _ _ | .vrcp st _ _ _ _ | .vrsqrt st _ _ _ _ |
    .vexp2 st _ _ _ _ | .vexpe st _ _ _ _ | .vlog2 st _ _ _ _ | .vln st _ _ _ _ | .vcmpIsnan st _ _ _ _ |
    .vcmpIsinf st _ _ _ _ | .vredRsum st _ _ _ _ | .vredRmax st _ _ _ _ | .vredRmin st _ _ _ _ |
    .vbcast st _ _ _ _ | .vcvt st _ _ _ _ _ _ | .vfma st _ _ _ _ _ _ | .vfms st _ _ _ _ _ _ |
    .vclamp st _ _ _ _ _ _ | .vrand st _ _ | .vrandc st _ _ _ | .vcvtmx st _ _ _ _ | .pand st _ _ _ |
    .por st _ _ _ | .pxor st _ _ _ | .pnot st _ _ | .pcnt st _ _ _ | .vget st _ _ _ _ | .loadValueReturn st _ |
    .controlIssue st => decide (st < 1024)
  | .flagSet _ | .flagClear _ | .flagTest _ | .watchArm _ | .watchCancel _ | .penOperation _ |
    .penSubwatchReport _ | .eventPush _ | .mailboxDelivery _ => true
  | .delayEntryDue sh _ | .dispatch sh | .shedSleep sh | .shedWake sh => decide (sh < 32)
  | .mxLoadw _ | .mxStream _ | .mxSpstream _ | .mxDrain _ | .mxReset _ => true
  | .mxaCommandStart sh | .streamRowFinal sh _ | .mxaCommandComplete sh _ => decide (sh < 32)
  | .sample _ | .score _ => true
  | .samplerDescriptorStart sh | .samplerDescriptorComplete sh | .runaheadCompute sh => decide (sh < 32)
  | .prefetchHint _ | .gather _ | .pool _ | .replay _ | .scatter _ | .flush _ | .applyOrdered _ | .opt8 _ |
    .tswitch _ | .replicate _ | .migrate _ => true
  | .rowDescriptorStart e p | .rowDescriptorComplete e p | .migrateCopy e p => decide (e < 384) && decide (p < 32)
  | .requestEnterWindow st _ _ => decide (st < 1024)
  | .sectorAccess e _ _ => decide (e < 384)
  | .atomicAtHome st _ => decide (st < 1024)
  | .hotRowsRead => true
  | .cacheCounterHalve e => decide (e < 384)
  | .copy _ | .compress _ | .expand _ => true
  | .dmaDescriptorStart sh | .dmaDescriptorComplete sh => decide (sh < 32)
  | .tableDescPend => true
  | .refresh k ch pc _ => decide (k < 12) && decide (ch < 32) && decide (pc < 2)
  | .stackTemperatureRead k _ => decide (k < 12)
  | .recalibration k ch => decide (k < 12) && decide (ch < 32)
  | .patrolScrub k _ => decide (k < 12)
  | .frameClearing y f => decide (y < 4) && decide (f < 715)
  | .hbmLayoutWrite => true
  | .flitSend k | .flitReceive k _ | .replayTimeout k | .nrdyRetry k | .trainingAttempt k _ _ _ | .linkDown k |
    .failover k | .flowMoveBack k => decide (k < 12)
  | .pktWrite k _ | .pktRead k _ | .pktReadResp k _ | .pktRowAtomic k _ | .messageEvpush k _ | .messageHpush k _ |
    .messageSend k _ | .messageResult k _ | .messageAck k _ | .messageNack k _ | .flagSetPacket k _ |
    .mgmtRequest k _ => decide (k ≤ 12)
  | .flagOnLastTrailer _ | .transactionTimeout _ => true
  | .timeExchange k _ _ => decide (k < 12)
  | .collectiveStart p n => decide (p < 32) && decide (n < 64)
  | .collectiveContribution k _ | .collectiveResult k _ | .collectiveChainSum k _ | .collectiveSidecar k _ => decide (k ≤ 12)
  | .vstartDetected p | .regionScan p | .verdict p | .stepBoundary p | .altFreeSet p | .mirrorStart p |
    .mirrorCommit p | .mirrorFailed p => decide (p < 32)
  | .mirrorCtrlNow | .odRead | .odWrite | .blobRead | .blobWrite | .acquire | .renew | .release => true
  | .leaseExpiry m => decide (m < 33)
  | .mgmtDatagram _ _ _ => true
  | .mboxGo fn => decide (fn < 33)
  | .sqTail p _ | .cqHead p _ | .entryFetch p _ | .completionWrite p | .msixRaise p => decide (p < 32)
  | .bar4Access fn _ _ _ _ | .mmioRegisterWrite fn _ _ => decide (fn < 33)
  | .shedsWrite | .ringConfigWrite | .start | .stop => true
  | .loadEnd p | .partitionStopped p => decide (p < 32)
  | .nanTrapRearm | .stallFaultRearm | .perstN _ | .powerGood _ _ _ | .vinLow | .powerLoss | .modEnEdge _ |
    .seasonOn | .seasonOff | .faultClear | .safeEnd _ _ _ | .faultEnter _ _ _ | .faultExit | .retryBackoffExpiry => true
  | .backgroundRetry stack k _ => decide (k < (if stack then 12 else 32))
  | .powerSample _ _ | .sensorRead _ _ _ => true
  | .thermalCeilingUpdate y | .droop y | .droopRestore y => decide (y < 4)
  | .pwrBrake _ | .perfSelWrite | .commit | .restart | .fwSlotWrite | .persistCommit => true
  | .shedParity sh => decide (sh < 32)
  | .unownedStateError => true
  | .invalidEncoding st _ | .fetchOutsideLocalMemory st => decide (st < 1024)
  | .hostLinkChange _ | .mgmtLinkChange _ => true
  | .counterWrap kind k => decide ((kind = 0 ∧ k < 1024 ∨ kind = 1 ∧ k < 16))
  | .numvfsWrite _ _ => true

/-- Whether a stall instruction's fields hold no reserved encoding (R104, R105); other commands have no such fields. -/
def Instr.fieldsOk : Instr → Bool
  | .add _ _ _ _ | .sub _ _ _ _ | .mul _ _ _ _ | .mulh _ _ _ _ | .mulhu _ _ _ _ | .div _ _ _ _ | .divu _ _ _ _ |
    .rem _ _ _ _ | .remu _ _ _ _ | .and _ _ _ _ | .or _ _ _ _ | .xor _ _ _ _ | .shl _ _ _ _ | .shr _ _ _ _ |
    .sra _ _ _ _ | .slt _ _ _ _ | .sltu _ _ _ _ | .min _ _ _ _ | .max _ _ _ _ | .addw _ _ _ _ | .subw _ _ _ _ |
    .mulw _ _ _ _ | .divw _ _ _ _ | .divuw _ _ _ _ | .remw _ _ _ _ | .remuw _ _ _ _ | .shlw _ _ _ _ |
    .shrw _ _ _ _ | .sraw _ _ _ _ | .neg _ _ _ | .abs _ _ _ | .negw _ _ _ | .absw _ _ _ | .addi _ _ _ _ |
    .addiw _ _ _ _ | .andi _ _ _ _ | .ori _ _ _ _ | .xori _ _ _ _ | .slti _ _ _ _ => true
  | .shli _ _ _ imm | .shri _ _ _ imm | .srai _ _ _ imm => decide (imm.toNat < 64)
  | .lui _ _ _ | .ldB _ _ _ _ | .ldH _ _ _ _ | .ldW _ _ _ _ | .ldD _ _ _ _ | .ldBu _ _ _ _ | .ldHu _ _ _ _ |
    .ldWu _ _ _ _ | .stB _ _ _ _ | .stH _ _ _ _ | .stW _ _ _ _ | .stD _ _ _ _ | .vld _ _ _ _ | .vst _ _ _ _ |
    .vstp _ _ _ _ _ | .beq _ _ _ _ | .bne _ _ _ _ | .blt _ _ _ _ | .bge _ _ _ _ | .bltu _ _ _ _ | .bgeu _ _ _ _ |
    .jal _ _ _ | .jalr _ _ _ _ | .fence _ _ => true
  | .srd _ _ idx | .swr _ _ idx => specialOk idx.toNat
  | .fadd _ _ _ _ | .fsub _ _ _ _ | .fmul _ _ _ _ | .fdiv _ _ _ _ | .fmin _ _ _ _ | .fmax _ _ _ _ | .feq _ _ _ _ |
    .flt _ _ _ _ | .fle _ _ _ _ | .fmadd _ _ _ _ | .fsqrt _ _ _ | .fcvtFI _ _ _ | .fcvtIF _ _ _ => true
  | .aadd _ _ _ fn => decide (fn.toNat < 5)
  | .acas _ _ _ _ _ | .getWork _ _ _ | .evdone _ | .evpush _ _ _ | .send _ _ _ | .hpush _ _ _ | .fset _ _ |
    .fclr _ _ | .ftest _ _ _ | .wcancel _ _ _ => true
  | .watch _ _ _ _ _ fn => decide (fn.toNat < 2)
  | .ucmd _ _ _ fn => decide (fn.toNat < 4)
  | .mxInstruction _ _ _ fn => decide (0 < fn.toNat) && decide (fn.toNat < 6)
  | .vadd _ _ _ _ _ et | .vsub _ _ _ _ _ et | .vmul _ _ _ _ _ et | .vmin _ _ _ _ _ et | .vmax _ _ _ _ _ et => decide (et.toNat < 7)
  | .vadds _ _ _ _ _ et | .vsubs _ _ _ _ _ et | .vmuls _ _ _ _ _ et => intEt et.toNat
  | .vand _ _ _ _ _ et | .vor _ _ _ _ _ et | .vxor _ _ _ _ _ et => decide (et.toNat < 7)
  | .vshl _ _ _ _ _ et | .vshr _ _ _ _ _ et | .vsra _ _ _ _ _ et => intEt et.toNat
  | .vdiv _ _ _ _ _ et | .vexpd _ _ _ _ _ et => decide (et.toNat < 3)
  | .vcmpEq _ d _ _ _ et | .vcmpNe _ d _ _ _ et | .vcmpLt _ d _ _ _ et | .vcmpLe _ d _ _ _ et => decide (d.toNat < 8) && decide (et.toNat < 7)
  | .vcmpLtu _ d _ _ _ et | .vcmpLeu _ d _ _ _ et => decide (d.toNat < 8) && intEt et.toNat
  | .vperm _ _ _ _ _ et | .vabs _ _ _ _ et | .vneg _ _ _ _ et => decide (et.toNat < 7)
  | .vabss _ _ _ _ et | .vnegs _ _ _ _ et => intEt et.toNat
  | .vmov _ _ _ _ et => decide (et.toNat < 7)
  | .vsqrt _ _ _ _ et | .vrcp _ _ _ _ et | .vrsqrt _ _ _ _ et | .vexp2 _ _ _ _ et | .vexpe _ _ _ _ et |
    .vlog2 _ _ _ _ et | .vln _ _ _ _ et => decide (et.toNat < 3)
  | .vcmpIsnan _ d _ _ et | .vcmpIsinf _ d _ _ et => decide (d.toNat < 8) && decide (et.toNat < 3)
  | .vredRsum _ _ _ _ et | .vredRmax _ _ _ _ et | .vredRmin _ _ _ _ et | .vbcast _ _ _ _ et => decide (et.toNat < 7)
  | .vcvt _ _ _ b _ et fn => cvtOk et.toNat b.toNat fn.toNat
  | .vfma _ _ _ _ _ _ ft | .vfms _ _ _ _ _ _ ft | .vclamp _ _ _ _ _ _ ft => decide (ft.toNat < 3)
  | .vrand _ _ fn | .vrandc _ _ _ fn => decide (fn.toNat < 2)
  | .vcvtmx _ _ _ _ fn => decide (fn.toNat % 8 < 6)
  | .pand _ d a b | .por _ d a b | .pxor _ d a b => decide (d.toNat < 8) && decide (a.toNat < 8) && decide (b.toNat < 8)
  | .pnot _ d a => decide (d.toNat < 8) && decide (a.toNat < 8)
  | .pcnt _ d _ et => decide (d.toNat < 8) && decide (et.toNat < 7)
  | .vget _ _ _ _ et => decide (et.toNat < 7)
  | .loadValueReturn _ _ | .controlIssue _ | .flagSet _ | .flagClear _ | .flagTest _ | .watchArm _ |
    .watchCancel _ | .penOperation _ | .penSubwatchReport _ | .eventPush _ | .mailboxDelivery _ |
    .delayEntryDue _ _ | .dispatch _ | .shedSleep _ | .shedWake _ | .mxLoadw _ | .mxStream _ | .mxSpstream _ |
    .mxDrain _ | .mxReset _ | .mxaCommandStart _ | .streamRowFinal _ _ | .mxaCommandComplete _ _ | .sample _ |
    .score _ | .samplerDescriptorStart _ | .samplerDescriptorComplete _ | .runaheadCompute _ | .prefetchHint _ |
    .gather _ | .pool _ | .replay _ | .scatter _ | .flush _ | .applyOrdered _ | .opt8 _ | .tswitch _ |
    .replicate _ | .migrate _ | .rowDescriptorStart _ _ | .rowDescriptorComplete _ _ | .migrateCopy _ _ |
    .requestEnterWindow _ _ _ | .sectorAccess _ _ _ | .atomicAtHome _ _ | .hotRowsRead | .cacheCounterHalve _ |
    .copy _ | .compress _ | .expand _ | .dmaDescriptorStart _ | .dmaDescriptorComplete _ | .tableDescPend |
    .refresh _ _ _ _ | .stackTemperatureRead _ _ | .recalibration _ _ | .patrolScrub _ _ | .frameClearing _ _ |
    .hbmLayoutWrite | .flitSend _ | .flitReceive _ _ | .replayTimeout _ | .nrdyRetry _ | .trainingAttempt _ _ _ _ |
    .linkDown _ | .failover _ | .flowMoveBack _ | .pktWrite _ _ | .pktRead _ _ | .pktReadResp _ _ |
    .pktRowAtomic _ _ | .messageEvpush _ _ | .messageHpush _ _ | .messageSend _ _ | .messageResult _ _ |
    .messageAck _ _ | .messageNack _ _ | .flagSetPacket _ _ | .mgmtRequest _ _ | .flagOnLastTrailer _ |
    .transactionTimeout _ | .timeExchange _ _ _ | .collectiveStart _ _ | .collectiveContribution _ _ |
    .collectiveResult _ _ | .collectiveChainSum _ _ | .collectiveSidecar _ _ | .vstartDetected _ | .regionScan _ |
    .verdict _ | .stepBoundary _ | .altFreeSet _ | .mirrorStart _ | .mirrorCommit _ | .mirrorFailed _ |
    .mirrorCtrlNow | .odRead | .odWrite | .blobRead | .blobWrite | .acquire | .renew | .release | .leaseExpiry _ |
    .mgmtDatagram _ _ _ | .mboxGo _ | .sqTail _ _ | .cqHead _ _ | .entryFetch _ _ | .completionWrite _ |
    .msixRaise _ | .bar4Access _ _ _ _ _ | .mmioRegisterWrite _ _ _ | .shedsWrite | .ringConfigWrite | .start |
    .stop | .loadEnd _ | .partitionStopped _ | .nanTrapRearm | .stallFaultRearm | .perstN _ | .powerGood _ _ _ |
    .vinLow | .powerLoss | .modEnEdge _ | .seasonOn | .seasonOff | .faultClear | .safeEnd _ _ _ |
    .faultEnter _ _ _ | .faultExit | .retryBackoffExpiry | .backgroundRetry _ _ _ | .powerSample _ _ |
    .sensorRead _ _ _ | .thermalCeilingUpdate _ | .droop _ | .droopRestore _ | .pwrBrake _ | .perfSelWrite |
    .commit | .restart | .fwSlotWrite | .persistCommit | .shedParity _ | .unownedStateError |
    .invalidEncoding _ _ | .fetchOutsideLocalMemory _ | .hostLinkChange _ | .mgmtLinkChange _ | .counterWrap _ _ |
    .numvfsWrite _ _ => true

/-- A well-formed command. -/
def Instr.wf (i : Instr) : Bool := i.unitsOk && i.fieldsOk

end Sys2Proof
end

