-- ==== Sys2Proof/Safety.lean ====
section
/-!
DEFINITION. The terms claims are stated in: when memory is in its canonical form, when a stall can execute, and what an
instruction leaves unchanged.  A safe run is one without a fault or a refusal; a command that names units the module has
never stops (R5).
-/

namespace Sys2Proof.Machine

/-- The canonical form of memory: addresses strictly rising, and no byte equal to what an unlisted address reads as. -/
def Memory.wf (m : FMap Byte) : Bool := FMap.wf memReset m

/-- A run is safe at a state when its next step is a next state. -/
def State.safe (s : State) : Prop := ∃ t, step s = .next t

/-- An outcome is a next state of which `q` holds. -/
def Answers (o : Out1) (q : State → Prop) : Prop := ∃ t, o = .next t ∧ q t

/-- An outcome is a next state that differs from `s` in stall `st` alone, of whose new value `q` holds. -/
def Alters (s : State) (st : Nat) (o : Out1) (q : Stall → Prop) : Prop := ∃ y, o = .next (s.setStall st y) ∧ q y

/-- Stall `st` executes for partition `p` and no register of `rs` waits for a result (R117, R120, R126). -/
def State.canRun (s : State) (st p : Nat) (rs : List Nat) : Prop :=
  st < 1024 ∧ s.runner st = some p ∧ (s.stall st).ready rs = true

/-- No access to HBM has to wait: every engine's window is empty and its channel has a slot for foreground work (R195,
R251). -/
def State.idleHbm (s : State) : Prop := ∀ e, s.openEngine e = true

/-- What becomes of the tag of a descriptor that has ended between two states (R126): its stall has it back once none of
the UCMD's descriptors is left; a descriptor without a tag frees none, and no other stall's count changes. -/
def tagBack (s t : State) (d : Desc) : Prop :=
  (t.stall d.stall).descs = (s.stall d.stall).descs -
    (match d.tagId with | some i => if t.tagLives i then 0 else 1 | none => 0) ∧
  ∀ j, j ≠ d.stall → (t.stall j).descs = (s.stall j).descs

/-- The frame of an instruction that writes gd and status: gd takes `v`, g31 still reads 0, every other g register keeps
its value, status bits `f` are set, pc goes on; a result still outstanding for gd goes nowhere (R99, R102, R126). -/
structure GWrite (x y : Stall) (d : BitVec 5) (v : BitVec 64) (f : BitVec 4) : Prop where
  reads : ∀ i, y.getG i = if i = 31 then 0 else if i = d then v else x.getG i
  free  : y.waiting d.toNat = false
  rest  : y = { x with g := y.g, acc := (x.supersede d.toNat).acc, waits := (x.supersede d.toNat).waits,
                       astat := x.astat ||| f, pc := x.pc + 4 }

/-- The frame of an instruction that writes vd by elements of width `w` under a predicate: active elements take the
results `r`, every other element and register keeps its value; the status is that of the active results (R99, R112). -/
structure VWrite (x y : Stall) (d : BitVec 5) (pr : BitVec 128) (w : Nat) (r : Nat → ERes) : Prop where
  elems  : ∀ i, i < 1024 / w →
    elem w (y.getV d) i = if active pr w i then (r i).code % 2 ^ w else elem w (x.getV d) i
  others : ∀ j, j ≠ d → y.getV j = x.getV j
  status : ∀ b, y.astat.getLsbD b =
    (x.astat.getLsbD b || (List.range (1024 / w)).any (fun i => active pr w i && (r i).flags.getLsbD b))
  rest   : y = { x with v := y.v, acc := (x.supersede (vreg d.toNat)).acc, waits := (x.supersede (vreg d.toNat)).waits,
                        astat := y.astat, pc := x.pc + 4 }

/-- The frame of an instruction that writes a whole vector register and no status (R99). -/
structure VLoad (x y : Stall) (d : BitVec 5) (v : BitVec 1024) : Prop where
  reads : ∀ j, y.getV j = if j = d then v else x.getV j
  free  : y.waiting (vreg d.toNat) = false

/-- The frame of an instruction that writes predicate register `d` alone: p0 keeps reading as ones (R99). -/
structure PWrite (x y : Stall) (d : Nat) (v : BitVec 128) : Prop where
  reads : ∀ i, y.getP i = if i = 0 then BitVec.allOnes 128 else if i = d then v else x.getP i
  rest  : y = { x with p := y.p, pc := x.pc + 4 }

end Sys2Proof.Machine
end

