-- ==== Sys2Proof/Certificates/Slice0/Obligations.lean ====
section
/-!
DEFINITION. The statements for the provers.
-/

open Sys2Proof Sys2Proof.Machine


/-- 95_what_each_step_holds.md: For every command c and state s, a step of s with c at the front of its queue is exec of c
on s with the rest of the queue. -/
def Obligations.StepRunsFront : Prop :=
  ∀ (c : Instr) (s : State), step { s with pending := c :: s.pending } = exec c s

/-- R104, R105, R106, R107, R108, R109, R110, R111, R113, R115, R116: For every stall instruction whose operands fit their
fields, the word the encoder writes from the formats of R104 is decoded, for the same stall, to exactly that
instruction with every operand. -/
def Obligations.DecodeEncode : Prop :=
  ∀ (i : Instr) (st : Nat) (w : BitVec 32), i.wf = true → encodeStall i = some (st, w) → decodeStallWord st w = some i

/-- R5, R25: Every command whose unit numbers are within R5 and R25 is answered by a next state from every state; a
command that names a unit the module does not have is answered by the fault noSuchUnit, which is the model's own stop
(its choice, assumption log 7). -/
def Obligations.WellFormedNeverStops : Prop :=
  ∀ (i : Instr) (s : State),
    (i.unitsOk = true → ∃ t, exec i s = .next t) ∧ (i.unitsOk = false → exec i s = .fault .noSuchUnit)

/-- R57: For every running stall and all registers, each register form of the scalar integer group writes gd with the low
bits of its exact result and no other register, sets OVF exactly where the exact result of ADD, SUB, MUL, NEG, ABS,
DIV or REM does not fit, DZ exactly on division by zero with the quotient and remainder of R57, shifts by n mod 64 (n
mod 32 in word forms), word forms work on bits [31:0] and sign-extend; no case traps: every one completes with pc + 4.
g31 discards the write. -/
def Obligations.ScalarIntegerRules : Prop :=
  (∀ (s : State) (st p : Nat) (d a b : BitVec 5), s.canRun st p [a.toNat, b.toNat] →
     let x := s.stall st
     let u := x.getG a
     let v := x.getG b
     let ov (c : Prop) [Decidable c] : BitVec 4 := if c then fOVF else 0
     let W (c : Instr) (r : BitVec 64) (f : BitVec 4) : Prop := Alters s st (exec c s) fun y => GWrite x y d r f
     W (.add st d a b) (u + v) (ov ((u + v).toInt ≠ u.toInt + v.toInt)) ∧
     W (.sub st d a b) (u - v) (ov ((u - v).toInt ≠ u.toInt - v.toInt)) ∧
     W (.mul st d a b) (u * v) (ov ((u * v).toInt ≠ u.toInt * v.toInt)) ∧
     W (.mulh st d a b) ((u.signExtend 128 * v.signExtend 128).extractLsb' 64 64) 0 ∧
     W (.mulhu st d a b) ((u.setWidth 128 * v.setWidth 128).extractLsb' 64 64) 0 ∧
     W (.div st d a b) (if v = 0 then BitVec.allOnes 64 else u.sdiv v)
       (if v = 0 then fDZ else ov (u = BitVec.intMin 64 ∧ v = BitVec.allOnes 64)) ∧
     W (.divu st d a b) (if v = 0 then BitVec.allOnes 64 else u / v) (if v = 0 then fDZ else 0) ∧
     W (.rem st d a b) (if v = 0 then u else u.srem v)
       (if v = 0 then fDZ else ov (u = BitVec.intMin 64 ∧ v = BitVec.allOnes 64)) ∧
     W (.remu st d a b) (if v = 0 then u else u % v) (if v = 0 then fDZ else 0) ∧
     W (.and st d a b) (u &&& v) 0 ∧ W (.or st d a b) (u ||| v) 0 ∧ W (.xor st d a b) (u ^^^ v) 0 ∧
     W (.shl st d a b) (u <<< (v.toNat % 64)) 0 ∧ W (.shr st d a b) (u >>> (v.toNat % 64)) 0 ∧
     W (.sra st d a b) (u.sshiftRight (v.toNat % 64)) 0 ∧
     W (.slt st d a b) (if u.slt v then 1 else 0) 0 ∧ W (.sltu st d a b) (if u.ult v then 1 else 0) 0 ∧
     W (.min st d a b) (if v.slt u then v else u) 0 ∧ W (.max st d a b) (if u.slt v then v else u) 0 ∧
     W (.neg st d a) (-u) (ov (u = BitVec.intMin 64)) ∧
     W (.abs st d a) (if u.slt 0 then -u else u) (ov (u = BitVec.intMin 64))) ∧
  (∀ (s : State) (st p : Nat) (d a b : BitVec 5), s.canRun st p [a.toNat, b.toNat] →
     let x := s.stall st
     let u := (x.getG a).setWidth 32
     let v := (x.getG b).setWidth 32
     let n := (x.getG b).toNat % 32
     let ov (c : Prop) [Decidable c] : BitVec 4 := if c then fOVF else 0
     let W (c : Instr) (r : BitVec 32) (f : BitVec 4) : Prop :=
       Alters s st (exec c s) fun y => GWrite x y d (r.signExtend 64) f
     W (.addw st d a b) (u + v) (ov ((u + v).toInt ≠ u.toInt + v.toInt)) ∧
     W (.subw st d a b) (u - v) (ov ((u - v).toInt ≠ u.toInt - v.toInt)) ∧
     W (.mulw st d a b) (u * v) (ov ((u * v).toInt ≠ u.toInt * v.toInt)) ∧
     W (.divw st d a b) (if v = 0 then BitVec.allOnes 32 else u.sdiv v)
       (if v = 0 then fDZ else ov (u = BitVec.intMin 32 ∧ v = BitVec.allOnes 32)) ∧
     W (.divuw st d a b) (if v = 0 then BitVec.allOnes 32 else u / v) (if v = 0 then fDZ else 0) ∧
     W (.remw st d a b) (if v = 0 then u else u.srem v)
       (if v = 0 then fDZ else ov (u = BitVec.intMin 32 ∧ v = BitVec.allOnes 32)) ∧
     W (.remuw st d a b) (if v = 0 then u else u % v) (if v = 0 then fDZ else 0) ∧
     W (.shlw st d a b) (u <<< n) 0 ∧ W (.shrw st d a b) (u >>> n) 0 ∧ W (.sraw st d a b) (u.sshiftRight n) 0 ∧
     W (.negw st d a) (-u) (ov (u = BitVec.intMin 32)) ∧
     W (.absw st d a) (if u.slt 0 then -u else u) (ov (u = BitVec.intMin 32)))

/-- R104, R105, R106, R107: For every running stall the immediate forms of the scalar integer group and LUI write gd with
the result on the sign-extended immediate; a shift-immediate with an amount of 64 or more raises the stall fault
E_ILLEGAL. -/
def Obligations.ScalarImmediates : Prop :=
  ∀ (s : State) (st p : Nat) (d a : BitVec 5) (imm : BitVec 15) (off : BitVec 20), s.canRun st p [a.toNat] →
    let x := s.stall st
    let u := x.getG a
    let v : BitVec 64 := imm.signExtend 64
    let ov (c : Prop) [Decidable c] : BitVec 4 := if c then fOVF else 0
    let W (c : Instr) (r : BitVec 64) (f : BitVec 4) : Prop := Alters s st (exec c s) fun y => GWrite x y d r f
    W (.addi st d a imm) (u + v) (ov ((u + v).toInt ≠ u.toInt + v.toInt)) ∧
    (let z := u.setWidth 32 + v.setWidth 32
     W (.addiw st d a imm) (z.signExtend 64) (ov (z.toInt ≠ (u.setWidth 32).toInt + (v.setWidth 32).toInt))) ∧
    W (.andi st d a imm) (u &&& v) 0 ∧ W (.ori st d a imm) (u ||| v) 0 ∧ W (.xori st d a imm) (u ^^^ v) 0 ∧
    W (.slti st d a imm) (if u.slt v then 1 else 0) 0 ∧
    W (.lui st d off) (off.signExtend 64 <<< 12) 0 ∧
    (imm.toNat < 64 → W (.shli st d a imm) (u <<< imm.toNat) 0 ∧ W (.shri st d a imm) (u >>> imm.toNat) 0 ∧
      W (.srai st d a imm) (u.sshiftRight imm.toNat) 0) ∧
    (64 ≤ imm.toNat → ∀ c ∈ [Instr.shli st d a imm, .shri st d a imm, .srai st d a imm],
      exec c s = .next (s.stallFault p st 0x0401 x.pc.toNat 0))

/-- R46: For every numerator m at exponent e and a coarser exponent l, the rounded count of units differs from the exact
value by at most half a unit, and by exactly half a unit only when it is even. -/
def Obligations.RoundNearestEven : Prop :=
  ∀ (m : Nat) (e l : Int), e < l →
    let u := 2 ^ (l - e).toNat
    let q := rne m e l
    2 * ((q : Int) * u - m).natAbs ≤ u ∧ (2 * ((q : Int) * u - m).natAbs = u → q % 2 = 0)

/-- R38, R46, R47, R48, R49, R59, R60, R108, R114: For every running stall each FP32 instruction decodes bits [31:0] of
its sources, writes the once-rounded result zero-extended into gd and no other register, sets INV where the operation is
invalid, and hands a NaN result to the first-NaN machinery; comparisons write 1 or 0, conversions to integer saturate and
set INV.  That INV is set only for a NaN made from operands that are not NaN is the model's reading (assumption log
53). -/
def Obligations.ScalarFloats : Prop :=
  ∀ (s : State) (st p : Nat) (d a b : BitVec 5), s.canRun st p [a.toNat, b.toNat, d.toNat] →
    let x := s.stall st
    let F (i : BitVec 5) : FVal := fp32.decode ((x.getG i).toNat % 2 ^ 32)
    let R (c : Instr) (args : List FVal) (r : FVal) (inv : Bool) : Prop :=
      ∃ y, exec c s = .next ((s.setStall st y).nanEvents p ⟨0, 1, st, x.pc.toNat⟩ [(0, nanCause args r)]) ∧
        GWrite x y d (BitVec.ofNat 64 (fp32.encode r)) (if inv then fINV else 0)
    let bad (args : List FVal) (r : FVal) : Bool := r.isNaN && args.all (fun v => !v.isNaN)
    let B (c : Instr) (f : FVal → FVal → FVal) : Prop := R c [F a, F b] (f (F a) (F b)) (bad [F a, F b] (f (F a) (F b)))
    let C (c : Instr) (f : FVal → FVal → Bool) : Prop :=
      Alters s st (exec c s) fun y => GWrite x y d (if f (F a) (F b) then 1 else 0) 0
    B (.fadd st d a b) FVal.add ∧ B (.fsub st d a b) FVal.sub ∧ B (.fmul st d a b) FVal.mul ∧
    B (.fmin st d a b) FVal.min ∧ B (.fmax st d a b) FVal.max ∧
    R (.fdiv st d a b) [F a, F b] ((F a).div (F b)) ((F a).div (F b)).isNaN ∧
    R (.fsqrt st d a) [F a] (F a).sqrt (F a).sqrt.isNaN ∧
    R (.fmadd st d a b) [F a, F b, F d] (FVal.fma (F a) (F b) (F d)) (bad [F a, F b, F d] (FVal.fma (F a) (F b) (F d))) ∧
    C (.feq st d a b) FVal.eq ∧ C (.flt st d a b) FVal.lt ∧ C (.fle st d a b) FVal.le ∧
    Alters s st (exec (.fcvtFI st d a) s) (fun y => GWrite x y d (BitVec.ofNat 64 (fp32.encode (fOfInt (x.getG a).toInt))) 0) ∧
    Alters s st (exec (.fcvtIF st d a) s) (fun y =>
      let r := (F a).toRange (-(2 ^ 63)) (2 ^ 63 - 1)
      GWrite x y d (BitVec.ofInt 64 r.1) (if r.2 then fINV else 0))

/-- R58: For every integer element type and all codes, wrapping forms keep the low bits of the exact result, saturating
forms clamp to the range and set SAT exactly when they clamp, and shifts by the width or more give 0 or all sign bits. -/
def Obligations.VectorIntegerResults : Prop :=
  ∀ (et a b : Nat), etInt et = true → a < 2 ^ etWidth et → b < 2 ^ etWidth et →
    let w := etWidth et
    let z (n : Nat) : Int := if 2 * n < 2 ^ w then n else (n : Int) - 2 ^ w
    let lo : Int := -(2 ^ (w - 1))
    let hi : Int := 2 ^ (w - 1) - 1
    let Wraps (r : ERes) (v : Int) : Prop := r = ⟨(v % 2 ^ w).toNat, 0, 0⟩
    let Clamps (r : ERes) (v : Int) : Prop :=
      r = ⟨((min hi (max lo v)) % 2 ^ w).toNat, if lo ≤ v ∧ v ≤ hi then 0 else fSAT, 0⟩
    Wraps (vAdd et a b) (z a + z b) ∧ Wraps (vSub et a b) (z a - z b) ∧ Wraps (vMul et a b) (z a * z b) ∧
    Wraps (vMin et a b) (min (z a) (z b)) ∧ Wraps (vMax et a b) (max (z a) (z b)) ∧
    Wraps (vAbs et a) |z a| ∧ Wraps (vNeg et a) (-z a) ∧
    Clamps (vAdds et a b) (z a + z b) ∧ Clamps (vSubs et a b) (z a - z b) ∧ Clamps (vMuls et a b) (z a * z b) ∧
    Clamps (vAbss et a) |z a| ∧ Clamps (vNegs et a) (-z a) ∧
    vShl et a b = ⟨if w ≤ b then 0 else a * 2 ^ b % 2 ^ w, 0, 0⟩ ∧ vShr et a b = ⟨if w ≤ b then 0 else a / 2 ^ b, 0, 0⟩ ∧
    vSra et a b = ⟨(if w ≤ b then (if z a < 0 then 2 ^ w - 1 else 0) else ((z a / 2 ^ b) % 2 ^ w).toNat), 0, 0⟩

/-- R106, R110, R112, R114: For every running stall each elementwise vector instruction of one or two sources, VBCAST and
VPERM write the active elements of vd with the element results, keep inactive elements, every other vector register,
the general registers and predicates, set the status of the active results and report the first-NaN causes of the
active elements alone. -/
def Obligations.VectorFloats : Prop :=
  (∀ (s : State) (st p : Nat) (d a b : BitVec 5) (q et : BitVec 3),
     s.canRun st p [vreg d.toNat, vreg a.toNat, vreg b.toNat] →
     let x := s.stall st
     let w := etWidth et.toNat
     let pr := x.getP q.toNat
     let E (c : Instr) (f : Nat → Nat → ERes) : Prop :=
       let r i := f (elem w (x.getV a) i) (elem w (x.getV b) i)
       ∃ y, exec c s = .next ((s.setStall st y).nanEvents p ⟨1, 1, st, x.pc.toNat⟩ (causesOf (activeRes pr w r))) ∧
         VWrite x y d pr w r
     (et.toNat ≤ 6 →
       E (.vadd st d a b q et) (vAdd et.toNat) ∧ E (.vsub st d a b q et) (vSub et.toNat) ∧
       E (.vmul st d a b q et) (vMul et.toNat) ∧ E (.vmin st d a b q et) (vMin et.toNat) ∧
       E (.vmax st d a b q et) (vMax et.toNat) ∧ E (.vand st d a b q et) (fun m n => ⟨m &&& n, 0, 0⟩) ∧
       E (.vor st d a b q et) (fun m n => ⟨m ||| n, 0, 0⟩) ∧ E (.vxor st d a b q et) (fun m n => ⟨m ^^^ n, 0, 0⟩)) ∧
     (etInt et.toNat = true →
       E (.vadds st d a b q et) (vAdds et.toNat) ∧ E (.vsubs st d a b q et) (vSubs et.toNat) ∧
       E (.vmuls st d a b q et) (vMuls et.toNat) ∧ E (.vshl st d a b q et) (vShl et.toNat) ∧
       E (.vshr st d a b q et) (vShr et.toNat) ∧ E (.vsra st d a b q et) (vSra et.toNat)) ∧
     (et.toNat ≤ 2 → E (.vdiv st d a b q et) (vDiv et.toNat) ∧ E (.vexpd st d a b q et) (vExpd et.toNat))) ∧
  (∀ (s : State) (st p : Nat) (d a b : BitVec 5) (q et : BitVec 3),
     s.canRun st p [vreg d.toNat, vreg a.toNat, vreg b.toNat, a.toNat] →
     let x := s.stall st
     let w := etWidth et.toNat
     let pr := x.getP q.toNat
     let V (c : Instr) (r : Nat → ERes) : Prop :=
       ∃ y, exec c s = .next ((s.setStall st y).nanEvents p ⟨1, 1, st, x.pc.toNat⟩ (causesOf (activeRes pr w r))) ∧
         VWrite x y d pr w r
     let E (c : Instr) (f : Nat → ERes) : Prop := V c (fun i => f (elem w (x.getV a) i))
     (et.toNat ≤ 6 →
       E (.vabs st d a q et) (vAbs et.toNat) ∧ E (.vneg st d a q et) (vNeg et.toNat) ∧
       E (.vmov st d a q et) (fun m => ⟨m, 0, 0⟩) ∧
       V (.vbcast st d a q et) (fun _ => ⟨(x.getG a).toNat % 2 ^ w, 0, 0⟩) ∧
       V (.vperm st d a b q et) (fun i => ⟨elem w (x.getV a) (elem w (x.getV b) i % (1024 / w)), 0, 0⟩)) ∧
     (etInt et.toNat = true → E (.vabss st d a q et) (vAbss et.toNat) ∧ E (.vnegs st d a q et) (vNegs et.toNat)) ∧
     (et.toNat ≤ 2 →
       E (.vsqrt st d a q et) (vSqrt et.toNat) ∧ E (.vrcp st d a q et) (vRcp et.toNat) ∧
       E (.vrsqrt st d a q et) (vRsqrt et.toNat) ∧ E (.vexp2 st d a q et) (vExp2 et.toNat) ∧
       E (.vexpe st d a q et) (vExpe et.toNat) ∧ E (.vlog2 st d a q et) (vLog2 et.toNat) ∧
       E (.vln st d a q et) (vLn et.toNat)))

/-- R48, R106, R112: For every running stall and format FT, VFMA, VFMS and VCLAMP write each active element of vd with one
rounding of a*b+c, a*b-c, or min(max(a,b),c), and nothing else of the vector registers. -/
def Obligations.VectorFused : Prop :=
  ∀ (s : State) (st p : Nat) (d a b c : BitVec 5) (q : BitVec 3) (ft : BitVec 2) (f : Fmt),
    s.canRun st p [vreg d.toNat, vreg a.toNat, vreg b.toNat, vreg c.toNat] → fmtOf ft.toNat = some f →
    let x := s.stall st
    let w := f.width
    let pr := x.getP q.toNat
    let F (j : BitVec 5) (i : Nat) : FVal := f.decode (elem w (x.getV j) i)
    let E (k : Instr) (g : FVal → FVal → FVal → FVal) : Prop :=
      let r i := fRes f false [F a i, F b i, F c i] (g (F a i) (F b i) (F c i))
      ∃ y, exec k s = .next ((s.setStall st y).nanEvents p ⟨1, 1, st, x.pc.toNat⟩ (causesOf (activeRes pr w r))) ∧
        VWrite x y d pr w r
    E (.vfma st d a b c q ft) (fun u v z => (u.mul v).add z) ∧
    E (.vfms st d a b c q ft) (fun u v z => (u.mul v).add z.negate) ∧
    E (.vclamp st d a b c q ft) (fun u v z => (u.max v).min z)

/-- R48, R110, R112: For every running stall, each comparison gives every predicate bit of an active element the result of
its element under R48 for floats and as signed or unsigned integers; that the bits of inactive elements keep the old
predicate is the model's reading (assumption log 12). -/
def Obligations.VectorCompares : Prop :=
  ∀ (s : State) (st p : Nat) (d a b : BitVec 5) (q et : BitVec 3),
    s.canRun st p [vreg a.toNat, vreg b.toNat] → d.toNat < 8 →
    let x := s.stall st
    let w := etWidth et.toNat
    let pr := x.getP q.toNat
    let F (j : BitVec 5) (i : Nat) : FVal := ((fmtOf et.toNat).getD fp32).decode (elem w (x.getV j) i)
    let I (j : BitVec 5) (i : Nat) : Int := toInt w (elem w (x.getV j) i)
    let N (j : BitVec 5) (i : Nat) : Nat := elem w (x.getV j) i
    let C (c : Instr) (r : Nat → Bool) : Prop := Alters s st (exec c s) fun y =>
      ∃ v : BitVec 128, PWrite x y d.toNat v ∧ ∀ j, j < 128 → v.getLsbD j =
        if active pr w (j / (w / 8)) then r (j / (w / 8)) else (x.getP d.toNat).getLsbD j
    (et.toNat ≤ 2 →
      C (.vcmpEq st d a b q et) (fun i => (F a i).eq (F b i)) ∧ C (.vcmpNe st d a b q et) (fun i => !((F a i).eq (F b i))) ∧
      C (.vcmpLt st d a b q et) (fun i => (F a i).lt (F b i)) ∧ C (.vcmpLe st d a b q et) (fun i => (F a i).le (F b i)) ∧
      C (.vcmpIsnan st d a q et) (fun i => (F a i).isNaN) ∧ C (.vcmpIsinf st d a q et) (fun i => (F a i).isInf)) ∧
    (etInt et.toNat = true →
      C (.vcmpEq st d a b q et) (fun i => decide (I a i = I b i)) ∧ C (.vcmpNe st d a b q et) (fun i => decide (I a i ≠ I b i)) ∧
      C (.vcmpLt st d a b q et) (fun i => decide (I a i < I b i)) ∧ C (.vcmpLe st d a b q et) (fun i => decide (I a i ≤ I b i)) ∧
      C (.vcmpLtu st d a b q et) (fun i => decide (N a i < N b i)) ∧ C (.vcmpLeu st d a b q et) (fun i => decide (N a i ≤ N b i)))

/-- R106, R113: VRED and VGET write gd with the reduction or the chosen element and no other register; an integer
reduction of all elements is their wrapped sum, their maximum or their minimum. -/
def Obligations.VectorReductions : Prop :=
  (∀ (s : State) (st p : Nat) (d a b : BitVec 5) (q et : BitVec 3), s.canRun st p [vreg a.toNat, b.toNat] → et.toNat ≤ 6 →
     let x := s.stall st
     let w := etWidth et.toNat
     let E (c : Instr) (o : RedOp) : Prop :=
       let r := redResult o et.toNat (x.getP q.toNat) (x.getV a)
       ∃ y, exec c s = .next ((s.setStall st y).nanEvents p ⟨1, 1, st, x.pc.toNat⟩ [(0, r.cause)]) ∧
         GWrite x y d (BitVec.ofNat 64 r.code) r.flags
     E (.vredRsum st d a q et) .sum ∧ E (.vredRmax st d a q et) .max ∧ E (.vredRmin st d a q et) .min ∧
     Alters s st (exec (.vget st d a b et) s) (fun y =>
       let n := elem w (x.getV a) ((x.getG b).toNat % (1024 / w))
       GWrite x y d (if etInt et.toNat then BitVec.ofInt 64 (toInt w n) else BitVec.ofNat 64 n) 0)) ∧
  (∀ (et : Nat) (v : BitVec 1024), etInt et = true →
     let w := etWidth et
     let l := (List.range (1024 / w)).map (fun i => toInt w (elem w v i))
     let pr := BitVec.allOnes 128
     redResult .sum et pr v = ⟨(l.sum % 2 ^ 64).toNat, 0, 0⟩ ∧
     (∃ m ∈ l, (∀ n ∈ l, n ≤ m) ∧ redResult .max et pr v = ⟨(m % 2 ^ 64).toNat, 0, 0⟩) ∧
     (∃ m ∈ l, (∀ n ∈ l, m ≤ n) ∧ redResult .min et pr v = ⟨(m % 2 ^ 64).toNat, 0, 0⟩))

/-- R115, R116, R123: VCVT writes the converted elements into vd; VCVTMX writes the packed block into vb and the scale
into gd; VRAND writes vd from the counter and moves RNG_CTR by 8; VRANDC leaves the counter; each keeps the other
registers named in the statement and goes on.  That a conversion takes the predicate of an element at its
source's width (assumption log 12) and the ELEMENT of a VCVTMX event (assumption log 53) are the model's readings. -/
def Obligations.VectorConvertsAndRandoms : Prop :=
  ∀ (s : State) (st p : Nat) (d a b : BitVec 5) (q et : BitVec 3) (fn : BitVec 4) (k : BitVec 5),
    s.canRun st p [vreg d.toNat, vreg a.toNat, vreg b.toNat] →
    let x := s.stall st
    (∀ f t, cvtForm et.toNat b.toNat fn.toNat = some (f, t) →
      let es := (List.range (1024 / max f.width t.width)).filterMap (fun i =>
        if active (x.getP q.toNat) f.width i then some (i, (cvtElem f t fn.toNat (x.getV a) i).cause) else none)
      ∃ y, exec (.vcvt st d a b q et fn) s = .next ((s.setStall st y).nanEvents p ⟨1, 2, st, x.pc.toNat⟩ es) ∧
        VLoad x y d (cvtMerge f t fn.toNat (x.getP q.toNat) (x.getV d) (x.getV a)) ∧
        y.g = x.g ∧ y.p = x.p ∧ y.pc = x.pc + 4) ∧
    (k.toNat % 8 < 6 →
      let xs := (List.range 32).map (elem 32 (x.getV a))
      let r := mxBlock (k.toNat % 8) xs
      let m := mxBits (k.toNat % 8)
      let e := if xs.all f32fin then (0, 0) else (xs.findIdx (fun c => !(f32fin c)), 4)
      ∃ y, exec (.vcvtmx st d a b k) s = .next ((s.setStall st y).nanEvents p ⟨1, 2, st, x.pc.toNat⟩ [e]) ∧
        y.getV b = BitVec.ofNat 1024
          (setBits (x.getV b).toNat (k.toNat / 8 * 32 * m) (32 * m) (packNat m r.2.1)) ∧
        (∀ i, y.getG i = if i = 31 then 0 else if i = d then BitVec.ofNat 64 r.1 else x.getG i) ∧
        (∀ j, j ≠ b → y.getV j = x.getV j) ∧ y.p = x.p ∧ y.pc = x.pc + 4 ∧ y.astat = x.astat) ∧
    (fn.toNat ≤ 1 →
      let c := x.rngLo.toNat + 2 ^ 64 * x.rngHi.toNat
      Alters s st (exec (.vrand st d fn) s) (fun y =>
        VLoad x y d (randVec (decide (fn = 1)) x.rngKey.toNat c) ∧ y.pc = x.pc + 4 ∧ y.g = x.g ∧ y.rngKey = x.rngKey ∧
        y.rngLo.toNat + 2 ^ 64 * y.rngHi.toNat = (c + 8) % 2 ^ 128) ∧
      Alters s st (exec (.vrandc st d a fn) s) (fun y =>
        VLoad x y d (randVec (decide (fn = 1)) x.rngKey.toNat ((x.getV a).toNat % 2 ^ 128)) ∧ y.pc = x.pc + 4 ∧ y.g = x.g ∧
        y.rngKey = x.rngKey ∧ y.rngLo = x.rngLo ∧ y.rngHi = x.rngHi))

/-- R99, R111: For every running stall PAND, POR, PXOR and PNOT write pd with the bitwise result and PCNT with the
elements below ga; p0 keeps reading as ones and nothing else of the stall but pc changes. -/
def Obligations.Predicates : Prop :=
  ∀ (s : State) (st p : Nat) (d a b : BitVec 5) (et : BitVec 3), s.canRun st p [a.toNat] →
    d.toNat < 8 → a.toNat < 8 → b.toNat < 8 → et.toNat ≤ 6 →
    let x := s.stall st
    let W (c : Instr) (v : BitVec 128) : Prop := Alters s st (exec c s) fun y => PWrite x y d.toNat v
    W (.pand st d a b) (x.getP a.toNat &&& x.getP b.toNat) ∧ W (.por st d a b) (x.getP a.toNat ||| x.getP b.toNat) ∧
    W (.pxor st d a b) (x.getP a.toNat ^^^ x.getP b.toNat) ∧ W (.pnot st d a) (~~~(x.getP a.toNat)) ∧
    Alters s st (exec (.pcnt st d a et) s) (fun y => ∃ v : BitVec 128, PWrite x y d.toNat v ∧
      ∀ j, j < 128 → v.getLsbD j = decide (j / (etWidth et.toNat / 8) < (x.getG a).toNat))

/-- R104, R106: Each branch goes to pc + 4*OFF exactly when its comparison holds and to pc + 4 otherwise, changing nothing
else; JAL and JALR write gd with pc + 4 and go to their target. That JALR keeps the low 32 bits of the sum is the
model's reading (assumption log 13). -/
def Obligations.BranchesAndJumps : Prop :=
  ∀ (s : State) (st p : Nat) (d a b : BitVec 5) (imm off : BitVec 15) (far : BitVec 20),
    s.canRun st p [a.toNat, b.toNat] →
    let x := s.stall st
    let u := x.getG a
    let v := x.getG b
    let B (c : Instr) (t : Bool) : Prop :=
      exec c s = .next (s.setStall st { x with pc := if t then x.pc + off.signExtend 32 * 4 else x.pc + 4 })
    let J (c : Instr) (tgt : BitVec 32) : Prop := Alters s st (exec c s) fun y => y.pc = tgt ∧ y.v = x.v ∧ y.p = x.p ∧
      y.astat = x.astat ∧ y.mode = x.mode ∧
      ∀ i, y.getG i = if i = 31 then 0 else if i = d then (x.pc + 4).setWidth 64 else x.getG i
    B (.beq st a b off) (u == v) ∧ B (.bne st a b off) (u != v) ∧ B (.blt st a b off) (u.slt v) ∧
    B (.bge st a b off) (!(u.slt v)) ∧ B (.bltu st a b off) (u.ult v) ∧ B (.bgeu st a b off) (!(u.ult v)) ∧
    J (.jal st d far) (x.pc + far.signExtend 32 * 4) ∧
    (∃ tgt : BitVec 32, J (.jalr st d a imm) tgt ∧ tgt.toNat % 4 = 0 ∧
      tgt.toNat / 4 = (u + imm.signExtend 64).toNat % 2 ^ 32 / 4)

/-- R100, R101, R102, R105, R131, R388: For every running stall SRD of each special register writes gd with its value,
CYCLE with a WRAP that shows as soon as the count has wrapped; SWR clears the ASTAT bits and CYCLE.WRAP written with 1
and writes the RNG registers; SWR of a read-only or reserved index and SRD of a reserved one raise E_ILLEGAL. That WRAP
shows before COUNTER_WRAP comes is the model's reading (assumption log 29). -/
def Obligations.SpecialRegisters : Prop :=
  ∀ (s : State) (st p : Nat) (d a : BitVec 5) (idx : BitVec 8), s.canRun st p [a.toNat] →
    let x := s.stall st
    let u := x.getG a
    let n := idx.toNat
    let Rd (k : Nat) (v : BitVec 64) : Prop := n = k → Alters s st (exec (.srd st d idx) s) fun y => GWrite x y d v 0
    let Wr (k : Nat) (y : Stall) : Prop := n = k → exec (.swr st a idx) s = .next (s.setStall st { y with pc := x.pc + 4 })
    Rd 0 (x.astat.setWidth 64) ∧ Rd 1 (BitVec.ofNat 64 (st + p * 2 ^ 16)) ∧ Rd 3 (BitVec.ofNat 64 (s.stepOf p)) ∧
    Rd 4 (BitVec.ofNat 64 s.time) ∧ Rd 8 x.rngKey ∧ Rd 9 x.rngLo ∧ Rd 10 x.rngHi ∧
    let due := decide (x.wraps < s.cycles p st / 2 ^ 48)
    Rd 2 (BitVec.ofNat 64 (s.cycles p st % 2 ^ 48 + if x.wrap || due then 2 ^ 63 else 0)) ∧ Rd 5 (BitVec.ofNat 64 (x.tags st)) ∧
    Wr 0 { x with astat := x.astat &&& ~~~(u.setWidth 4) } ∧
    Wr 2 { x with wrap := (x.wrap || due) && !u.msb, wraps := max x.wraps (s.cycles p st / 2 ^ 48) } ∧
    Wr 8 { x with rngKey := u } ∧ Wr 9 { x with rngLo := u } ∧ Wr 10 { x with rngHi := u } ∧
    (n ∉ [0, 1, 2, 3, 4, 5, 8, 9, 10] → exec (.srd st d idx) s = .next (s.stallFault p st 0x0401 x.pc.toNat 0)) ∧
    (n ∉ [0, 2, 8, 9, 10] → exec (.swr st a idx) s = .next (s.stallFault p st 0x0401 x.pc.toNat 0))

/-- R105, R131, R132: A running stall that meets a word no instruction has, or whose pc lies outside local memory, becomes
faulted with its registers and pc kept; memory and every other stall are unchanged, STALL_FAULT_COUNT rises by one
saturating, and STALL_FAULT takes the record only when it holds none. -/
def Obligations.StallFaults : Prop :=
  ∀ (s : State) (st p : Nat) (w : BitVec 32), st < 1024 → s.owner (st / 32) = some p → s.partRuns p = true →
    (s.stall st).mode = .running →
    let x := s.stall st
    let F (o : Out1) (code : Nat) : Prop := Answers o fun t =>
      t.stall st = { x with mode := .faulted } ∧ t.mem = s.mem ∧ (∀ u, u ≠ st → t.stall u = s.stall u) ∧
      t.obj (kStallFaultCount p) = min 0xFFFFFFFF (s.obj (kStallFaultCount p) + 1) ∧
      (bit (s.obj (kStallFault p)) 31 = false →
        t.obj (kStallFault p) = stallFaultWord code st x.pc.toNat 0 (s.stepOf p) s.time) ∧
      (bit (s.obj (kStallFault p)) 31 = true → t.obj (kStallFault p) = s.obj (kStallFault p))
    (x.pc.toNat < 2 ^ 18 → decodeStallWord st w = none → F (exec (.invalidEncoding st w) s) 0x0401) ∧
    (2 ^ 18 ≤ x.pc.toNat → F (exec (.fetchOutsideLocalMemory st) s) 0x0402)

/-- R106, R125: With no access outstanding, an aligned load within local memory writes gd with the bytes sign- or zero-
extended, or vd with 128 bytes, and goes on. -/
def Obligations.LocalLoads : Prop :=
  ∀ (s : State) (st p : Nat) (d a : BitVec 5) (imm : BitVec 15), s.canRun st p [a.toNat] → (s.stall st).acc = [] →
    (s.stall st).waits = [] →
    let x := s.stall st
    let ad := (x.getG a + imm.signExtend 64).toNat
    let m (n : Nat) : Nat := ofBytes (s.getBytes (stallKey st ad) n)
    let L (c : Instr) (n : Nat) (v : BitVec 64) : Prop := ad < 2 ^ 18 → ad % n = 0 →
      Alters s st (exec c s) fun y => GWrite x y d v 0
    L (.ldB st d a imm) 1 (BitVec.ofInt 64 (toInt 8 (m 1))) ∧ L (.ldBu st d a imm) 1 (BitVec.ofNat 64 (m 1)) ∧
    L (.ldH st d a imm) 2 (BitVec.ofInt 64 (toInt 16 (m 2))) ∧ L (.ldHu st d a imm) 2 (BitVec.ofNat 64 (m 2)) ∧
    L (.ldW st d a imm) 4 (BitVec.ofInt 64 (toInt 32 (m 4))) ∧ L (.ldWu st d a imm) 4 (BitVec.ofNat 64 (m 4)) ∧
    L (.ldD st d a imm) 8 (BitVec.ofNat 64 (m 8)) ∧
    (ad + 128 ≤ 2 ^ 18 → ad % 32 = 0 → Alters s st (exec (.vld st d a imm) s) fun y =>
      VLoad x y d (BitVec.ofNat 1024 (m 128)) ∧ y.g = x.g ∧ y.p = x.p ∧ y.pc = x.pc + 4 ∧ y.astat = x.astat)

/-- R106, R125: With no access outstanding and no poison under it, an aligned store within local memory writes the form's
width in bytes at the computed address (for VSTP the bytes of the predicate), every other byte of memory reads as
before, and the stall changes in pc alone. -/
def Obligations.LocalStores : Prop :=
  ∀ (s : State) (st p : Nat) (d a b : BitVec 5) (imm : BitVec 15) (q : BitVec 3),
    s.canRun st p [d.toNat, vreg d.toNat, a.toNat, b.toNat] → (s.stall st).acc = [] → (s.stall st).waits = [] →
    let x := s.stall st
    let ad := (x.getG a + imm.signExtend 64).toNat
    let av := (x.getG a + x.getG b).toNat
    let S (c : Instr) (at' n al : Nat) (v : Nat) (mask : Nat → Bool) : Prop :=
      at' + n ≤ 2 ^ 18 → at' % al = 0 → (∀ j, j < n → s.poisoned (stallKey st at' + j) = false) →
      Answers (exec c s) fun t =>
        (∀ k, t.byte k = if stallKey st at' ≤ k ∧ k < stallKey st at' + n ∧ mask (k - stallKey st at')
          then BitVec.ofNat 8 (v / 256 ^ (k - stallKey st at')) else s.byte k) ∧
        t.stall st = { x with pc := x.pc + 4 } ∧ (∀ u, u ≠ st → t.stall u = s.stall u) ∧ t.objs = s.objs ∧ t.sheds = s.sheds
    S (.stB st d a imm) ad 1 1 (x.getG d).toNat (fun _ => true) ∧ S (.stH st d a imm) ad 2 2 (x.getG d).toNat (fun _ => true) ∧
    S (.stW st d a imm) ad 4 4 (x.getG d).toNat (fun _ => true) ∧ S (.stD st d a imm) ad 8 8 (x.getG d).toNat (fun _ => true) ∧
    S (.vst st d a imm) ad 128 32 (x.getV d).toNat (fun _ => true) ∧
    S (.vstp st d a b q) av 128 32 (x.getV d).toNat (fun i => (x.getP q.toNat).getLsbD i)

/-- R125, R131: For every running stall, a load, store or atomic with any byte unmapped or outside the partition raises the
stall fault E_ACCESS, and one that is mapped and misaligned raises E_ALIGN, each with its data address. -/
def Obligations.AccessChecks : Prop :=
  ∀ (s : State) (st p : Nat) (d a b c : BitVec 5) (imm : BitVec 15) (q : BitVec 3) (fn : BitVec 5),
    s.canRun st p [d.toNat, vreg d.toNat, a.toNat, b.toNat, c.toNat] →
    let x := s.stall st
    let At (i : Instr) (ad n al : Nat) : Prop :=
      (s.mapped p (some st) ad n = false → exec i s = .next (s.stallFault p st 0x0404 x.pc.toNat ad)) ∧
      (s.mapped p (some st) ad n = true → ad % al ≠ 0 → exec i s = .next (s.stallFault p st 0x0403 x.pc.toNat ad))
    let F (i : Instr) (n al : Nat) : Prop := At i (x.getG a + imm.signExtend 64).toNat n al
    F (.ldB st d a imm) 1 1 ∧ F (.ldBu st d a imm) 1 1 ∧ F (.stB st d a imm) 1 1 ∧ F (.ldH st d a imm) 2 2 ∧
    F (.ldW st d a imm) 4 4 ∧ F (.ldD st d a imm) 8 8 ∧ F (.ldHu st d a imm) 2 2 ∧
    F (.ldWu st d a imm) 4 4 ∧ F (.vld st d a imm) 128 32 ∧ F (.stH st d a imm) 2 2 ∧ F (.stW st d a imm) 4 4 ∧
    F (.stD st d a imm) 8 8 ∧ F (.vst st d a imm) 128 32 ∧
    At (.vstp st d a b q) (x.getG a + x.getG b).toNat 128 32 ∧ At (.acas st d a b c) (x.getG a).toNat 8 8 ∧
    ∀ n, aaddSize fn.toNat = some n → At (.aadd st a b fn) (x.getG a).toNat n n

/-- R109, R120, R126: A load or store of any form outside the stall's own memory, and an AADD or ACAS anywhere, that passes
its checks is appended to the outstanding accesses with its operands and does not hold the stall; outside the stall's
own memory it takes one of the 128 tags, and waits while all are held.  A VSTP under a predicate of zeros stores nothing
and is left out. -/
def Obligations.RemoteAccessesAndAtomics : Prop :=
  (∀ (s : State) (st p : Nat) (d a b : BitVec 5) (imm : BitVec 15) (q : BitVec 3),
     s.canRun st p [d.toNat, vreg d.toNat, a.toNat, b.toNat] →
     let x := s.stall st
     let At (c : Instr) (ad n al : Nat) (kind : AccKind) (dst : Option Nat) : Prop :=
       2 ^ 18 ≤ ad → s.mapped p (some st) ad n = true → ad % al = 0 →
       (∀ i, i < n → s.phys p (some st) (ad + i) ≠ some (stallKey st ((ad + i) % 2 ^ 18))) →
       (x.tags st < 128 → Alters s st (exec c s) fun y =>
         y.acc.length = x.acc.length + 1 ∧ y.tags st = x.tags st + 1 ∧ y.pc = x.pc + 4 ∧ y.g = x.g ∧ y.v = x.v ∧
         ∃ e, y.acc.getLast? = some e ∧ e.kind = kind ∧ e.dst = dst ∧ e.addr.toNat = ad ∧ e.size = n ∧ e.seq = x.seq) ∧
       (128 ≤ x.tags st → exec c s = .next s)
     let I (c : Instr) (n al : Nat) (kind : AccKind) (dst : Option Nat) : Prop :=
       At c (x.getG a + imm.signExtend 64).toNat n al kind dst
     let dg : Option Nat := if d = 31 then none else some d.toNat
     I (.ldB st d a imm) 1 1 .load dg ∧ I (.ldH st d a imm) 2 2 .load dg ∧ I (.ldW st d a imm) 4 4 .load dg ∧
     I (.ldD st d a imm) 8 8 .load dg ∧ I (.ldBu st d a imm) 1 1 .load dg ∧ I (.ldHu st d a imm) 2 2 .load dg ∧
     I (.ldWu st d a imm) 4 4 .load dg ∧ I (.vld st d a imm) 128 32 .load (some (vreg d.toNat)) ∧
     I (.stB st d a imm) 1 1 .store none ∧ I (.stH st d a imm) 2 2 .store none ∧ I (.stW st d a imm) 4 4 .store none ∧
     I (.stD st d a imm) 8 8 .store none ∧ I (.vst st d a imm) 128 32 .store none ∧
     (x.getP q.toNat ≠ 0 → At (.vstp st d a b q) (x.getG a + x.getG b).toNat 128 32 .store none)) ∧
  (∀ (s : State) (st p : Nat) (d a b c : BitVec 5) (fn : BitVec 5), s.canRun st p [a.toNat, b.toNat, c.toNat] →
     let x := s.stall st
     let ad := (x.getG a).toNat
     let own := s.phys p (some st) ad = some (stallKey st (ad % 2 ^ 18))
     let tagged (y : Stall) : Prop := (own → y.tags st = x.tags st) ∧ (¬ own → y.tags st = x.tags st + 1)
     (∀ n, aaddSize fn.toNat = some n → s.checkAccess p st ad n n = 0 →
       (own ∨ x.tags st < 128 → Alters s st (exec (.aadd st a b fn) s) fun y => y.pc = x.pc + 4 ∧ y.g = x.g ∧ y.v = x.v ∧
         tagged y ∧ ∃ e, y.acc = x.acc ++ [e] ∧ e.kind = .aadd ∧ e.addr.toNat = ad ∧ e.size = n ∧ e.fmt = fn.toNat ∧
           e.dst = none ∧ e.value.toNat = (x.getG b).toNat % 2 ^ (8 * n)) ∧
       (¬ own → 128 ≤ x.tags st → exec (.aadd st a b fn) s = .next s)) ∧
     (s.checkAccess p st ad 8 8 = 0 →
       (own ∨ x.tags st < 128 → Alters s st (exec (.acas st d a b c) s) fun y => y.pc = x.pc + 4 ∧ y.g = x.g ∧ y.v = x.v ∧
         tagged y ∧ ∃ e, y.acc.getLast? = some e ∧ y.acc.length = x.acc.length + 1 ∧ e.kind = .acas ∧ e.addr.toNat = ad ∧
           e.dst = (if d = 31 then none else some d.toNat) ∧ e.value.toNat = (x.getG b).toNat ∧ e.expect = x.getG c) ∧
       (¬ own → 128 ≤ x.tags st → exec (.acas st d a b c) s = .next s)))

/-- R109, R212: An integer AADD or an ACAS that may be performed outside HBM changes exactly its operand's bytes, by the
wrapped sum (R212) or by the new value when the old equals the expected, and ACAS returns the old value to the access. -/
def Obligations.AtomicAtHome : Prop :=
  ∀ (s : State) (st k : Nat) (a : Access) (q : APart), st < 1024 → (s.stall st).acc[k]? = some a →
    a.parts[0]? = some q → q.open = true → (s.stall st).mayPerform a q = true → isHbm q.phys = false →
    s.poisoned q.phys = false →
    let old := ofBytes (s.getBytes q.phys q.len)
    (a.kind = .aadd → a.fmt = 3 ∧ q.len = 4 ∨ a.fmt = 4 ∧ q.len = 8 → Answers (exec (.atomicAtHome st k) s) fun t =>
      (∀ j, t.byte j = if q.phys ≤ j ∧ j < q.phys + q.len
        then BitVec.ofNat 8 ((old + a.value.toNat) / 256 ^ (j - q.phys)) else s.byte j) ∧
      (t.stall st).acc[k]? = some (a.finish 0 []) ∧ (t.stall st).g = (s.stall st).g) ∧
    (a.kind = .acas → q.len = 8 → Answers (exec (.atomicAtHome st k) s) fun t =>
      (∀ j, t.byte j = if q.phys ≤ j ∧ j < q.phys + 8 ∧ old = a.expect.toNat
        then BitVec.ofNat 8 (a.value.toNat / 256 ^ (j - q.phys)) else s.byte j) ∧
      (t.stall st).acc[k]? = some (a.finish 0 (s.getBytes q.phys 8)))

/-- R120, R126, R131, R132: An outstanding access all of whose parts are performed leaves the list of outstanding accesses,
writes its destination register with the extended value, and leaves pc, mode and every register of a store untouched; a
load or ACAS that met poison stops the stall with E_POISON, its record and its count, with pc at it and the registers as
they were before it, and later accesses are dropped. That the registers later instructions wrote are taken back is the
model's reading of R132 (assumption log 52). -/
def Obligations.AccessCompletes : Prop :=
  ∀ (s : State) (st k : Nat) (a : Access), st < 1024 → (s.stall st).acc[k]? = some a →
    (∀ q ∈ a.parts, q.open = false) →
    let x := s.stall st
    (a.poison = false → Alters s st (exec (.loadValueReturn st k) s) fun y =>
      y.acc.map (fun b => { b with ctx := Ctx.empty }) = (x.acc.eraseIdx k).map (fun b => { b with ctx := Ctx.empty }) ∧
      y.pc = x.pc ∧ y.mode = x.mode ∧ y.p = x.p ∧ y.astat = x.astat ∧
      (∀ r : BitVec 5, a.dst = some r.toNat → y.getG r =
        if r = 31 then 0 else if a.signed then BitVec.ofInt 64 (toInt (8 * a.size) (ofBytes a.bytes))
        else BitVec.ofNat 64 (ofBytes a.bytes % 2 ^ (8 * a.size))) ∧
      (∀ r : BitVec 5, a.dst = some (32 + r.toNat) → y.getV r = BitVec.ofNat 1024 (ofBytes a.bytes)) ∧
      (a.dst = none → y.g = x.g ∧ y.v = x.v)) ∧
    (a.poison = true → a.isLoad = true → x.mode ≠ .faulted → Answers (exec (.loadValueReturn st k) s) fun t =>
      let p := s.partOf st
      (let y := t.stall st
       y.mode = .faulted ∧ y.pc = a.pc ∧ y.g = a.ctx.g ∧ y.v = a.ctx.v ∧ y.p = a.ctx.p ∧ y.astat = a.ctx.astat ∧
       y.acc = x.acc.filter (fun b => decide (b.seq < a.seq))) ∧
      t.mem = s.mem ∧ (∀ u, u ≠ st → t.stall u = s.stall u) ∧
      t.obj (kStallFaultCount p) = sat32 (s.obj (kStallFaultCount p)) 1 ∧
      (bit (s.obj (kStallFault p)) 31 = false →
        t.obj (kStallFault p) = stallFaultWord 0x0405 st a.pc.toNat a.addr.toNat (s.stepOf p) s.time))

/-- R109, R117, R118, R121, R126, R129: FENCE goes on when nothing is outstanding that its mask orders, and waits
otherwise; GET_WORK retires the event and waits for the groom once nothing is outstanding, and waits before; EVDONE goes
on at once, and the event retires once the earlier accesses are done; a control operation enters the control issue queue
with its operands, and waits while 16 entries are taken; a UCMD that needs a tag takes one or waits for one. That the
release of GET_WORK and EVDONE waits for earlier loads too, which may still fault, is the model's reading (assumption log
52), and which UCMDs to a pen take a tag is its choice (assumption log 51). -/
def Obligations.FencesAndControl : Prop :=
  (∀ (s : State) (st p : Nat) (d c : BitVec 5) (mask : BitVec 4), s.canRun st p [] →
     let x := s.stall st
     let ordered (a : Access) : Prop := (mask.toNat % 4 ≠ 0 ∧ a.isLoad = true) ∨ (4 ≤ mask.toNat ∧ a.isStore = true)
     ((∀ a ∈ x.acc, ¬ ordered a) → exec (.fence st mask) s = .next (s.setStall st { x with pc := x.pc + 4 })) ∧
     ((∃ a ∈ x.acc, ordered a) → exec (.fence st mask) s = .next s) ∧
     (x.acc = [] → Answers (exec (.getWork st d c) s) fun t =>
       (t.stall st).mode = .getWork d.toNat c.toNat s.ctr ∧ (t.stall st).cur = none ∧ (t.stall st).pc = x.pc + 4 ∧
       (t.stall st).g = x.g ∧ t.mem = s.mem) ∧
     (x.acc ≠ [] → exec (.getWork st d c) s = .next s) ∧
     Alters s st (exec (.evdone st) s) (fun y => y.pc = x.pc + 4 ∧ y.g = x.g ∧ y.v = x.v ∧ y.mode = .running ∧
       y.acc = x.acc ∧ (x.acc = [] → y.cur = none) ∧
       ((∃ a ∈ x.acc, a.seq < x.seq) → x.retire = none → y.cur = x.cur) ∧ (x.cur = none → y = { x with pc := x.pc + 4 }))) ∧
  (∀ (s : State) (st p : Nat) (d a b c fn : BitVec 5),
     s.canRun st p [a.toNat, b.toNat, vreg b.toNat, vreg c.toNat] →
     let x := s.stall st
     let n := x.ctl.length + s.inFlight st
     let v256 (j : BitVec 5) : Nat := (x.getV j).toNat % 2 ^ 256
     let Q (k : Instr) (op : MOp) (target a2 : BitVec 64) (data m : Nat) : Prop :=
       (16 ≤ n → exec k s = .next s) ∧
       (n < 16 → Alters s st (exec k s) fun y => y.pc = x.pc + 4 ∧ y.g = x.g ∧ y.v = x.v ∧ ∃ e, y.ctl = x.ctl ++ [e] ∧
         e.seq = x.seq ∧ e.msg.op = op ∧ e.msg.target = target ∧ e.msg.a2 = a2 ∧ e.msg.data.toNat = data ∧ e.msg.n = m ∧
         e.msg.stall = st ∧ e.msg.part = p ∧ e.msg.pc = x.pc)
     let ga := x.getG a
     let gb := x.getG b
     Q (.evpush st a b) .evpush ga 0 (v256 b) 0 ∧ Q (.send st a b) .send ga 0 (v256 b) 0 ∧ Q (.hpush st a b) .hpush ga gb 0 0 ∧
     Q (.fset st a) .set ga 0 0 0 ∧ Q (.fclr st a) .clear ga 0 0 0 ∧ Q (.ftest st d a) .test ga 0 0 0 ∧
     Q (.wcancel st d a) .cancel 0 ga 0 0 ∧ (fn.toNat < 2 → Q (.watch st d a b c fn) .watch ga gb (v256 c) fn.toNat) ∧
     (0 < fn.toNat ∧ fn.toNat < 6 → Q (.mxInstruction st a b fn) .mx ga 0 (v256 b / 256 * 256 + fn.toNat) 1) ∧
     (fn.toNat < 4 →
       let tag := b2n (s.takesTag ga.toNat)
       (16 ≤ n ∨ 128 < x.tags st + tag → exec (.ucmd st a b fn) s = .next s) ∧
       (n < 16 → x.tags st + tag ≤ 128 → Answers (exec (.ucmd st a b fn) s) fun t =>
         let y := t.stall st
         y.pc = x.pc + 4 ∧ y.g = x.g ∧ y.v = x.v ∧ y.acc = x.acc ∧ y.tags st = x.tags st + tag ∧ t.mem = s.mem ∧
         (∀ u, u ≠ st → t.stall u = s.stall u) ∧ ∃ e, y.ctl = x.ctl ++ [e] ∧ e.seq = x.seq ∧ e.msg.op = .ucmd ∧
         e.msg.target = ga ∧ e.msg.n = fn.toNat + 1 ∧ e.msg.data.toNat = (x.getV b).toNat % 2 ^ (256 * (fn.toNat + 1)))))

/-- R121, R149: The head of a stall's control issue queue waits while an earlier access is outstanding; then a flag
operation or command with a local plain target, and every CANCEL, goes to the mesh, and an EVPUSH to a plain enabled
queue with room enters that queue. -/
def Obligations.ControlIssue : Prop :=
  ∀ (s : State) (st : Nat) (c : CtlOp) (rest : List CtlOp), st < 1024 → (s.stall st).ctl = c :: rest →
    let x := s.stall st
    let m := c.msg
    ((∃ a ∈ x.acc, a.seq < c.seq) → exec (.controlIssue st) s = .next s) ∧
    ((∀ a ∈ x.acc, c.seq ≤ a.seq) → s.ctlClear st = true →
      (m.op = .cancel ∨ ((∃ k i, s.resolve m.part m.target.toNat m.op.fits = .plain k i) ∧
          (m.op ∈ [MOp.set, .clear, .test, .mx, .ucmd] ∨
           (m.op = .watch ∧ s.resolve m.part m.a2.toNat [3] ≠ .reject))) →
        exec (.controlIssue st) s =
          .next { s with stalls := (s.setStall st { x with ctl := rest }).stalls, mesh := s.mesh ++ [m] }) ∧
      (∀ k i, m.op = .evpush → s.resolve m.part m.target.toNat [3] = .plain k i →
        let q := (s.shed (i / 1024)).queue (i % 1024)
        let ev := m.data.setWidth 256
        qEnable q = true → qJoined q = false → (s.shed (i / 1024)).isPartner (i % 1024) = false → evReserved ev = 0 →
        evDelay ev = 0 → s.dueTo (i / 1024) (.queue (i % 1024)) = false → q.items.length < qDepth q →
        Answers (exec (.controlIssue st) s) fun t => (t.stall st).ctl = rest ∧ t.mesh = s.mesh ∧
          ((t.shed (i / 1024)).queue (i % 1024)).items = q.items ++ [eventOf q kindEvpush ev s.ctr]))

/-- R109, R135, R138, R139: SET and CLEAR change the addressed flag and no other; each armed watch of that flag for the
value it is left at fires: it is marked fired, keeps its slot and its event is pushed to its queue; every other watch
stays as it is. TEST writes the flag's value to the issuing stall's register, and changes no other stall and no shed. -/
def Obligations.FlagOperations : Prop :=
  (∀ (s : State) (k : Nat) (m : Mesh), s.mesh[k]? = some m → m.kind = 2 → s.leafTurn k m = true →
    (m.op = .set → Answers (exec (.flagSet k) s) fun t => ∀ f, t.flag f = if f = m.idx then true else s.flag f) ∧
    (m.op = .clear → Answers (exec (.flagClear k) s) fun t => ∀ f, t.flag f = if f = m.idx then false else s.flag f) ∧
    (m.op = .test → ∀ (u q : Nat) (w : Wait) (r : BitVec 5), m.reply = .stall u q →
      (s.stall u).waits.find? (fun w => decide (w.seq = q)) = some w → w.dst = some r.toNat → r ≠ 31 →
      Answers (exec (.flagTest k) s) fun t => (t.stall u).getG r = (if s.flag m.idx then 1 else 0) ∧
        t.sheds = s.sheds ∧ t.mesh = s.mesh.eraseIdx k ∧ ∀ v, v ≠ u → t.stall v = s.stall v)) ∧
  (∀ (s : State) (k : Nat) (m : Mesh) (v : Bool), s.mesh[k]? = some m → m.kind = 2 → s.leafTurn k m = true →
    m.op = (if v then .set else .clear) → (m.reply = .none ∨ ∃ u q, m.reply = .stall u q) →
    let sh := m.idx / 4096
    let ws := (s.shed sh).watches
    (∀ w ∈ ws, ∀ u ∈ ws, u.id = w.id → u = w) →
    Answers (exec (if v then .flagSet k else .flagClear k) s) fun t => ∀ w ∈ ws,
      (w.fired = false → w.value = v → w.kind = .plain (m.idx % 4096) →
        ∀ kd i, s.resolve (w.part % 32) w.queue.toNat [3] = .plain kd i →
          { w with fired := true } ∈ (t.shed sh).watches ∧
          ∃ u ∈ t.pushes, u.queue = i ∧ u.kind = 1 ∧ u.ev = w.event ∧ u.reply = .slot sh w.id) ∧
      (w.fired = true ∨ w.value ≠ v ∨ (∃ f, w.kind = .plain f ∧ f ≠ m.idx % 4096) → w ∈ (t.shed sh).watches))

/-- R138, R139, R140, R141: A WATCH of a stall takes a slot at the flag's home unless all 2,048 are held, fires at once
where the flag has the value, and returns its identifier, which is not 0 and was not given before; without a slot it
returns 0 and is reported. CANCEL of an armed plain watch of the issuing partition that has not fired frees its slot,
wherever it is, and returns 1; a CANCEL whose identifier no such watch has returns 0 and changes no shed. -/
def Obligations.Watches : Prop :=
  (∀ (s : State) (k u q : Nat) (m : Mesh) (z : Wait) (r : BitVec 5), s.mesh[k]? = some m → m.kind = 2 →
     s.leafTurn k m = true → m.op = .watch → m.dev = none →
     (m.reply = .none ∨ m.reply = .stall u q ∧ (s.stall u).waits.find? (fun w => decide (w.seq = q)) = some z ∧
       z.dst = some r.toNat ∧ r ≠ 31) →
     let sh := m.idx / 4096
     let v := decide (m.n % 2 = 1)
     let gave (t : State) (w : Watch) : Prop :=
       (s.wids.length < 2 ^ 64 - 1 → w.wid ≠ 0 ∧ w.wid.toNat ∉ s.wids ∧ t.wids = w.wid.toNat :: s.wids) ∧
       (m.reply = .stall u q → (t.stall u).getG r = w.wid)
     ((s.shed sh).watches.length < 2048 → s.flag m.idx ≠ v → Answers (exec (.watchArm k) s) fun t =>
       ∃ w, (t.shed sh).watches = (s.shed sh).watches ++ [w] ∧ w.fired = false ∧ w.value = v ∧ w.queue = m.a2 ∧
         w.event = m.data.setWidth 256 ∧ w.kind = .plain (m.idx % 4096) ∧ w.part = m.part ∧ gave t w ∧
         t.pushes = s.pushes ∧ ∀ f, t.flag f = s.flag f) ∧
     ((s.shed sh).watches.length < 2048 → (∀ w ∈ (s.shed sh).watches, w.id ≠ s.ctr) → s.flag m.idx = v →
       ∀ kd i, s.resolve (m.part % 32) m.a2.toNat [3] = .plain kd i →
       Answers (exec (.watchArm k) s) fun t =>
         (∃ w, (t.shed sh).watches = (s.shed sh).watches ++ [w] ∧ w.fired = true ∧ gave t w) ∧
         ∃ e, t.pushes = s.pushes ++ [e] ∧ e.queue = i ∧ e.kind = 1 ∧ e.ev = m.data.setWidth 256) ∧
     (2048 ≤ (s.shed sh).watches.length → Answers (exec (.watchArm k) s) fun t => t.pushes = s.pushes ∧
       (t.shed sh).watches = (s.shed sh).watches ∧ (t.log (m.part + 1)).next = (s.log (m.part + 1)).next + 1 ∧
       (m.reply = .stall u q → (t.stall u).getG r = 0))) ∧
  (∀ (s : State) (k u q : Nat) (m : Mesh) (w : Wait) (r : BitVec 5), s.mesh[k]? = some m → m.op = .cancel →
     s.leafTurn k m = true → m.dev = none → m.reply = .stall u q →
     (s.stall u).waits.find? (fun w => decide (w.seq = q)) = some w → w.dst = some r.toNat → r ≠ 31 →
     (∀ sh x f, sh < 32 → (sh, x) ∈ s.allWatches → x.kind = .plain f → x.fired = false → x.wid = m.a2 → m.a2 ≠ 0 →
       x.part = m.part → (∀ e ∈ s.allWatches, e.2.wid = m.a2 ∨ e.2.id = x.id → e = (sh, x)) →
       (∀ e ∈ s.allWatches, ∀ y, e.2.kind.up = some y → y.dev = none → y.id ≠ x.id) →
       Answers (exec (.watchCancel k) s) fun t => (t.stall u).getG r = 1 ∧
         (t.shed sh).watches = (s.shed sh).watches.filter (fun y => decide (y.id ≠ x.id)) ∧
         ∀ j, j ≠ sh → t.shed j = s.shed j) ∧
     ((m.a2 = 0 ∨ ∀ e ∈ s.allWatches, e.2.wid = m.a2 → e.2.part = m.part → e.2.fired = true) →
       (∀ h ∈ s.fabric.homes, h.1 = m.part → h.2.1 ≠ m.a2.toNat) →
       Answers (exec (.watchCancel k) s) fun t => t.sheds = s.sheds ∧ (t.stall u).getG r = 0))

/-- R29, R30: An operation of a stall that fits a pen below depth 8, whose members are plain units of this module, becomes
one operation for each member, in list order, under one count of what is outstanding; at depth 8 it fails with
E_PEN_DEPTH, and where a leaf has another KIND with E_PEN_KIND. -/
def Obligations.PenOperations : Prop :=
  ∀ (s : State) (k : Nat) (m : Mesh), s.mesh[k]? = some m → m.toPen = true → s.leafTurn k m = true →
    let p := (s.owner (m.idx / 512)).getD 0
    let ms := s.penMembers m.idx
    let s' := { s with mesh := s.mesh.eraseIdx k }
    let count : PenOp := { id := s.ctr, left := ms.length, acc := true, wid := 0, isWatch := false, reply := m.reply }
    (m.depth < 8 → s.penFits m.idx m.op = true →
      (m.op ∈ [MOp.set, .clear, .test, .mx, .ucmd] →
        (∀ a ∈ ms, uaLocal a.toNat = true ∧ ∃ kd i, s.resolveHere p a.toNat m.op.fits = .plain kd i) →
        Answers (exec (.penOperation k) s) fun t =>
          t.mesh = s'.mesh ++ ms.map (fun a => { m with target := a, reply := .agg s.ctr }) ∧
          t.penOps = s.penOps ++ [count] ∧ t.sheds = s.sheds) ∧
      (m.op = .evpush →
        (∀ a ∈ ms, uaLocal a.toNat = true ∧ s.resolveHere p a.toNat [3] = .plain 3 (uaIndex a.toNat)) →
        Answers (exec (.penOperation k) s) fun t => t.mesh = s'.mesh ∧ t.penOps = s.penOps ++ [count] ∧ t.sheds = s.sheds ∧
          t.pushes = s.pushes ++ ms.map (fun a =>
            { queue := uaIndex a.toNat, kind := BitVec.ofNat 4 m.n, ev := m.data.setWidth 256, stall := m.stall,
              part := m.part % 32, reply := .agg s.ctr, dev := m.dev }))) ∧
    (8 ≤ m.depth → exec (.penOperation k) s = .next (s'.penFail m 0x0504)) ∧
    (m.depth < 8 → s.penFits m.idx m.op = false → exec (.penOperation k) s = .next (s'.penFail m 0x0505))

/-- R119, R143, R149, R155: A report lowers the count of its top watch and the last one fires it; a held push enters its
queue or mailbox in order when there is room and waits when there is none, setting QFULL of a full queue, or while a
due entry of the delay list has yet to enter the same queue; an entry of the delay list for a queue moves there when it
is due, when that queue has room and the due entries before it cannot move, and one that is not due stays. That a push
waits for a due entry, and that a full mailbox sets no QFULL, are the model's readings (assumption log 51). -/
def Obligations.ReportsAndPushes : Prop :=
  (∀ (s : State) (k sh i n : Nat) (m : Mesh) (w : Watch), s.mesh[k]? = some m → m.op = .report → s.leafTurn k m = true →
     s.watchById m.a2.toNat = some (sh, w) → w.kind = .top i n → w.fired = false →
     let s' := { s with mesh := s.mesh.eraseIdx k }
     (n ≤ 1 → exec (.penSubwatchReport k) s = .next (s'.fire sh w)) ∧
     (1 < n → Answers (exec (.penSubwatchReport k) s) fun t => t.pushes = s.pushes ∧ t.mesh = s'.mesh ∧
       (t.shed sh).watches = (s.shed sh).watches.map (fun u => if u.id = w.id then { u with kind := .top i (n - 1) } else u))) ∧
  (∀ (s : State) (k sh : Nat),
     (∀ u : Push, s.pushes[k]? = some u → u.reply = .none → (∀ v ∈ s.pushes.take k, v.queue ≠ u.queue) →
       evReserved u.ev = 0 → evDelay u.ev = 0 →
       (u.kind.toNat ≤ 1 →
         let q := (s.shed (u.queue / 1024)).queue (u.queue % 1024)
         qEnable q = true → qJoined q = false → (s.shed (u.queue / 1024)).isPartner (u.queue % 1024) = false →
         (s.dueTo (u.queue / 1024) (.queue (u.queue % 1024)) = true → exec (.eventPush k) s = .next s) ∧
         (s.dueTo (u.queue / 1024) (.queue (u.queue % 1024)) = false →
         (q.items.length < qDepth q → Answers (exec (.eventPush k) s) fun t => t.pushes = s.pushes.eraseIdx k ∧
           ((t.shed (u.queue / 1024)).queue (u.queue % 1024)).items = q.items ++ [eventOf q u.kind.toNat u.ev s.ctr]) ∧
         (qDepth q ≤ q.items.length → Answers (exec (.eventPush k) s) fun t => t.pushes = s.pushes ∧
           ((t.shed (u.queue / 1024)).queue (u.queue % 1024)).items = q.items ∧ (t.shed (u.queue / 1024)).qfull = true))) ∧
       (u.kind = 3 → s.dueTo (u.queue / 32) (.mail u.queue) = false →
         ((s.stall u.queue).mail.length < 16 → Answers (exec (.mailboxDelivery k) s) fun t =>
           t.pushes = s.pushes.eraseIdx k ∧
           (t.stall u.queue).mail = (s.stall u.queue).mail ++ [eventOf Queue.reset kindMail u.ev s.ctr]) ∧
         (16 ≤ (s.stall u.queue).mail.length → Answers (exec (.mailboxDelivery k) s) fun t =>
           t.pushes = s.pushes ∧ t.stalls = s.stalls))) ∧
     (∀ (d : Delayed) (q : Nat), sh < 32 → (s.shed sh).delay[k]? = some d → d.target = .queue q → isDue s d = true →
       (∀ e ∈ (s.shed sh).delay.take k, isDue s e = false ∨ s.letsPass sh e d.target = true) → d.kind.toNat ≠ 5 →
       ((s.shed sh).queue q).items.length < qDepth ((s.shed sh).queue q) →
       Answers (exec (.delayEntryDue sh k) s) fun t => (t.shed sh).delay = (s.shed sh).delay.eraseIdx k ∧
         ((t.shed sh).queue q).items = ((s.shed sh).queue q).items ++ [eventOf ((s.shed sh).queue q) d.kind.toNat d.ev s.ctr]) ∧
     (∀ d : Delayed, sh < 32 → (s.shed sh).delay[k]? = some d → isDue s d = false → exec (.delayEntryDue sh k) s = .next s))

/-- R32, R33, R117, R152, R153: Of the ready events with an eligible waiting stall the groom delivers the first by
priority and acceptance to the stall that has waited longest, which runs with source and event in its registers, and
nothing is dispatched without such a pair; a shed sleeps only after 20 us of its conditions and wakes when something
needs it. -/
def Obligations.DispatchAndSleep : Prop :=
  (∀ (s : State) (sh : Nat), sh < 32 → (s.shed sh).asleep = false →
     let waits (i : Nat) (t : Nat) : Prop := ∃ d v, (s.stall (32 * sh + i)).mode = .getWork d v t
     ((∃ c ∈ s.cands sh, ∃ i ∈ c.takers, ∃ t, waits i t) →
       ∃ c ∈ s.cands sh, ∃ i ∈ c.takers, ∃ d v since,
         (s.stall (32 * sh + i)).mode = .getWork d v since ∧
         (∀ c' ∈ s.cands sh, (∃ j ∈ c'.takers, ∃ t, waits j t) → c.le c' = true) ∧
         (∀ j ∈ c.takers, ∀ t, waits j t → since ≤ t) ∧
         Answers (exec (.dispatch sh) s) fun t =>
           let y := t.stall (32 * sh + i)
           y.mode = .running ∧ y.cur = some (if 0x400 ≤ c.queue then 0x400 else c.queue, c.ev.key.toNat) ∧
           y.pc = (s.stall (32 * sh + i)).pc ∧
           y.getG (BitVec.ofNat 5 d) = (if BitVec.ofNat 5 d = 31 then 0
             else BitVec.ofNat 64 (if 0x400 ≤ c.queue then 0x400 else c.queue)) ∧
           (y.getV (BitVec.ofNat 5 v)).toNat % 2 ^ 64 =
             (if 0x400 ≤ c.queue then 0x400 else c.queue) % 2 ^ 11 + c.ev.prio.toNat * 2 ^ 11 + c.ev.key.toNat * 2 ^ 16 +
               c.ev.kind.toNat * 2 ^ 32 ∧
           t.mem = s.mem ∧ ∀ u, u ≠ 32 * sh + i → t.stall u = s.stall u) ∧
     ((∀ c ∈ s.cands sh, ∀ i ∈ c.takers, ∀ t, ¬ waits i t) → exec (.dispatch sh) s = .next s)) ∧
  (∀ (s : State) (sh : Nat), sh < 32 →
     (s.quiet sh = true → (s.shed sh).busyAt + 20000 ≤ s.clock →
       exec (.shedSleep sh) s = .next (s.setShed sh { s.shed sh with asleep := true })) ∧
     (s.clock < (s.shed sh).busyAt + 20000 ∨ s.quiet sh = false → exec (.shedSleep sh) s = .next s) ∧
     ((s.shed sh).asleep = true → (s.cands sh ≠ [] ∨ (s.shed sh).mxa.queue ≠ [] ∨ (s.shed sh).dma.queue ≠ [] ∨
         (s.shed sh).sampler.queue ≠ [] ∨ ∃ d ∈ (s.shed sh).delay, dueIn s d ≤ 2) →
       exec (.shedWake sh) s = .next (s.setShed sh { s.shed sh with asleep := false, busyAt := s.clock })))

/-- R195, R217, R245, R246, R366: A request enters its engine's window with the other parts of its block, counted once in
STACK_LOAD, or waits while 256 are there or the memory throttle takes the cycle; a channel reads a clean sector as it
stands, corrects and counts one symbol in error, poisons a sector with two, and a store writes exactly the bytes of its
mask. That a block is one request and one count (assumption logs 14 and 50), and that each entry command is one cycle of
the throttle (assumption log 34), are the model's choices. -/
def Obligations.WindowsAndSectors : Prop :=
  (∀ (s : State) (st k j : Nat) (a : Access) (q : APart), st < 1024 → (s.stall st).acc[k]? = some a →
     a.parts[j]? = some q → q.stage = .issued → isHbm q.phys = true →
     let e := engineOf q.phys
     (256 ≤ (s.engine e).occupied → exec (.requestEnterWindow st k j) s = .next s) ∧
     ((s.engine e).occupied < 256 → (∀ b ∈ a.parts, (s.stall st).mayPerform a b = true) →
       16 ≤ (s.engine e).turns + s.power.mt → exec (.requestEnterWindow st k j) s =
         .next (s.setEngine e { s.engine e with turns := ((s.engine e).turns + 1) % 16 })) ∧
     ((s.engine e).occupied < 256 → (∀ b ∈ a.parts, (s.stall st).mayPerform a b = true) →
       (s.engine e).turns + s.power.mt < 16 →
       Answers (exec (.requestEnterWindow st k j) s) fun t => ∃ new,
         (t.engine e).window = (s.engine e).window ++ new ∧
         (∀ r ∈ new, r.stall = st ∧ r.seq = a.seq ∧ r.write = decide (a.kind ≠ .load) ∧ ∃ b, a.parts[r.part]? = some b ∧
           b.stage = .issued ∧ b.phys / 512 = q.phys / 512 ∧ r.sector = b.phys / 32) ∧
         (∀ (i : Nat) (b : APart), a.parts[i]? = some b → b.stage = .issued → isHbm b.phys = true →
           b.phys / 512 = q.phys / 512 → ∃ r ∈ new, r.part = i) ∧
         (∀ f, f ≠ e → t.engine f = s.engine f) ∧ t.mem = s.mem ∧
         t.objs = (s.bump48 (kStackLoad (e / 32) (s.partOf st)) 1).objs ∧ ∀ u, u ≠ st → t.stall u = s.stall u)) ∧
  (∀ (s : State) (e k n : Nat) (r : WinReq) (a : Access) (q : APart), e < 384 → (s.engine e).window[k]? = some r →
     s.windowTurn e k = true → (s.stall r.stall).acc[n]? = some a → a.seq = r.seq →
     (∀ b ∈ (s.stall r.stall).acc.take n, b.seq ≠ r.seq) → a.parts[r.part]? = some q →
     (s.stall r.stall).mayPerform a q = true → isHbm q.phys = true → q.phys / 32 = r.sector → q.phys % 32 + q.len ≤ 32 → s.check r.sector = 0 →
     let y := engineOf (r.sector * 32) / 32
     let go (errs : List (Nat × BitVec 8)) (f : State → Prop) : Prop :=
       Answers (exec (.sectorAccess e k errs) s) fun t => (t.engine e).window = (s.engine e).window.eraseIdx k ∧ f t
     let data := (List.range q.len).map fun i => (s.stall r.stall).forward a.seq (q.phys + i) (s.byte (q.phys + i))
     (a.kind = .load → go [] fun t => t.mem = s.mem ∧ t.objs = s.objs ∧ (t.stall r.stall).acc[n]? = some (a.finish r.part data)) ∧
     (a.kind = .load → ∀ (i : Nat) (b : BitVec 8), i < 36 → b ≠ 0 → go [(i, b)] fun t =>
       t.mem = s.mem ∧ t.check r.sector = 0 ∧ t.obj (kStack y 2) = sat32 (s.obj (kStack y 2)) 1 ∧
       (t.stall r.stall).acc[n]? = some (a.finish r.part data)) ∧
     (a.kind = .load → ∀ (i j : Nat) (b c : BitVec 8), i < j → j < 36 → b ≠ 0 → c ≠ 0 →
       ¬ (i = 32 ∧ j = 33 ∧ b = 0xFF ∧ c = 0xFF) → go [(i, b), (j, c)] fun t =>
         t.poisoned q.phys = true ∧ t.obj (kStack y 3) = sat32 (s.obj (kStack y 3)) 1 ∧
         t.obj (kStack y 2) = s.obj (kStack y 2) ∧
         (t.stall r.stall).acc[n]? = some { a.finish r.part [] with poison := true }) ∧
     (a.kind = .store → go [] fun t => (t.stall r.stall).acc[n]? = some (a.finish r.part []) ∧ ∀ j, t.byte j =
       if q.phys ≤ j ∧ j < q.phys + q.len ∧ a.mask.getLsbD (q.off + (j - q.phys)) = true
         then BitVec.ofNat 8 (a.value.toNat / 256 ^ (q.off + (j - q.phys))) else s.byte j))

/-- R189, R220, R221, R222, R231, R251: Every 2^24 accesses the use counters of an engine's cache are halved; a prefetch
hint is dropped and counted when the window is full, waits while its pseudo-channel has no slot for it, and otherwise
fills a line at use count 0 under policy 0: a free line of its set, or, when the set is full or its partition has its
limit of ways, that of the lines it may replace with the lowest counter, of equal ones the earliest filled. That hints
fill under policy 0 alone is the model's reading (assumption log 50). -/
def Obligations.RowCache : Prop :=
  ∀ (s : State) (e k : Nat), e < 384 →
    (2 ^ 24 ≤ (s.engine e).accesses → Answers (exec (.cacheCounterHalve e) s) fun t =>
      (t.engine e).cache = (s.engine e).cache.map (fun l => { l with uses := l.uses / 2 }) ∧
      (t.engine e).window = (s.engine e).window ∧ t.mem = s.mem ∧ ∀ f, f ≠ e → t.engine f = s.engine f) ∧
    ((s.engine e).accesses < 2 ^ 24 → exec (.cacheCounterHalve e) s = .next s) ∧
    (∀ h : Hint, s.hints[k]? = some h →
      let x := s.engine h.engine
      let set := Config.cacheSet h.sector % 256
      let here := x.cache.filter (fun l => decide (l.set = set))
      let own := (here.filter (fun l => decide (l.part = h.part))).length
      let rep (l : Line) : Prop := l.set = set ∧ (own < s.cacheWays h.part ∨ l.part = h.part)
      let slot := s.pcWaits h.engine (h.sector % 2) = false ∧ s.frontSlot h.engine (h.sector % 2) = true
      let new (l : Line) : Prop := l.sector = h.sector ∧ l.set = set ∧ l.uses = 0 ∧ l.part = h.part
      (256 ≤ x.occupied → x.hints < 2 ^ 48 → Answers (exec (.prefetchHint k) s) fun t => t.hints = s.hints.eraseIdx k ∧
        (t.engine h.engine).hints = (if x.hints = 2 ^ 48 - 1 then 0 else x.hints + 1) ∧ (t.engine h.engine).cache = x.cache) ∧
      (x.occupied < 256 → s.cachePolicy h.part = 0 → (∀ l ∈ x.cache, l.sector ≠ h.sector) →
        (¬ slot → exec (.prefetchHint k) s = .next s) ∧
        (slot → here.length < 16 → own < s.cacheWays h.part → Answers (exec (.prefetchHint k) s) fun t =>
          t.hints = s.hints.eraseIdx k ∧ (t.engine h.engine).hints = x.hints ∧
          ∃ l, new l ∧ (t.engine h.engine).cache = x.cache ++ [l]) ∧
        (slot → 16 ≤ here.length ∨ s.cacheWays h.part ≤ own → Answers (exec (.prefetchHint k) s) fun t =>
          t.hints = s.hints.eraseIdx k ∧ (t.engine h.engine).hints = x.hints ∧
          ∃ v l, v ∈ x.cache ∧ rep v ∧ new l ∧
            (∀ u ∈ x.cache, rep u → v.uses < u.uses ∨ (v.uses = u.uses ∧ v.stamp ≤ u.stamp)) ∧
            (t.engine h.engine).cache = x.cache.filter (fun u => decide (u ≠ v)) ++ [l])))

/-- R240, R247, R248, R249, R250, R251, R252: A due refresh is postponed while requests wait and forced at its limit;
recalibration runs after 2 us of an empty window or is forced 100 ms later, which is counted, and never before a forced
refresh; a reading sets the refresh mode or trips the module; in a slot left to it the scrub goes on by a sector; a
cleared frame reads as zeros and no other byte changes. How often background work gets slots is the model's reading of
R251 (assumption log 50). -/
def Obligations.StackUpkeepAndRefresh : Prop :=
  (∀ (s : State) (k ch pc : Nat), k < 12 → ch < 32 → pc < 2 → (s.hbm k).phase = .ready →
     let x := s.hbm k
     let e := s.engine (32 * k + ch)
     let d := x.debtOf ch pc
     let busy := ∃ r ∈ e.window, r.sector % 2 = pc
     let put (t : State) (v : Nat) : Prop := (t.hbm k).debtOf ch pc = v ∧
       (∀ c p, c < 32 → p < 2 → (c, p) ≠ (ch, pc) → (t.hbm k).debtOf c p = x.debtOf c p) ∧ t.mem = s.mem ∧
       ∀ j, j ≠ k → t.hbm j = s.hbm j
     (busy → d < 16 → Answers (exec (.refresh k ch pc true) s) fun t => put t (d + 1) ∧ t.objs = s.objs) ∧
     (16 ≤ d → exec (.refresh k ch pc true) s = .next s) ∧
     (16 ≤ d → Answers (exec (.refresh k ch pc false) s) fun t => put t (d - 1) ∧
       t.obj (kStack k 6) = sat32 (s.obj (kStack k 6)) 1) ∧
     (d < 16 → 8 < d ∨ ¬ busy ∧ 0 < d → Answers (exec (.refresh k ch pc false) s) fun t => put t (d - 1) ∧ t.objs = s.objs) ∧
     (d ≤ 8 → busy ∨ d = 0 → exec (.refresh k ch pc false) s = .next s) ∧
     (x.calDueAt ch ≤ s.clock → (e.window = [] ∧ e.emptyAt + 2000 ≤ s.clock ∧ x.debtOf ch 0 ≤ 8 ∧ x.debtOf ch 1 ≤ 8) ∨
         (x.calDueAt ch + 100000000 ≤ s.clock ∧ x.debtOf ch 0 < 16 ∧ x.debtOf ch 1 < 16) →
       Answers (exec (.recalibration k ch) s) fun t => s.clock < (t.hbm k).calDueAt ch ∧ t.mem = s.mem ∧
         t.obj (kStack k 7) = (if x.calDueAt ch + 100000000 ≤ s.clock then sat32 (s.obj (kStack k 7)) 1
           else s.obj (kStack k 7))) ∧
     (s.clock < x.calDueAt ch ∨ 16 ≤ x.debtOf ch 0 ∨ 16 ≤ x.debtOf ch 1 → exec (.recalibration k ch) s = .next s)) ∧
  (∀ (s : State) (k y f : Nat) (v : Int), k < 12 → y < 4 → f < 715 →
     let x := s.hbm k
     (x.phase = .ready → v ≤ 1680 → s.season.phase ≠ .noPower → Answers (exec (.stackTemperatureRead k v) s) fun t =>
       (t.hbm k).temp = v ∧ (t.hbm k).phase = .ready ∧ t.mem = s.mem ∧ t.season = s.season ∧
       (v ≤ 1328 → (t.hbm k).refresh = 0) ∧ (1360 < v → v ≤ 1488 → (t.hbm k).refresh = 1) ∧
       (1520 < v → (t.hbm k).refresh = 2 ∧ (x.refresh ≠ 2 → (t.hbm k).hot = true))) ∧
     (1680 < v → s.season.phase = .summer → Answers (exec (.stackTemperatureRead k v) s) fun t =>
       t.season.phase = .fault ∧ t.season.cause = 1 ∧ t.thermtripN = false) ∧
     (x.phase = .ready → s.scrubTurn k = true → x.scrub < stackSectors →
       let key := sectorKey k (x.scrub / 16 / 3906250) (x.scrub / 16 % 3906250) (x.scrub % 16)
       s.scrubSlot (engineOf key) (key / 32 % 2) = true → s.check (key / 32) = 0 →
       Answers (exec (.patrolScrub k []) s) fun t => t.mem = s.mem ∧ t.objs = s.objs ∧
         (x.scrub + 1 < stackSectors → (t.hbm k).scrub = x.scrub + 1 ∧ (t.hbm k).passes = x.passes) ∧
         (x.scrub + 1 = stackSectors → (t.hbm k).scrub = 0 ∧ (t.hbm k).passes = sat32 x.passes 1)) ∧
     ((s.frame y f).clearing = true → (∀ c ∈ yardSlots y, s.backSlot c.1 c.2 = true) →
       Answers (exec (.frameClearing y f) s) fun t =>
       (t.frame y f).clearing = false ∧ (t.frame y f).taken = (s.frame y f).taken ∧
       ∀ a, t.byte a = if hbmKey y (f * 2 ^ 28) ≤ a ∧ a < hbmKey y ((f + 1) * 2 ^ 28) then 0 else s.byte a))

/-- R75, R83, R85, R86, R92, R93, R402: MX.LOADW in every format reads its weights, an MX format its scales too, and its
indices, from BASE upward or from a rising list, into its slot and leaves the other slot; a reserved format, an index
list that does not rise or runs past 2^32, a stream that fails a start check and a drain of an empty tile halt the array
with their code and discard what is queued but MX.RESET; MX.RESET clears slots, tiles and the halt.  That a command's
effects fall at its start is the model's reading (assumption log 54). -/
def Obligations.MatrixStarts : Prop :=
  ∀ (s : State) (sh : Nat) (d : Desc) (rest : List Desc), sh < 32 → (s.mxa sh).queue = d :: rest →
    (s.shed sh).asleep = false → (s.mxa sh).held = [] →
    let m := s.mxa sh
    let c := d.bits.toNat
    let f := mxFmtF c
    let halts (code : Nat) : Prop := m.halted = false → Answers (exec (.mxaCommandStart sh) s) fun t =>
      (t.mxa sh).halted = true ∧ (t.mxa sh).errCode = code ∧ (t.mxa sh).errOp = mxOp c ∧
      (t.mxa sh).errStall = d.stall ∧ (t.mxa sh).queue = rest.filter (fun e => mxOp e.bits.toNat = 5) ∧
      (∀ b, (t.mxa sh).tile b = m.tile b ∧ (t.mxa sh).slot b = m.slot b) ∧ t.mem = s.mem
    let listed (i : Nat) : Nat := s.loftNum sh (lwIdx c + 4 * i) 4
    let runs := ∀ i, i + 1 < lwEntries c → listed i < listed (i + 1)
    (mxOp c = 1 → m.load = none → (∀ r, m.stream = some r → mxSlot r.cmd.bits.toNat ≠ mxSlot c) →
      (mxaBits f ≠ 0 → (if lwIdxv c then runs else lwBase c + lwEntries c ≤ 2 ^ 32) →
        Answers (exec (.mxaCommandStart sh) s) fun t => ∃ x,
          (t.mxa sh).slot (mxSlot c) = some x ∧ (t.mxa sh).slot (!(mxSlot c)) = m.slot (!(mxSlot c)) ∧
          x.kRows = lwK c ∧ x.nCols = lwN c ∧ x.wfmt = f ∧ x.axis = lwAxis c ∧
          x.idx = (List.range (lwEntries c)).map (fun i => if lwIdxv c then listed i else lwBase c + i) ∧
          (∀ r n, r < lwK c → n < lwN c → x.code r n =
            s.loftNum sh (lwW c + r * lwPitch c) (rowBytes f (lwN c)) / 2 ^ (n * mxaBits f) % 2 ^ mxaBits f) ∧
          (mxaIsMx f = true → ∀ j n, j < lwK c / 32 → n < lwN c →
            x.scale j n = s.loftNum sh (lwScale c + j * lwN c + n) 1) ∧
          (t.mxa sh).queue = rest ∧ (∃ r, (t.mxa sh).load = some r ∧ r.cmd = d) ∧ t.mem = s.mem ∧
          ∀ j, j ≠ sh → t.shed j = s.shed j) ∧
      (mxaBits f = 0 → halts 0x0303) ∧
      (mxaBits f ≠ 0 → ¬(if lwIdxv c then runs else lwBase c + lwEntries c ≤ 2 ^ 32) → halts 0x0309)) ∧
    (mxOp c = 2 ∨ mxOp c = 3 → m.mayStart c = true → (s.streamCheck sh c).1 ≠ 0 → halts (s.streamCheck sh c).1) ∧
    (mxOp c = 5 → m.load = none → m.stream = none → m.drain = none → m.ctrl = none →
      Answers (exec (.mxaCommandStart sh) s) fun t => (t.mxa sh).slot0 = none ∧ (t.mxa sh).slot1 = none ∧
        (t.mxa sh).tileA = none ∧ (t.mxa sh).tileB = none ∧ (t.mxa sh).halted = false ∧ (t.mxa sh).errCode = 0 ∧
        (t.mxa sh).intSat = m.intSat ∧ (∃ r, (t.mxa sh).ctrl = some r ∧ r.cmd = d) ∧ t.mem = s.mem) ∧
    (mxOp c = 4 → m.drain = none → m.tile (mxTile c) = none → halts 0x030B)

/-- R53, R54, R55, R76, R77, R78, R82, R83, R84, R90: A stream that passes its checks adds to each run it reaches the
products of an activation row with a weight column, exactly for integers and as one chunk for floats, and leaves the
other runs; when P chunks are due the totals in the loft first take the runs, which start again from 0, and otherwise no
byte of memory changes; a drain with FINAL = 0 promotes in the same way; a final drain of FORM 0 writes each element once
rounded to the output format, a final drain of FORM 1 its packed runs and row ranges, and neither changes another byte.
That all of this falls at the command's start is the model's reading (assumption log 54). -/
def Obligations.MatrixArithmetic : Prop :=
  ∀ (s : State) (sh : Nat) (d : Desc) (rest : List Desc), sh < 32 → (s.mxa sh).queue = d :: rest →
    (s.shed sh).asleep = false → (s.mxa sh).held = [] →
    let m := s.mxa sh
    let c := d.bits.toNat
    let spot (t : Tile) (i n : Nat) : Nat := t.tot + i * t.totPitch + 8 * n
    -- the new total of an element that a run reached
    let total (t : Tile) (i n : Nat) : Nat :=
      let old := if t.first ∧ t.totInit then 0 else s.loftNum sh (spot t i n) 8
      if t.isInt then
        ofInt 64 (addSat64 (addSat64 (toInt 64 old) (FMap.get (fun _ => 0) t.totals (tix i n))).1 (toInt 32 (t.run i n))).1
      else
        let r := promote (old % 2 ^ 32) (old / 2 ^ 32) (t.run i n)
        r.1 + r.2 * 2 ^ 32
    let promoted (t : Tile) (u : State) : Prop :=
      (∀ i n, i < t.rows → n < t.nCols → u.loftNum sh (spot t i n) 8 =
        if t.hit i n then total t i n else if t.first ∧ t.totInit then 0 else s.loftNum sh (spot t i n) 8) ∧
      (∀ k, (∀ i n j, i < t.rows → n < t.nCols → j < 8 → k ≠ loftKey sh (spot t i n) + j) → u.byte k = s.byte k)
    (∀ (x : Slot) (b : Tile), mxOp c = 2 ∨ mxOp c = 3 → m.mayStart c = true →
      s.streamCheck sh c = (0, some (x, b)) → x.nCols ≤ 512 →
      let t := (m.tile (mxTile c)).getD b
      let due := t.p ≤ t.chunks
      let reached (i n : Nat) : Prop := ∃ a, (i, a) ∈ s.actRows sh c x ∧ n ∈ a.cols
      let sum (i n : Nat) (v : Tile) : Int := toInt 32 (v.run i n) + FMap.get (fun _ => 0) v.totals (tix i n)
      let zero (i n : Nat) : Int := if due then 0 else sum i n t
      Answers (exec (.mxaCommandStart sh) s) fun u => ∃ v,
        (u.mxa sh).tile (mxTile c) = some v ∧ (u.mxa sh).tile (!(mxTile c)) = m.tile (!(mxTile c)) ∧ v.placed = true ∧
        (u.mxa sh).slot0 = m.slot0 ∧ (u.mxa sh).slot1 = m.slot1 ∧ (u.mxa sh).queue = rest ∧
        (∃ r, (u.mxa sh).stream = some r ∧ r.cmd = d) ∧ (∀ j, j ≠ sh → u.mxa j = s.mxa j) ∧
        v.chunks = (if due then 1 else t.chunks + 1) ∧ v.final = 0 ∧
        (if due then promoted t u else u.mem = s.mem) ∧
        (∀ i n, i < t.rows → n < t.nCols → ¬reached i n →
          v.run i n = (if due then 0 else t.run i n) ∧ v.hit i n = t.hit i n) ∧
        (t.isInt = true → ∀ i a n, (i, a) ∈ s.actRows sh c x → n ∈ a.cols → v.hit i n = true ∧
          sum i n v = zero i n + (List.zipWith (fun p q : Int => p * q) (a.codes.map (toInt 8)) (x.colInt n)).sum) ∧
        (t.isInt = true → mxOp c = 2 → ∀ i n, i < stRows c → n < x.nCols →
          sum i n v = zero i n + ((List.range x.kRows).map (fun r =>
            toInt 8 (s.loftNum sh (stAct c + i * stActPitch c + r) 1) * toInt 8 (x.code r n))).sum) ∧
        (t.isInt = false → ∀ i a n, (i, a) ∈ s.actRows sh c x → n ∈ a.cols → v.hit i n = true ∧
          v.run i n = f32add (if due then 0 else t.run i n) (chunk (List.zip (a.vals (mxFmtF c)) (x.col n))).1)) ∧
    (∀ t : Tile, mxOp c = 4 → m.drain = none → m.tile (mxTile c) = some t → 1 ≤ t.final → drainCheck c (some t) = 0 →
      t.placed = true →
      let o := drOfmt c
      let size := outSize o
      let value (i n : Nat) : Nat :=
        let w := if t.hit i n then total t i n else if t.first ∧ t.totInit then 0 else s.loftNum sh (spot t i n) 8
        if t.isInt then (if o = 0 then fp32.encode (fOfInt (toInt 64 w)) else if o = 5 then
            ofInt 32 (max (-(2 ^ 31)) (min (2 ^ 31 - 1) (toInt 64 w))) else w)
        else (outFmt o).encode ((fp32.decode (w % 2 ^ 32)).add (fp32.decode (w / 2 ^ 32)))
      Answers (exec (.mxaCommandStart sh) s) fun u =>
        (∃ r, (u.mxa sh).drain = some r ∧ r.cmd = d) ∧ (u.mxa sh).queue = rest ∧
        (u.mxa sh).tile (!(mxTile c)) = m.tile (!(mxTile c)) ∧ (∀ j, j ≠ sh → u.mxa j = s.mxa j) ∧
        (drFinal c = false → promoted t u ∧ ∃ v, (u.mxa sh).tile (mxTile c) = some v ∧ v.chunks = 0 ∧ v.first = false ∧
          ∀ i n, v.run i n = 0 ∧ v.hit i n = t.hit i n) ∧
        (drFinal c = true → (u.mxa sh).tile (mxTile c) = some t) ∧
        (drFinal c = true → drForm c = false →
          (∀ i n, i < t.rows → n < t.nCols → u.loftNum sh (drOut c + i * drPitch c + n * size) size = value i n) ∧
          (∀ k, (∀ i n j, i < t.rows → n < t.nCols → j < size → k ≠ loftKey sh (drOut c + i * drPitch c + n * size) + j) →
            u.byte k = s.byte k)) ∧
        (drFinal c = true → drForm c = true →
          let es (i : Nat) := ((List.range t.nCols).filter (fun n => t.hit i n)).map
            (fun n => ((t.cols[n]?).getD 0, value i n))
          let row (i : Nat) := rowRuns size (es i)
          let bs := (List.range t.rows).flatMap row
          let ptr := (List.range (t.rows + 1)).map (fun i => ((List.range i).flatMap row).length)
          drOut c + bs.length ≤ drOut c + drPitch c →
          u.loft sh (drOut c) bs.length = bs ∧
          u.loft sh (drOut c + drPitch c) (4 * (t.rows + 1)) = ptr.flatMap (toBytes 4) ∧
          ∀ k, ¬(loftKey sh (drOut c) ≤ k ∧ k < loftKey sh (drOut c) + bs.length) →
            ¬(loftKey sh (drOut c + drPitch c) ≤ k ∧ k < loftKey sh (drOut c + drPitch c) + 4 * (t.rows + 1)) →
            u.byte k = s.byte k))

/-- R73, R83, R86, R94: Rows of a stream become final one by one; a drain waits for all of them; a command that completes
leaves its engine free, performs its flag completion and no other flag changes, a drain empties its tile alone, and a
saturation is logged. -/
def Obligations.MatrixCompletes : Prop :=
  ∀ (s : State) (sh : Nat), sh < 32 →
    let m := s.mxa sh
    (∀ (b : Bool) (x : Tile), m.tile b = some x → x.final < x.rows → Answers (exec (.streamRowFinal sh b) s) fun t =>
      (t.mxa sh).tile b = some { x with final := x.final + 1 } ∧ (t.mxa sh).tile (!b) = m.tile (!b) ∧ t.mem = s.mem) ∧
    (∀ (eng : Nat) (r : MxRun), m.runOf eng = some r →
      let c := r.cmd.bits.toNat
      let whole := ∀ x, m.tile (mxTile c) = some x → x.rows ≤ x.final
      (eng = 2 → (∃ x, m.tile (mxTile c) = some x ∧ x.final < x.rows) → exec (.mxaCommandComplete sh eng) s = .next s) ∧
      ((eng = 2 → whole) → dCmpl c < 2 → Answers (exec (.mxaCommandComplete sh eng) s) fun t =>
        (t.mxa sh).runOf eng = none ∧ (∀ f, f ≠ eng → (t.mxa sh).runOf f = m.runOf f) ∧
        (∀ b, (t.mxa sh).tile b = if eng = 2 ∧ b = mxTile c then none else m.tile b) ∧
        (t.mxa sh).queue = m.queue ∧ t.mem = s.mem ∧ t.stalls = s.stalls ∧
        (∀ f, t.flag f = if dCmpl c = 1 ∧ f = dIndex c then true else s.flag f) ∧
        (eng = 2 ∧ r.sat = true → (t.mxa sh).intSat = true ∧
          (s.log (r.cmd.part + 1)).next < (t.log (r.cmd.part + 1)).next)))

/-- R72, R74, R92, R93, R126, R160, R167, R192, R196, R224, R228: A command or descriptor that reaches its unit is appended
to its queue of 32, 16, 4 for each partition or 32; a full queue holds it back; a halted matrix array discards what is
not MX.RESET; a failed issue check changes no queue, sets the unit's error, is logged, and gives the descriptor's tag
back to its stall.  That the tag of a UCMD to a pen is back when the last of its descriptors ends is the model's reading
(assumption log 51). -/
def Obligations.Arrivals : Prop :=
  (∀ (s : State) (k : Nat) (m : Mesh), s.mesh[k]? = some m → m.op = .ucmd → s.leafTurn k m = true → m.reply = .none →
     let d := m.data.toNat
     let i := m.idx
     let left (t : State) : Prop := t.mesh = s.mesh.eraseIdx k ∧ t.mem = s.mem
     let logged (t : State) : Prop := left t ∧ (t.log (m.part + 1)).next = (s.log (m.part + 1)).next + 1
     let S (c : Instr) (ok : Prop) : Prop := m.kind = 5 → ok →
       let q := (s.sampler i).queue
       (16 ≤ q.length → exec c s = .next s) ∧
       (q.length < 16 → s.saCheck m.part d m.n = 0 → Answers (exec c s) fun t => left t ∧
         t.sampler i = { s.sampler i with queue := q ++ [m.desc] } ∧ t.objs = s.objs ∧ t.stalls = s.stalls) ∧
       (q.length < 16 → s.saCheck m.part d m.n ≠ 0 → Answers (exec c s) fun t => logged t ∧
         (t.sampler i).queue = q ∧ (t.sampler i).errCode = s.saCheck m.part d m.n ∧ (t.sampler i).errStall = m.stall)
     let R (c : Instr) (ok : Prop) : Prop := m.kind = 6 → ok →
       let q := s.rowQueue i m.part
       (4 ≤ q.length → exec c s = .next s) ∧
       (q.length < 4 → s.reCheck m.part d m.n = 0 → Answers (exec c s) fun t => left t ∧
         t.rowQueue i m.part = q ++ [m.desc] ∧ (∀ p, p ≠ m.part → t.rowQueue i p = s.rowQueue i p) ∧
         t.objs = s.objs ∧ t.stalls = s.stalls) ∧
       (q.length < 4 → s.reCheck m.part d m.n ≠ 0 → Answers (exec c s) fun t => logged t ∧ t.rowQueue i m.part = q ∧
         t.obj (kReStatus m.part) / 2 ^ 16 % 2 ^ 16 = s.reCheck m.part d m.n ∧
         tagBack s t m.desc)
     let D (c : Instr) (ok : Prop) : Prop := m.kind = 0 → ok →
       let q := (s.dma i).queue
       (32 ≤ q.length → exec c s = .next s) ∧
       (q.length < 32 → s.dmCheck m.part d m.n = 0 → Answers (exec c s) fun t => left t ∧
         t.dma i = { s.dma i with queue := q ++ [m.desc] } ∧ t.objs = s.objs ∧ t.stalls = s.stalls) ∧
       (q.length < 32 → s.dmCheck m.part d m.n ≠ 0 → Answers (exec c s) fun t => logged t ∧ (t.dma i).queue = q ∧
         tagBack s t m.desc)
     let o := reOp d
     S (.sample k) (o ≠ 2) ∧ S (.score k) (o = 2) ∧ R (.gather k) (o = 1 ∨ o = 0 ∨ 10 < o) ∧ R (.pool k) (o = 2) ∧
     R (.replay k) (o = 3) ∧ R (.scatter k) (o = 4) ∧ R (.flush k) (o = 5) ∧ R (.applyOrdered k) (o = 6) ∧
     R (.opt8 k) (o = 7) ∧ R (.tswitch k) (o = 8) ∧ R (.replicate k) (o = 9) ∧ R (.migrate k) (o = 10) ∧
     D (.copy k) (o ≠ 2 ∧ o ≠ 3) ∧ D (.compress k) (o = 2) ∧ D (.expand k) (o = 3)) ∧
  (∀ (s : State) (k : Nat) (m : Mesh), s.mesh[k]? = some m → m.op = .mx → m.kind = 4 → s.leafTurn k m = true →
     m.reply = .none →
     let x := s.mxa m.idx
     let c := m.data.toNat
     let A (i : Instr) (op : Nat) : Prop := mxOp c = op →
       (32 ≤ x.queue.length → x.halted = false ∨ op = 5 → exec i s = .next s) ∧
       (x.halted = true → op ≠ 5 → exec i s = .next { s with mesh := s.mesh.eraseIdx k }) ∧
       (x.halted = false ∨ op = 5 → x.queue.length < 32 → s.mxIssueCheck m.part c = 0 → Answers (exec i s) fun t =>
         t.mxa m.idx = { x with queue := x.queue ++ [m.desc] } ∧ t.mesh = s.mesh.eraseIdx k ∧ t.mem = s.mem ∧
         t.objs = s.objs ∧ t.stalls = s.stalls ∧ ∀ j, j ≠ m.idx → t.shed j = s.shed j) ∧
       (x.halted = false → x.queue.length < 32 → s.mxIssueCheck m.part c ≠ 0 → Answers (exec i s) fun t =>
         (t.mxa m.idx).halted = true ∧ (t.mxa m.idx).errCode = s.mxIssueCheck m.part c ∧ (t.mxa m.idx).errOp = op ∧
         (t.mxa m.idx).errStall = m.stall ∧ (t.mxa m.idx).queue = x.queue ∧
         (t.log (m.part + 1)).next = (s.log (m.part + 1)).next + 1)
     A (.mxLoadw k) 1 ∧ A (.mxStream k) 2 ∧ A (.mxSpstream k) 3 ∧ A (.mxDrain k) 4 ∧ A (.mxReset k) 5)

/-- R145, R167, R169, R170, R171, R182, R185, R186, R190, R192, R194: The next descriptor of a sampler performs its work
and writes its outputs, a SAMPLE without a held result computed anew, or adopts a result held for it, or fails with its
code, and waits while a sector has no turn; a hop's frontier is the rising union of its sources, and of its own entries
with SELF; run-ahead holds the result of the step after the template's; completion frees the engine, sets its flag alone
and makes a SAMPLE with RA the template.  That a SAMPLE's work falls at its start, and what a held result is compared by,
are the model's readings (assumption log 55). -/
def Obligations.Samplers : Prop :=
  (∀ (s : State) (sh : Nat), sh < 32 → (s.shed sh).asleep = false → (s.sampler sh).cur = none →
     let x := s.sampler sh
     (∀ (d : Desc) (rest : List Desc), x.queue = d :: rest →
       let c := d.bits.toNat
       let s0 := (s.modSampler sh (fun x => { x with queue := rest })).touch sh
       let done (r : SRes) (u t : State) : Prop := t.mem = u.mem ∧ (t.sampler sh).queue = (u.sampler sh).queue ∧
         (∀ a ∈ (t.sampler sh).held, a ∈ (u.sampler sh).held) ∧
         (bit r.status 0 = true → (t.sampler sh).adjMiss = true) ∧ (bit r.status 1 = true → (t.sampler sh).trunc = true) ∧
         (bit r.status 2 = true → (t.sampler sh).nanScore = true)
       let fresh := (saWork d.part c (sampleWork s.device d.part .fore c)).run plainly (s0.discardFor sh d)
       let score := (saWork d.part c (scoreWork d.part c)).run plainly s0
       (bits c 0 8 = 2 → badScore (scTemp c) (scTopp c) (scTopk c) (scLen c) = true →
         Answers (exec (.samplerDescriptorStart sh) s) fun t => (t.sampler sh).cur = none ∧ (t.sampler sh).queue = rest ∧
           (t.sampler sh).errCode = 0x0608 ∧ (t.sampler sh).errStall = d.stall ∧ t.mem = s.mem) ∧
       (bits c 0 8 = 1 → s.saTables d.part c = false → s.adopts sh d = none →
         Answers (exec (.samplerDescriptorStart sh) s) fun t => (t.sampler sh).errCode = 0x0602 ∧
           (t.sampler sh).cur = none ∧ t.mem = s.mem) ∧
       (bits c 0 8 = 2 → score = none → exec (.samplerDescriptorStart sh) s = .next s) ∧
       (∀ r u, bits c 0 8 = 2 → score = some (.ok r, u) →
         Answers (exec (.samplerDescriptorStart sh) s) fun t => done r u t ∧
           (t.sampler sh).cur = some { desc := d, caps := [], res := { r with writes := [] } } ∧
           r.nTrail = 4 * (scRows c * scDraws c)) ∧
       (bits c 0 8 = 1 → s.adopts sh d = none → fresh = none → exec (.samplerDescriptorStart sh) s = .next s) ∧
       (∀ r u, bits c 0 8 = 1 → s.adopts sh d = none → fresh = some (.ok r, u) →
         Answers (exec (.samplerDescriptorStart sh) s) fun t => done r u t ∧ r.fits c = true ∧
           (t.sampler sh).cur = some { desc := d, caps := s.capture d.part (saCaps c), res := { r with writes := [] } }) ∧
       (∀ a u, bits c 0 8 = 1 → s.adopts sh d = some a → a.res.fits c = true →
         (saWork d.part c (pure a.res)).run plainly ((s0.bumpObj (kRaAdopted d.part) 1).modSampler sh
           (fun x => { x with held := x.held.filter (fun b => decide (b ≠ a)) })) = some (.ok a.res, u) →
         Answers (exec (.samplerDescriptorStart sh) s) fun t => done a.res u t ∧
           (t.sampler sh).cur =
             some { desc := d, caps := s.capture d.part (saCaps c), res := { a.res with writes := [] } }) ∧
       (∀ a, bits c 0 8 = 1 → s.adopts sh d = some a → a.res.fits c = false →
         Answers (exec (.samplerDescriptorStart sh) s) fun t => (t.sampler sh).errCode = 0x0605 ∧
           (t.sampler sh).cur = none ∧ (t.sampler sh).held = x.held ∧ t.mem = s.mem)) ∧
     (∀ (g : Desc) (r : SRes) (u : State), x.tmpl = some g → x.queue = [] → x.held = [] → s.partRuns g.part = true →
       1 ≤ s.raDepth g.part →
       let n := (saStep g.bits.toNat + 1) % 2 ^ 64
       let d := setBits g.bits.toNat 128 64 n
       (sampleWork s.device g.part .ahead d).run plainly s = some (.ok r, u) → r.size ≤ u.raSlot g.part →
       Answers (exec (.runaheadCompute sh) s) fun t => t.mem = u.mem ∧ (t.sampler sh).cur = (u.sampler sh).cur ∧
         (t.sampler sh).held = (u.sampler sh).held ++ [{ step := n, caps := s.capture g.part (saCaps d), res := r }])) ∧
  (∀ (p d scb h : Nat) (mode : Reading) (g : Graph) (fr next : List Nat) (xs : List Expand) (st : Nat)
     (ns : List (Nat × Nat × Nat)) (how : How) (s : State) (w : Work),
     (hopOf p mode d g scb h fr).on how s = (.ok (next, xs, st, ns), w) →
     next.Pairwise (· < ·) ∧ xs.map Expand.entry = fr ∧
     ∀ v, v ∈ next ↔ (∃ x ∈ xs, ∃ k ∈ x.picks, k.1 = v) ∨ (saSelf d = true ∧ v ∈ fr)) ∧
  (∀ (s : State) (sh : Nat) (c : SCur), sh < 32 → (s.sampler sh).cur = some c →
     let d := c.desc.bits.toNat
     dCmpl d < 2 → Answers (exec (.samplerDescriptorComplete sh) s) fun t =>
       (t.sampler sh).cur = none ∧ (t.sampler sh).queue = (s.sampler sh).queue ∧ t.mem = s.mem ∧ t.stalls = s.stalls ∧
       (dCmpl d = 0 → t.objs = s.objs) ∧
       (t.sampler sh).tmpl = (if bits d 0 8 ≠ 2 ∧ saRa d = true then some c.desc else (s.sampler sh).tmpl) ∧
       ∀ f, t.flag f = if dCmpl d = 1 ∧ f = dIndex d then true else s.flag f)

/-- R50, R51, R126, R145, R196, R197, R199, R203, R208, R218, R219, R228: TSWITCH leaves its request in the table
descriptor; a table of the wrong kind fails with E_TABLE; GATHER, POOL, REPLAY, SCATTER, FLUSH, APPLY_ORDERED, OPT8 and
REPLICATE perform their work once their rows are here and their sectors have their turn, send what goes to another module
under a tag, and wait otherwise; a segment of up to 128 pairs is one chunk; completion frees engine and tag and sets its
flag alone; MIGRATE waits for its boundary, which a partition that does not run has none of, and leaves forwarding entries
that hold once their copies are acknowledged.  That a descriptor's work falls at one start, and when a stopped
partition's MIGRATE goes on, are the model's readings (assumption logs 17, 56). -/
def Obligations.RowDescriptors : Prop :=
  (∀ (seg : List (Nat × List FVal)) (j : Nat), seg ≠ [] → seg.length ≤ 128 → (segElem seg j).1 =
    f32add 0 (chunk (seg.map (fun y => (fp32.decode y.1, (y.2[j]?).getD (.fin false 0 0))))).1) ∧
  ∀ (s : State) (e p : Nat), e < 384 → p < 32 →
    (∀ (d : Desc) (rest : List Desc), s.rcur e p = none → s.rowQueue e p = d :: rest →
      let b := d.bits.toNat
      let s0 := s.setRowQueue e p rest
      let w := s.obj (kTable p (reTable b))
      (reOp b = 8 → tdKind w ≠ 0 → s.versionLive p (reTable b) (reVersion b) = false → (s.part p).phase = .running →
        Answers (exec (.rowDescriptorStart e p) s) fun t => t.rowQueue e p = rest ∧ t.mem = s.mem ∧
          (∃ c, t.rcur e p = some c ∧ c.ready = true ∧ c.desc = d) ∧
          (let v := t.obj (kTable p (reTable b))
           tdPend v = true ∧ tdPendBase v = reSrc b ∧ tdPendVersion v = reVersion b ∧ tdBase v = tdBase w ∧
           tdVersion v = tdVersion w ∧ tdKind v = tdKind w)) ∧
      ((reOp b ∈ [1, 2, 4, 5, 6, 9, 10] → reNamesTable b = true → tdKind w ≠ 4 →
        Answers (exec (.rowDescriptorStart e p) s) fun t => t.rcur e p = none ∧ t.rowQueue e p = rest ∧ t.mem = s.mem ∧
          t.obj (kReStatus d.part) / 2 ^ 16 % 2 ^ 16 = 0x0702 ∧ tagBack s t d)) ∧
      (reOp b ≠ 8 → (∀ k ∈ reCaps b, tdKind (s.obj (kTable p k)) = 4) →
        let c : RCur :=
          { desc := d, caps := s0.capture p (reCaps b), bases := (reCaps b).map (fun k => (k, tdBase (s.obj (kTable p k)))),
            err := 0, errIdx := noEntry, fcode := 0, tags := [], todo := [], reads := [], ready := false, bound := false,
            next := 0, size := 0 }
        let prep := (rePrep p b (c.base (reTable b)) .fore).run (reHow b) s0
        (prep = none → exec (.rowDescriptorStart e p) s = .next s) ∧
        (∀ (o : Option Rows) (s1 s2 : State) (n : Nat) (y : RCur), prep = some (.ok o, s1) → reOp b ≠ 10 →
          (∀ x rows, o = some x → (reNeeds p b x).look s1 = .ok rows → s1.reReads p b x rows = []) →
          (s1.setRcur e p (some c)).reMissing p c = some [] →
          (reWork e p c).run (reHow b) (s1.setRcur e p (some c)) = some (.ok n, s2) →
          s2.rcur e p = some y → y.err = 0 → y.tags = [] →
          (y.todo = [] → Answers (exec (.rowDescriptorStart e p) s) fun t => t.mem = s2.mem ∧
            t.rcur e p = some { y with ready := true, size := n }) ∧
          (∀ i k ks g, y.todo = [(i, k :: ks)] → s2.routable (hDstDev k.h) = true → s2.freeTag = some g →
            Answers (exec (.rowDescriptorStart e p) s) fun t => t.mem = s2.mem ∧
              t.rcur e p = some { y with ready := true, size := n, todo := [], tags := [g] })))) ∧
    (∀ c : RCur, s.rcur e p = some c → c.ready = true → c.todo = [] → c.tags = [] → c.err = 0 →
      let d := c.desc.bits.toNat
      dCmpl d < 2 → Answers (exec (.rowDescriptorComplete e p) s) fun t => t.rcur e p = none ∧ t.mem = s.mem ∧
        (∀ f, t.flag f = if dCmpl d = 1 ∧ f = dIndex d then true else s.flag f) ∧ tagBack s t c.desc) ∧
    (∀ c : RCur, s.rcur e p = some c → reOp c.desc.bits.toNat = 10 → c.ready = false →
      let d := c.desc.bits.toNat
      ((c.bound = false ∧ s.partRuns p = true) ∨ s.orderCount p (reTable d) ≠ 0 →
        exec (.migrateCopy e p) s = .next s) ∧
      (∀ n u, c.bound = true ∨ s.partRuns p = false → s.orderCount p (reTable d) = 0 → c.err = 0 →
        (migrateEntry e p c).run (reHow d) s = some (.ok (), u) → (rdEntry p d c.next).look s = .ok n →
        s.routable (bits n 40 17) = true → (∀ x ∈ c.todo, ∀ k ∈ x.2, s.routable (hDstDev k.h) = true) →
        Answers (exec (.migrateCopy e p) s) fun t => t.mem = u.mem ∧ ∃ fs, t.fwd = s.fwd ++ fs ∧
          fs.map (fun f => (f.part, f.table, f.row, f.dev, f.dpart, f.slot, f.copier)) =
            ([reTable d] ++ if reTable2 d = 0xFF then [] else [reTable2 d]).map (fun q =>
              (p, q, bits n 0 40, bits n 40 17, bits n 57 5, bits n 64 32, some (e, c.next)))))

/-- R126, R145, R190, R224, R225, R269: A COPY between lofts, of one row or of several that do not overlap, writes exactly
the destination rows with the source rows; a one-row COMPRESS writes the runs and their two pointers, an EXPAND of one
row the dense row; a COPY, COMPRESS or EXPAND that touches HBM performs its work once its sectors have their turn; a COPY
to another module sends its packets under one tag; a descriptor with nothing outstanding completes, sets its flag alone
and gives its tag back, and waits otherwise.  That the work falls at one start is the model's reading (assumption log
56). -/
def Obligations.DmaDescriptors : Prop :=
  ∀ (s : State) (sh : Nat), sh < 32 →
    (∀ (d : Desc) (rest : List Desc), (s.dma sh).queue = d :: rest → (s.dma sh).cur = none →
      (s.shed sh).asleep = false →
      let c := d.bits.toNat
      let u := (s.modDma sh (fun x => { x with queue := rest })).touch sh
      let n := dmBytes c
      let runs (size : Nat) (t : State) : Prop := (t.dma sh).queue = rest ∧
        ∃ y, (t.dma sh).cur = some y ∧ y.desc = d ∧ y.size = size ∧ y.tags = [] ∧ y.err = 0
      (∀ i j a b : Nat, reOp c = 1 → dmRemote c = false → s.owns d.part i = true → s.owns d.part j = true →
        i < 32 → j < 32 → 1 ≤ dmRows c →
        dmSrc c = 2 ^ 32 + i * 2 ^ 25 + a → dmDst c = 2 ^ 32 + j * 2 ^ 25 + b →
        a + (dmRows c - 1) * dmSpitch c + n ≤ 2 ^ 25 → b + (dmRows c - 1) * dmDpitch c + n ≤ 2 ^ 25 →
        dmRows c = 1 ∨ (n ≤ dmDpitch c ∧ (i ≠ j ∨ a + (dmRows c - 1) * dmSpitch c + n ≤ b ∨
          b + (dmRows c - 1) * dmDpitch c + n ≤ a)) →
        Answers (exec (.dmaDescriptorStart sh) s) fun t =>
          (∀ r k, r < dmRows c → k < n →
            t.byte (loftKey j (b + r * dmDpitch c) + k) = s.byte (loftKey i (a + r * dmSpitch c) + k)) ∧
          (∀ k, (∀ r l, r < dmRows c → l < n → k ≠ loftKey j (b + r * dmDpitch c) + l) → t.byte k = s.byte k) ∧
          runs ((dmRows c - 1) * dmDpitch c + n) t ∧ t.objs = s.objs ∧ t.stalls = s.stalls) ∧
      (∀ i j a b q : Nat, reOp c = 2 → dmRemote c = false → dmThresh c ≠ 0xFF → s.owns d.part i = true →
        s.owns d.part j = true → i < 32 → j < 32 → dmRows c = 1 → dmEsize c ∈ [1, 2, 4] →
        dmSrc c = 2 ^ 32 + i * 2 ^ 25 + a → dmDst c = 2 ^ 32 + j * 2 ^ 25 + b → dmPtr c = 2 ^ 32 + j * 2 ^ 25 + q →
        a + n ≤ 2 ^ 25 → b + dmCap c ≤ 2 ^ 25 → q + 8 ≤ 2 ^ 25 → (q + 8 ≤ b ∨ b + dmCap c ≤ q) →
        (i ≠ j ∨ ((a + n ≤ b ∨ b + dmCap c ≤ a) ∧ (a + n ≤ q ∨ q + 8 ≤ a))) →
        let z := dmEsize c
        let es := (List.range (n / z)).map (fun k => (k, s.loftNum i (a + z * k) z))
        let nz := es.filter (fun e => e.2 ≠ 0)
        let out := rowRuns z (if nz.length * 100 < dmThresh c * (n / z) then nz else es)
        (out.length ≤ dmCap c → Answers (exec (.dmaDescriptorStart sh) s) fun t =>
          t.loft j b out.length = out ∧ t.loftNum j q 4 = 0 ∧ t.loftNum j (q + 4) 4 = out.length ∧
          (∀ k, ¬(loftKey j b ≤ k ∧ k < loftKey j b + out.length) → ¬(loftKey j q ≤ k ∧ k < loftKey j q + 8) →
            t.byte k = s.byte k) ∧ runs out.length t) ∧
        (dmCap c < out.length → Answers (exec (.dmaDescriptorStart sh) s) fun t => (t.dma sh).cur = none ∧
          (t.dma sh).queue = rest ∧ t.obj (kReStatus d.part) / 2 ^ 16 % 2 ^ 16 = 0x070D ∧ tagBack s t d)) ∧
      (∀ (i j a b q : Nat) (es : List (Nat × Nat)), reOp c = 3 → dmRemote c = false → s.owns d.part i = true →
        s.owns d.part j = true → i < 32 → j < 32 → dmRows c = 1 → dmEsize c ∈ [1, 2, 4] →
        dmSrc c = 2 ^ 32 + i * 2 ^ 25 + a → dmDst c = 2 ^ 32 + j * 2 ^ 25 + b → dmPtr c = 2 ^ 32 + i * 2 ^ 25 + q →
        q + 8 ≤ 2 ^ 25 → b + n ≤ 2 ^ 25 → n % dmEsize c = 0 →
        let z := dmEsize c
        let r0 := s.loftNum i q 4
        let r1 := s.loftNum i (q + 4) 4
        r0 ≤ r1 → r0 % 4 = 0 → r1 % 4 = 0 → a + r1 ≤ 2 ^ 25 → parseRow z (r1 - r0) (s.loft i (a + r0) (r1 - r0)) = some es →
        (∀ e ∈ es, e.1 < n / z) →
        Answers (exec (.dmaDescriptorStart sh) s) fun t =>
          (∀ k, k < n / z → t.loftNum j (b + z * k) z = match es.find? (fun e => e.1 = k) with
            | some e => e.2
            | none => 0) ∧
          (∀ k, ¬(loftKey j b ≤ k ∧ k < loftKey j b + n) → t.byte k = s.byte k) ∧ runs n t) ∧
      (dmRemote c = false →
        let work := (match reOp c with
          | 1 => copyWork d.part c
          | 2 => compressWork d.part c
          | _ => expandWork d.part c).run plainly u
        (work = none → exec (.dmaDescriptorStart sh) s = .next s) ∧
        ∀ m v, work = some (.ok m, v) → Answers (exec (.dmaDescriptorStart sh) s) fun t => t.mem = v.mem ∧
          ∃ y, (t.dma sh).cur = some y ∧ y.desc = d ∧ y.size = m ∧ y.tags = [] ∧ y.err = 0) ∧
      (dmRemote c = true → s.freeTag = none → exec (.dmaDescriptorStart sh) s = .next s) ∧
      (∀ ps v g, dmRemote c = true → (copyPackets d.part c).run plainly u = some (.ok ps, v) → ps ≠ [] →
        s.freeTag = some g → s.routable (dmDev c) = true → Answers (exec (.dmaDescriptorStart sh) s) fun t =>
          t.mem = v.mem ∧ (∃ y, (t.dma sh).cur = some y ∧ y.desc = d ∧ y.tags = [g]) ∧
          (∃ x ∈ t.fabric.tags, x.tag = g ∧ x.use = .dma sh none))) ∧
    (∀ (c : RCur), (s.dma sh).cur = some c →
      let d := c.desc.bits.toNat
      (c.tags ≠ [] → exec (.dmaDescriptorComplete sh) s = .next s) ∧
      (c.tags = [] → c.err = 0 → dCmpl d < 2 → Answers (exec (.dmaDescriptorComplete sh) s) fun t =>
        (t.dma sh).cur = none ∧ (t.dma sh).queue = (s.dma sh).queue ∧ t.mem = s.mem ∧
        (∀ f, t.flag f = if dCmpl d = 1 ∧ f = dIndex d then true else s.flag f) ∧ tagBack s t c.desc))

/-- R255, R256, R257, R258, R260, R261, R262, R264, R277, R292, R366: A port that is up starts a queued packet whose
credits it holds, unless the throttle takes the slot, and sends the next 232 bytes under the next SEQ, with the SEQ of the
last flit received in order, and keeps them; the expected flit is accepted, its packet admitted by the entries of now, or
queued to go on; an old one is discarded; a bad CRC or gap asks for a replay; an unacknowledged flit is sent again after 2
us and the 17th replay in a row retrains; the FEC's counts are kept.  The ACK beside a NAK is the model's reading
(assumption log 47). -/
def Obligations.FlitsInOrder : Prop :=
  ∀ (s : State) (k : Nat), k < 12 →
    let x := s.port k
    let ack := if x.nak then (x.rxSeq.toNat + 65535) % 65536 else x.lastAck.toNat
    let sent (t : State) (seq : BitVec 16) : Prop :=
      ∃ f, (t.port k).out = x.out ++ [f] ∧ f.toNat % 2 ^ 16 = seq.toNat ∧ f.toNat / 2 ^ 16 % 2 ^ 16 = ack
    (x.phase = .up → x.resume = false → x.resend = 0 → x.await = false → x.replay.length < 4096 →
      (x.txq = [] →
        let bytes := x.tx.flatMap Prod.snd
        Answers (exec (.flitSend k) s) fun t => sent t x.txSeq ∧ t.mem = s.mem ∧
          (bytes = [] → (t.port k).txSeq = x.txSeq ∧ (t.port k).replay = x.replay) ∧
          (bytes ≠ [] → (t.port k).txSeq = x.txSeq + 1 ∧ ((t.port k).tx.flatMap Prod.snd) = bytes.drop 232 ∧
            ∃ r, (t.port k).replay = x.replay ++ [r] ∧ r.seq = x.txSeq ∧ r.area = bytes.take 232 ∧ r.time = s.clock)) ∧
      (∀ q, x.txq = [q] → x.tx = [] →
        let l := laneOf q.pkt.h
        let bytes := q.pkt.stream
        (x.slot + s.power.mt < 16 → q.pkt.cost ≤ x.credit l → Answers (exec (.flitSend k) s) fun t => sent t x.txSeq ∧
          (t.port k).txq = [] ∧ (t.port k).credit l = x.credit l - q.pkt.cost ∧ (t.port k).txSeq = x.txSeq + 1 ∧
          ((t.port k).tx.flatMap Prod.snd) = bytes.drop 232 ∧
          ∃ r, (t.port k).replay = x.replay ++ [r] ∧ r.seq = x.txSeq ∧ r.area = bytes.take 232 ∧ r.time = s.clock) ∧
        (16 ≤ x.slot + s.power.mt ∨ x.credit l < q.pkt.cost → Answers (exec (.flitSend k) s) fun t =>
          (t.port k).txq = [q] ∧ (t.port k).credit l = x.credit l ∧ (t.port k).replay = x.replay))) ∧
    (x.linked = true → x.resume = false → x.await = false → ∀ r, 0 < x.resend → x.resend ≤ x.replay.length →
      x.replay[x.replay.length - x.resend]? = some r → Answers (exec (.flitSend k) s) fun t => sent t r.seq ∧
        (t.port k).resend = x.resend - 1 ∧ (t.port k).txSeq = x.txSeq ∧
        (t.port k).replay.length = x.replay.length) ∧
    (∀ (f : BitVec 2048) (fixed lost : Nat), x.linked = true →
      let b := toBytes 256 f.toNat
      let l := linkField (ofBytes (b.take 16))
      let area := ((b.drop 16).take 232).take (min 232 l.fill)
      let good := crc64 (b.take 248) = ofBytes (b.drop 248)
      let back := (x.rxSeq.toNat + 65536 - l.seq) % 65536
      let go := exec (.flitReceive k (f, fixed, lost)) s
      Answers go (fun t => t.obj (kPort k 7) = sat32 (s.obj (kPort k 7)) fixed ∧
        t.obj (kPort k 8) = sat32 (s.obj (kPort k 8)) lost ∧ t.mem = s.mem) ∧
      (¬ good → x.skipping = false → Answers go fun t => (t.port k).rxSeq = x.rxSeq ∧
        (t.port k).rx = x.rx ∧ (t.port k).nak = true ∧ t.obj (kPort k 6) = sat32 (s.obj (kPort k 6)) 1) ∧
      (good → l.ftype = 1 → l.nak = true → l.nrdy = true → Answers go fun t => (t.port k).phase = .notReady ∧
        (t.port k).rxSeq = x.rxSeq ∧ t.obj (kPort k 9) = sat32 (s.obj (kPort k 9)) 1) ∧
      (good → l.ftype = 0 → l.nak = false → s.intakeClosed = false →
        (back = 0 → (cutPackets 40 (x.rx ++ area)).1 = [] → Answers go fun t =>
          (t.port k).rxSeq = x.rxSeq + 1 ∧ (t.port k).lastAck = x.rxSeq ∧ (t.port k).rx = x.rx ++ area ∧
          (t.port k).ing = x.ing) ∧
        (back = 0 → ∀ p, (cutPackets 40 (x.rx ++ area)).1 = [p] →
          (hDstDev p.h = s.device → Answers go fun t => (t.port k).rxSeq = x.rxSeq + 1 ∧ (t.port k).ret = x.ret ∧
            (t.port k).ing = x.ing ++ [{ pkt := p, stamp := s.ctr, code := s.admission p.h, busy := false }]) ∧
          (∀ n, hDstDev p.h ≠ s.device → s.twins (hDstDev p.h) = [n] → Answers go fun t =>
            (t.port k).rxSeq = x.rxSeq + 1 ∧ (t.port k).ret = x.ret ∧ (t.port k).ing = x.ing ∧
            (t.port n).txq = (s.port n).txq ++ [{ pkt := p, came := some k }])) ∧
        (0 < back → back ≤ 32768 → Answers go fun t => (t.port k).rxSeq = x.rxSeq ∧
          (t.port k).rx = x.rx ∧ (t.port k).ing = x.ing ∧ (t.port k).nak = x.nak) ∧
        (32768 < back → x.skipping = false → Answers go fun t => (t.port k).rxSeq = x.rxSeq ∧
          (t.port k).rx = x.rx ∧ (t.port k).nak = true)) ∧
      (good → l.ftype = 0 → l.nak = false → s.intakeClosed = true → Answers go fun t =>
        (t.port k).rxSeq = x.rxSeq ∧ (t.port k).rx = x.rx ∧ (t.port k).nak = true ∧ (t.port k).nrdy = true)) ∧
    (∀ r rest, x.replay = r :: rest → x.phase = .up → x.resend = 0 → r.time + 2000 ≤ s.clock →
      (x.count = 0 ∨ x.start ≠ r.seq ∨ x.count < 16 → Answers (exec (.replayTimeout k) s) fun t =>
        (t.port k).resend = x.replay.length ∧ (t.port k).phase = .up ∧
        t.obj (kPort k 4) = sat32 (s.obj (kPort k 4)) 1 ∧ t.mem = s.mem) ∧
      (16 ≤ x.count → x.start = r.seq → Answers (exec (.replayTimeout k) s) fun t => (t.port k).phase = .training ∧
        (t.port k).replay = x.replay ∧ t.obj (kPort k 5) = sat32 (s.obj (kPort k 5)) 1)) ∧
    (x.phase = .notReady → x.nrdyAt + 100000 ≤ s.clock → Answers (exec (.nrdyRetry k) s) fun t =>
      (t.port k).resend = x.replay.length ∧ (t.port k).count = x.count ∧ t.objs = s.objs ∧ t.mem = s.mem)

/-- R259, R262, R275, R279, R280, R292: A training attempt brings the link up or doubles its wait up to 1 s; a link that
goes down keeps its packets, and SYNCED goes with the last route to the root; after FAILOVER_MS a flow of the port leaves
by its twin once no flit of it is unacknowledged here, and by this port until then, its queued packets with it, and back
again by this port once it is up; a time exchange measures the link's delay as half the round trip, and one with a parent
steps fabric time before the first Summer or by more than 1 ms ahead, and otherwise slews it.  How an odd round trip is
halved is open (assumption log 3); that the exchange carries its timestamps is the model's reading (assumption log
27). -/
def Obligations.LinksAndTime : Prop :=
  ∀ (s : State) (k : Nat), k < 12 →
    let x := s.port k
    let own (f : Flow) (a b : Nat) : Nat := if (f.1 + f.2.1 + f.2.2) % 2 = 0 then a else b
    (∀ (ok : Bool) (dev port : Nat), x.phase = .training ∨ x.phase = .waiting → x.nextTry ≤ s.clock →
      bit (s.obj (kPort k 2)) 0 = true → Answers (exec (.trainingAttempt k ok dev port) s) fun t => t.mem = s.mem ∧
        t.obj (kPort k 3) = sat32 (s.obj (kPort k 3)) 1 ∧ (t.port k).replay = x.replay ∧ (t.port k).txq = x.txq ∧
        (∀ j, j ≠ k → t.port j = s.port j) ∧
        (ok = true → (t.port k).phase = .up ∧ (t.port k).trained = true ∧ (t.port k).resume = true ∧
          (t.port k).partner = dev % 2 ^ 17 + port % 16 * 2 ^ 17 + 2 ^ 31 ∧
          ∀ l, (t.port k).owed l = if x.trained = false ∧ l < 17 then laneSize l else x.owed l) ∧
        (ok = false → (t.port k).phase = .waiting ∧ (t.port k).nextTry = s.clock + x.backoff ∧
          (t.port k).backoff = min (2 * x.backoff) 1000000000)) ∧
    (∀ (ok : Bool) (dev port : Nat), (x.phase ≠ .training ∧ x.phase ≠ .waiting) ∨ s.clock < x.nextTry ∨
      bit (s.obj (kPort k 2)) 0 = false → exec (.trainingAttempt k ok dev port) s = .next s) ∧
    (x.linked = true → Answers (exec (.linkDown k) s) fun t => (t.port k).phase = .training ∧
      (t.port k).replay = x.replay ∧ (t.port k).txq = x.txq ∧ (t.port k).tx = x.tx ∧ (t.port k).rx = x.rx ∧
      (t.port k).ing = x.ing ∧ (t.port k).rxSeq = x.rxSeq ∧ (t.port k).txSeq = x.txSeq ∧ (t.port k).nextTry = s.clock ∧
      (t.port k).downAt = s.clock ∧ t.obj (kPort k 5) = sat32 (s.obj (kPort k 5)) 1 ∧ t.mem = s.mem ∧
      t.fabric.synced = (s.fabric.synced && (bit (s.obj kTimeCtrl) 0 || t.timeRoute)) ∧
      ∀ j, j ≠ k → t.port j = s.port j) ∧
    (x.linked = false → exec (.linkDown k) s = .next s) ∧
    (x.linked = false → x.downAt + s.obj kFailoverMs * 1000000 ≤ s.clock → Answers (exec (.failover k) s) fun t =>
      (t.port k).moved = true ∧ (t.port k).replay = x.replay ∧ t.mem = s.mem ∧ t.objs = s.objs ∧
      ∀ (f : Flow) (a b : Nat) (r : List Nat), s.twins f.2.1 = a :: b :: r → own f a b = k → f.2.1 ≠ s.device →
        let o := if k = a then b else a
        (x.holds f = true → t.routePort f = some k) ∧
        (x.holds f = false → t.routePort f = some o ∧
          ∀ q ∈ x.txq, hFlow q.pkt.h = f → q ∈ (t.port o).txq ∧ (o ≠ k → q ∉ (t.port k).txq))) ∧
    (x.linked = true ∨ s.clock < x.downAt + s.obj kFailoverMs * 1000000 → exec (.failover k) s = .next s) ∧
    (x.linked = true → Answers (exec (.flowMoveBack k) s) fun t => (t.port k).moved = false ∧
      (t.port k).replay = x.replay ∧ t.mem = s.mem ∧ t.objs = s.objs ∧
      ∀ (f : Flow) (a b : Nat) (r : List Nat), s.twins f.2.1 = a :: b :: r → own f a b = k → f.2.1 ≠ s.device → a ≠ b →
        let o := if k = a then b else a
        o < 12 →
        ((s.port o).holds f = true → t.routePort f = some o) ∧
        ((s.port o).holds f = false → t.routePort f = some k)) ∧
    (x.linked = false → exec (.flowMoveBack k) s = .next s) ∧
    (∀ sent rcvd back : Nat, x.linked = true → s.season.phase ≠ .noPower →
      (∀ t0, x.timedAt = some t0 → s.clock < t0 + 1000000 → exec (.timeExchange k sent (rcvd, back)) s = .next s) ∧
      ((∀ t0, x.timedAt = some t0 → t0 + 1000000 ≤ s.clock) → Answers (exec (.timeExchange k sent (rcvd, back)) s) fun t =>
        let trip := s.time - sent - (back - rcvd)
        let d := (t.port k).delay
        let at_ := back + d
        (d = trip / 2 ∨ trip % 2 = 1 ∧ d = trip / 2 + 1) ∧ (t.port k).timedAt = some s.clock ∧
        (t.port k).phase = x.phase ∧ t.mem = s.mem ∧ t.objs = s.objs ∧
        (bit (s.obj kTimeCtrl) 0 = true ∨ k ∉ s.twins (bits (s.obj kTimeCtrl) 1 17) →
          t.time = s.time ∧ t.fabric = s.fabric) ∧
        (bit (s.obj kTimeCtrl) 0 = false → k ∈ s.twins (bits (s.obj kTimeCtrl) 1 17) →
          t.fabric.synced = true ∧ t.fabric.offset = BitVec.ofInt 32 ((at_ : Int) - s.time) ∧
          (s.season.everSummer = false ∨ s.time + 1000000 < at_ → t.time = at_ ∧ t.fabric.slew = 0) ∧
          (s.season.everSummer = true → at_ ≤ s.time + 1000000 → t.time = s.time ∧
            t.fabric.slew = (at_ : Int) - s.time))))

/-- R219, R245, R246, R251, R263, R267, R268, R269, R270, R271, R277: An admitted WRITE stores its payload and no other
byte and leaves its buffer; a READ answers the bytes, to a requester here or on another module, and changes none; a packet
that was refused on arrival changes no memory; a packet for a row that has moved is sent on, and one for a row that is
being copied waits; a row add does what the table's home does, and nothing when it is refused; a response of no held tag
is discarded as stray; a trailer acts on its flag once its transfer is whole.  That such a packet waits while an engine it
reaches is not idle is the model's choice (assumption log 50); which raw packets go on is its reading (assumption log
17). -/
def Obligations.PacketsToMemory : Prop :=
  ∀ s : State, (∀ (k j : Nat) (e : Arrived), k ≤ 12 → (s.port k).ing[j]? = some e → e.busy = false →
    s.waitsFor k e = false →
    let p := e.pkt
    let h := p.h
    let q := hDstPart h
    let s0 := s.unload k e.stamp p
    let table := bits (hAux h) 0 8
    let row := s.fwd.find? (fun f => decide (f.part = q ∧ f.table = table ∧ f.row = hRow h))
    let left (t : State) : Prop := k ≠ 12 → (t.port k).ing = (s.port k).ing.filter (fun v => decide (v.stamp ≠ e.stamp)) ∧
      (t.port k).owed (laneOf h) = (s.port k).owed (laneOf h) + p.cost
    (hKind h = 0 → s.writeCode e = 0 → s.oldRow q (hAddr h) p.pay.length = none → s.idleHbm →
      ∀ ks, s.hbmRange q (hAddr h) p.pay.length = some ks → ks.Nodup → (∀ a ∈ ks, s.check (a / 32) = 0) →
      Answers (exec (.pktWrite k j) s) fun t =>
        (∀ (i a : Nat), ks[i]? = some a → some (t.byte a) = p.pay[i]?) ∧ (∀ a, a ∉ ks → t.byte a = s.byte a) ∧ left t) ∧
    (hKind h = 0 → e.code ≠ 0 → Answers (exec (.pktWrite k j) s) fun t => t.mem = s.mem ∧ t.sheds = s.sheds ∧ left t) ∧
    (∀ f, hKind h = 0 → s.writeCode e = 0 → s.oldRow q (hAddr h) p.pay.length = some f →
      (f.copier ≠ none → exec (.pktWrite k j) s = .next s) ∧
      (f.copier = none → Answers (exec (.pktWrite k j) s) fun t => t.mem = s.mem ∧ t.engines = s.engines)) ∧
    (hKind h = 1 → hSub h = 0 → e.code = 0 → s.readMoved h = none → s.idleHbm →
      ∀ ks, s.hbmRange q (hAddr h) (bits (hAux h) 0 32) = some ks →
      32 ≤ bits (hAux h) 0 32 → bits (hAux h) 0 32 ≤ 4096 → bits (hAux h) 0 32 % 32 = 0 → hAddr h + bits (hAux h) 0 32 ≤ 2 ^ 48 →
      (∀ a ∈ ks, s.check (a / 32) = 0) → Answers (exec (.pktRead k j) s) fun t => t.mem = s.mem ∧
        ∃ r : Packet, r.pay = ks.map s.byte ∧ hKind r.h = 2 ∧ hTag r.h = hTag h ∧ hErr r.h = false ∧
          hDstPart r.h = hSrcPart h ∧ hDstDev r.h = hSrcDev h ∧
          (hSrcDev h = s.device → ∃ a, (t.port 12).ing = (s0.port 12).ing ++ [a] ∧ a.pkt = r) ∧
          (∀ n, hSrcDev h ≠ s.device → s.routePort (hFlow r.h) = some n →
            (t.port n).txq = (s.port n).txq ++ [{ pkt := r, came := none }])) ∧
    (hKind h = 1 → e.code ≠ 0 → Answers (exec (.pktRead k j) s) fun t => t.mem = s.mem ∧ left t) ∧
    (hKind h = 3 → e.code = 0 → row = none →
      ((servedAdd p).run plainly s0 = none → exec (.pktRowAtomic k j) s = .next s) ∧
      (∀ b u, (servedAdd p).run plainly s0 = some (.ok b, u) → Answers (exec (.pktRowAtomic k j) s) fun t =>
        t.mem = u.mem ∧ t.parts = u.parts) ∧
      (∀ c u, (servedAdd p).run plainly s0 = some (.error c, u) → Answers (exec (.pktRowAtomic k j) s) fun t =>
        t.mem = u.mem ∧ t.parts = s.parts) ∧
      (tdKind (s.obj (kTable q table)) ≠ 4 → Answers (exec (.pktRowAtomic k j) s) fun t => t.mem = s.mem)) ∧
    (∀ f, hKind h = 3 → e.code = 0 → row = some f →
      (f.copier ≠ none → exec (.pktRowAtomic k j) s = .next s) ∧
      (f.copier = none → Answers (exec (.pktRowAtomic k j) s) fun t => t.mem = s.mem ∧ t.parts = s.parts)) ∧
    (hKind h = 2 → e.code = 0 → s.tagOf h = none → exec (.pktReadResp k j) s = .next s0.stray) ∧
    (hKind h = 2 → e.code = 0 → hErr h = false → ∀ (g : Tag) (i p' tb r len idx : Nat), s.tagOf h = some g →
      g.use = .row i p' tb r len idx →
      (g.got.map (fun b => b.2.length)).sum + p.pay.length < len → Answers (exec (.pktReadResp k j) s) fun t =>
        t.fabric.tags = s.fabric.tags.map (fun u => if u.tag = g.tag
          then { u with got := g.got ++ [(bits (hAux h) 0 32, p.pay)] } else u) ∧ t.mem = s.mem ∧
        t.engines = s.engines ∧ left t)) ∧
    (∀ (n i : Nat) (g : Trailer) (w : BitVec 256), s.fabric.trailers[n]? = some g → g.trailer = some w →
      (g.total ≠ some g.bytes → exec (.flagOnLastTrailer n) s = .next s) ∧
      (g.total = some g.bytes → trOp w < 2 → s.resolveHere g.dpart (s.localForm (trTarget w)) [2] = .plain 2 i →
        Answers (exec (.flagOnLastTrailer n) s) fun t => t.fabric.trailers = s.fabric.trailers.eraseIdx n ∧
          t.mem = s.mem ∧ ∀ f, t.flag f = if f = i then decide (trOp w = 0) else s.flag f))

/-- R126, R137, R139, R149, R218, R229, R267, R269, R270, R271, R272, R326: Remote pushes enter queues and mailboxes as
local ones do, a watch's event as such; a flag operation enters the control mesh; a result reaches the stall that waits for
it and an accepted watch event frees its slot; an acknowledgement, a refusal or a timeout ends the transaction that holds
its tag, of a stall, a row or DMA descriptor or a mirror; an acknowledgement of no tag is counted as stray; a management
request keeps its buffer and waits for the ostler where it is enabled.  What the messages carry beyond R267 is the model's
choice (assumption logs 19, 48). -/
def Obligations.Messages : Prop :=
  ∀ s : State,
    let fails (g : Tag) (code : Nat) (t : State) : Prop :=
      let rest (c : RCur) := c.tags.filter (· ≠ g.tag)
      (∀ n, g.use = .mirror n → (t.part n).mirror.fail = true ∧
        (t.part n).mirror.tags = (s.part n).mirror.tags.filter (· ≠ g.tag)) ∧
      (∀ sh tr c, g.use = .dma sh tr → (s.dma sh).cur = some c →
        (t.dma sh).cur = some { c with tags := rest c, err := 0x070F, errIdx := 0, fcode := code }) ∧
      (∀ e q i c, (g.use = .write e q i ∨ ∃ tb r len, g.use = .row e q tb r len i) → s.rcur e q = some c → c.err = 0 →
        (rest c ≠ [] →
          t.rcur e q = some { c with tags := rest c, err := 0x070F, errIdx := i, fcode := code, todo := [] }) ∧
        (rest c = [] → t.rcur e q = none ∧ t.obj (kReStatus c.desc.part) / 2 ^ 16 % 2 ^ 16 = 0x070F ∧
          tagBack s t c.desc)) ∧
      (∀ u n wt w (r : BitVec 5), g.use = .flag (.stall u n) wt → (s.stall u).waits.find? (fun w => decide (w.seq = n)) = some w →
        w.dst = some r.toNat → r ≠ 31 → (t.stall u).getG r = 0) ∧
      ((∀ r wt, g.use = .flag r wt → ∃ u n, r = .stall u n) →
        (∀ e q i c, (g.use = .write e q i ∨ ∃ tb r len, g.use = .row e q tb r len i) → s.rcur e q = some c → c.err = 0) →
        t.mem = s.mem ∧ t.fabric.tags = s.fabric.tags.filter (fun v => decide (v.tag ≠ g.tag)))
    (∀ (k j : Nat) (e : Arrived), k ≤ 12 → (s.port k).ing[j]? = some e → e.busy = false → e.code = 0 →
      s.waitsFor k e = false → (∀ v ∈ (s.port k).ing, v.stamp = e.stamp → v.busy = false) →
      let p := e.pkt
      let h := p.h
      let dp := hDstPart h
      let a := s.localForm (hAddr h)
      let left (t : State) : Prop := t.mem = s.mem ∧
        (k ≠ 12 → (t.port k).ing = (s.port k).ing.filter (fun v => decide (v.stamp ≠ e.stamp)))
      let ev := BitVec.ofNat 256 (ofBytes (slice p.pay 0 32))
      let push (c : Instr) (sub kind : Nat) (v : BitVec 256) : Prop := hKind h = 4 → hSub h = sub →
        uaLocal a = true → ∀ i, s.resolveHere dp a [3] = .plain 3 i → (∀ u ∈ s.pushes, u.queue ≠ i) →
          let q := (s.shed (i / 1024)).queue (i % 1024)
          qEnable q = true → (kind = 2 ∨ qJoined q = false ∧ (s.shed (i / 1024)).isPartner (i % 1024) = false ∧
            evReserved v = 0 ∧ evDelay v = 0) → s.dueTo (i / 1024) (.queue (i % 1024)) = false → q.items.length < qDepth q →
          Answers (exec c s) fun t => left t ∧ t.pushes = s.pushes ∧
            ((t.shed (i / 1024)).queue (i % 1024)).items = q.items ++ [eventOf q kind v s.ctr]
      push (.messageEvpush k j) 0 (if bit (hAux h) 0 then 1 else 0) ev ∧
      push (.messageHpush k j) 1 2 (BitVec.ofNat 256 (hAux h)) ∧
      (hKind h = 4 → hSub h = 2 → uaLocal a = true → ∀ i, s.resolveHere dp a [1] = .plain 1 i →
        (∀ u ∈ s.pushes, u.queue ≠ i) → evReserved ev = 0 → evDelay ev = 0 → s.dueTo (i / 32) (.mail i) = false →
        (s.stall i).mail.length < 16 → Answers (exec (.messageSend k j) s) fun t =>
          left t ∧ (t.stall i).mail = (s.stall i).mail ++ [eventOf Queue.reset 3 ev s.ctr]) ∧
      (hKind h = 5 → uaLocal a = true → ∀ i, s.resolveHere dp a [2] = .plain 2 i →
        (∀ m ∈ s.mesh, m.dev ≠ some (hSrcDev h) ∨ m.part ≠ hSrcPart h) → Answers (exec (.flagSetPacket k j) s) fun t =>
          left t ∧ t.sheds = s.sheds ∧ ∃ m, t.mesh = s.mesh ++ [m] ∧ m.target.toNat % 2 ^ 32 = i ∧
            m.dev = some (hSrcDev h) ∧ m.part = hSrcPart h ∧ (hSub h = 0 → m.op = .set ∧ m.reply = .none) ∧
            (hSub h = 1 → m.op = .clear ∧ m.reply = .none) ∧
            (2 ≤ hSub h → m.reply = .remote (hSrcDev h) (hSrcPart h) (hTag h) dp (BitVec.ofNat 64 (hAddr h)) ∧
              m.op = (if hSub h = 2 then .test else if hSub h = 3 then .watch else .cancel))) ∧
      (∀ sh id, hKind h = 4 → hSub h = 3 → s.firedOf h = some (.slot sh id) → Answers (exec (.messageResult k j) s) fun t =>
        left t ∧ (t.shed sh).watches = (s.shed sh).watches.filter (fun w => decide (w.id ≠ id)) ∧
        (∀ i, i ≠ sh → t.shed i = s.shed i) ∧ t.fabric.tags = s.fabric.tags) ∧
      (∀ g : Tag, s.tagOf h = some g → s.firedOf h = none →
        (∀ (u n : Nat) (wt : Option Nat) (w : Wait) (r : BitVec 5), hKind h = 4 → hSub h = 3 →
          g.use = .flag (.stall u n) wt → (wt = none ∨ hAux h ≠ 0) →
          (s.stall u).waits.find? (fun w => decide (w.seq = n)) = some w → w.dst = some r.toNat → r ≠ 31 →
          Answers (exec (.messageResult k j) s) fun t => left t ∧ (t.stall u).getG r = BitVec.ofNat 64 (hAux h) ∧
            t.fabric.tags = s.fabric.tags.filter (fun v => decide (v.tag ≠ g.tag))) ∧
        (hKind h = 4 → hSub h = 4 →
          (∀ n, g.use = .mirror n → Answers (exec (.messageAck k j) s) fun t => left t ∧
            (t.part n).mirror.tags = (s.part n).mirror.tags.filter (· ≠ g.tag) ∧
            (t.part n).mirror.fail = (s.part n).mirror.fail ∧
            t.fabric.tags = s.fabric.tags.filter (fun v => decide (v.tag ≠ g.tag))) ∧
          (∀ sh tr c, g.use = .dma sh tr → tr = none ∨ bit (hAux h) 0 = false → (s.dma sh).cur = some c →
            Answers (exec (.messageAck k j) s) fun t => left t ∧
              (t.dma sh).cur = some { c with tags := c.tags.filter (· ≠ g.tag) } ∧
              t.fabric.tags = s.fabric.tags.filter (fun v => decide (v.tag ≠ g.tag))) ∧
          (∀ i q n c, g.use = .write i q n → s.rcur i q = some c → c.ready = true → c.todo = [] → c.err = 0 →
            Answers (exec (.messageAck k j) s) fun t => left t ∧
              t.rcur i q = some { c with tags := c.tags.filter (· ≠ g.tag) } ∧
              t.fabric.tags = s.fabric.tags.filter (fun v => decide (v.tag ≠ g.tag)) ∧
              ((∀ v ∈ s.fabric.tags, v.tag ≠ g.tag → v.use ≠ .write i q n) → t.fwd = s.fwd.map (fun f =>
                if f.part = q ∧ f.copier = some (i, n) then { f with copier := none } else f)))) ∧
        (hKind h = 4 → hSub h = 5 → hCode h ≠ 0 → Answers (exec (.messageNack k j) s) fun t =>
          (k ≠ 12 → (t.port k).ing = (s.port k).ing.filter (fun v => decide (v.stamp ≠ e.stamp))) ∧
          fails g (hCode h) t)) ∧
      (hKind h = 4 → hSub h = 4 → s.tagOf h = none → Answers (exec (.messageAck k j) s) fun t => left t ∧
        t.obj kStray = sat32 (s.obj kStray) 1 ∧ t.fabric = s.fabric) ∧
      (hKind h = 7 → hSub h = 0 → Answers (exec (.mgmtRequest k j) s) fun t => left t ∧ (t.port k).ret = (s.port k).ret ∧
        t.host.llynQ =
          s.host.llynQ ++ [{ dev := hSrcDev h, part := hSrcPart h, msg := p.pay, port := k, pkt := p }])) ∧
    (∀ (k j : Nat) (e : Arrived), k ≤ 12 → (s.port k).ing[j]? = some e → e.busy = false → s.waitsFor k e = false →
      hKind e.pkt.h = 7 → e.code ≠ 0 → Answers (exec (.mgmtRequest k j) s) fun t =>
        t.host.llynQ = s.host.llynQ ∧ t.mem = s.mem) ∧
    (∀ (n : Nat) (g : Tag), s.tag? n = some g →
      (s.obj kTxnLimit = 0 ∨ s.clock ≤ g.since + s.obj kTxnLimit * 1000000 → exec (.transactionTimeout n) s = .next s) ∧
      (s.obj kTxnLimit ≠ 0 → g.since + s.obj kTxnLimit * 1000000 < s.clock →
        Answers (exec (.transactionTimeout n) s) fun t => fails g 0x0907 t))

/-- R56, R270, R284, R285, R286, R287, R288, R289: START begins the next instance and clears its flag unless that is also
the plan's DONE flag; a contribution is added into ACC, each element rounded once, or waits in OBUF for its rank's turn; a
result is written to DST; a chain sum is summed in or waits in OBUF for its instance; a sidecar is added; the last result
or sidecar completes the instance: SIDE_OUT is written and DONE set; a packet of no plan or no instance is logged, counted
and refused.  The layout of OBUF is the model's choice (assumption log 58), that a packet waits while an engine it reaches
is not idle another (assumption log 50). -/
def Obligations.Collectives : Prop :=
  ∀ s : State,
    (∀ p n : Nat, p < 32 → n < 64 →
      let d := s.planDesc p n
      let i := plStart d
      (plValid d = true → (s.plan p n).busy = false → i < 131072 → s.owns p (i / 4096) = true → s.flag i = true →
        (s.part p).phase = .running ∨ (s.part p).phase = .stopping → s.idleHbm →
        Answers (exec (.collectiveStart p n) s) fun t =>
          (t.plan p n).inst = (s.plan p n).inst + 1 ∧ (plDone d ≠ i → t.flag i = false)) ∧
      (s.flag i = false ∨ plValid d = false ∨ (s.plan p n).busy = true → exec (.collectiveStart p n) s = .next s)) ∧
    (∀ (p n d i v : Nat) (f : Fmt) (ks : List Nat), s.physRange p none (plAcc d + 4 * (i - plLo d (plRank d))) 4 = some ks →
      ks.Nodup → (∀ a ∈ ks, s.check (a / 32) = 0) →
      let t := s.addShard p n d f [(i, v)]
      ofBytes (ks.map t.byte) = fp32.encode ((fp32.decode (ofBytes (ks.map s.byte))).add (f.decode v)) ∧
      ∀ a, a ∉ ks → t.byte a = s.byte a) ∧
    (∀ (k j : Nat) (e : Arrived), k ≤ 12 → (s.port k).ing[j]? = some e → e.busy = false → s.waitsFor k e = false →
      hKind e.pkt.h = 6 →
      let pk := e.pkt
      let h := pk.h
      let p := hDstPart h
      let n := auxPlan (hAux h)
      let r := auxRank (hAux h)
      let d := s.planDesc p n
      let x := s.plan p n
      let s0 := s.unload k e.stamp pk
      let refused (c : Instr) (code : Nat) : Prop := exec c s = .next (s0.strayColl k h code)
      let cs := codes (plOfmt d) pk.pay
      let dst := s0.poke p (plDst d + fsize (plOfmt d) * hAddr h) pk.pay
      -- the instance is whole: SIDE_OUT, the totals of a plan of the verdict engine, DONE
      let whole (u t : State) (tot : PlanTot) : Prop :=
        t.mem = (u.poke p (plSideOut d) (sideOut { tot with inst := x.inst - 1 })).mem ∧ (t.plan p n).busy = false ∧
        (t.plan p n).hist = (if s.inVplans p n then x.hist ++ [{ tot with inst := x.inst - 1 }] else []) ∧
        ∀ f, t.flag f =
          if f = plDone d ∧ plDone d < 131072 ∧ s.owns p (plDone d / 4096) = true then true else s.flag f
      (s.collCode e ≠ 0 → (hSub h = 0 → refused (.collectiveContribution k j) (s.collCode e)) ∧
        (hSub h = 1 → refused (.collectiveResult k j) (s.collCode e)) ∧
        (hSub h = 2 → refused (.collectiveChainSum k j) (s.collCode e)) ∧
        (hSub h = 3 → refused (.collectiveSidecar k j) (s.collCode e))) ∧
      (s.collCode e = 0 →
        (hSub h = 0 → plMode d ≠ 2 → r < plN d → auxInst (hAux h) = x.zeroed % 2 ^ 41 → s.idleHbm → ∀ es c,
          contribElems d pk = some (es, c) →
          (plMode d ≠ 1 ∨ x.turn d = some r → x.buffered = [] → x.busy = false →
            Answers (exec (.collectiveContribution k j) s) fun t =>
              t.mem = (s0.addShard p n d (ffmt (plIfmt d)) es).mem ∧ (t.plan p n).gotOf r = x.gotOf r + c ∧
              (t.plan p n).nfIn = (x.nfIn || hNf h) ∧ t.sheds = (s0.addShard p n d (ffmt (plIfmt d)) es).sheds) ∧
          (plMode d = 1 → x.turn d ≠ some r →
            exec (.collectiveContribution k j) s = .next (s0.bufferContrib p n d pk) ∧
            ((s0.bufferContrib p n d pk).plan p n).buffered =
              x.buffered ++ [{ hdr := pk.hdr, els := es.map Prod.fst, count := c }])) ∧
        (hSub h = 0 → plMode d = 2 ∨ plN d ≤ r ∨ auxInst (hAux h) ≠ x.zeroed % 2 ^ 41 →
          refused (.collectiveContribution k j) 0x0909) ∧
        (hSub h = 1 → x.isNow h = true → plMode d ≠ 2 → hAddr h + cs.length ≤ plElems d → s.idleHbm →
          (x.held + cs.length < plElems d → Answers (exec (.collectiveResult k j) s) fun t =>
            t.mem = dst.mem ∧ (t.plan p n).held = x.held + cs.length ∧ (t.plan p n).busy = true) ∧
          (plElems d ≤ x.held + cs.length → plSides d ≤ x.sides →
            Answers (exec (.collectiveResult k j) s) fun t => whole dst t x.tot)) ∧
        (hSub h = 1 → x.isNow h = false → refused (.collectiveResult k j) 0x0909) ∧
        (hSub h = 2 → plMode d = 2 → hAddr h + cs.length ≤ plElems d → x.isNow h = true → plRank d + 1 = plN d →
          x.held + cs.length < plElems d → s.idleHbm →
          Answers (exec (.collectiveChainSum k j) s) fun t =>
            t.mem = (s0.poke p (plDst d + fsize (plOfmt d) * hAddr h) ((chainSums d (hAddr h) x.src (some cs) cs.length).flatMap
              (fun e => toBytes (fsize (plOfmt d)) e.1))).mem ∧ (t.plan p n).held = x.held + cs.length) ∧
        (hSub h = 2 → plMode d = 2 → hAddr h + cs.length ≤ plElems d → x.isNow h = false → x.isNext h = true → s.idleHbm →
          exec (.collectiveChainSum k j) s = .next (s0.bufferChain p n d pk)) ∧
        (hSub h = 3 → plMode d ≠ 2 → x.isNow h = true →
          (x.sides + 1 < plSides d → exec (.collectiveSidecar k j) s =
            .next (s0.setPlan p n { x with tot := x.tot.add (sidecarOf pk.pay), sides := x.sides + 1 })) ∧
          (plSides d ≤ x.sides + 1 → plElems d ≤ x.held → s.idleHbm →
            Answers (exec (.collectiveSidecar k j) s) fun t => whole s0 t (x.tot.add (sidecarOf pk.pay)))) ∧
        (hSub h = 3 → x.isNow h = false → x.isNext h = true →
          exec (.collectiveSidecar k j) s = .next (s0.setPlan p n { x with early := x.early ++ [pk] })) ∧
        (hSub h = 3 → x.isNow h = false → x.isNext h = false → refused (.collectiveSidecar k j) 0x0909)))

/-- R187, R297, R300, R301, R302, R304, R306, R307, R348: VSTART opens the reduction and clears its flag alone; the scan
sums the squares of every element of every region, or reports a malformed one, writes c0 and starts the tail plan, and
waits while a due mirror has not committed; the verdict of a running partition writes VERDICT and the loss scale and
discards the run-ahead results of a skipped step and later ones; the close counts the step, flips the speculative groups
only when it commits, clears APPLY_DONE and leaves the engine idle.  That an entry of no rows is checked for its BASE and
pitch alone, and that FINITE_RUN stays at its limit, are the model's readings (assumption log 59), that the scan waits
while an engine it reaches is not idle its choice (assumption log 50). -/
def Obligations.TrainingStep : Prop :=
  ∀ (s : State) (p : Nat), p < 32 →
    let c := s.obj (kVerdictCfg p)
    let x := (s.part p).train
    (∀ f, s.cfgFlag p (vcVstart c) = some f → x.state = 1 → (s.part p).phase = .running → s.flag f = true →
      Answers (exec (.vstartDetected p) s) fun t => (t.part p).train = { x with state := 2 } ∧ t.mem = s.mem ∧
        ∀ g, t.flag g = if g = f then false else s.flag g) ∧
    (∀ f, s.cfgFlag p (vcVstart c) = some f → s.flag f = false → exec (.vstartDetected p) s = .next s) ∧
    ((∀ k, s.check k = 0) →
      let n := vcRegions c
      let es := (List.range n).map (fun i => field (s.seen p (vcList c) (16 * n)) (16 * i) 16)
      let rows (e : Nat) := (List.range (bits e 64 24)).map (fun i =>
        codes 0 (s.seen p (bits e 0 64 + i * (32 * bits e 104 24)) (4 * (bits e 88 16 + 1))))
      let r := s.scan p
      r.2.mem = s.mem ∧ (n = 0 → r.1 = (0, false, false)) ∧
      (n ≠ 0 → (s.mapped p none (vcList c) (16 * n) = false ∨ ∃ e ∈ es, s.badRegion p e = true) → r.1 = (0, true, true)) ∧
      (n ≠ 0 → s.mapped p none (vcList c) (16 * n) = true → (∀ e ∈ es, s.badRegion p e = false) →
        r.1 = (((es.flatMap rows).map (fun v => (squares v).1)).sum,
          (es.flatMap rows).any (fun v => (squares v).2 || v.any (nonfinite 0)), false))) ∧
    (x.state = 2 ∨ x.state = 5 → x.formed = false → (s.part p).phase = .running →
      (∀ n ∈ s.vplans p, n ≠ vcTail c → (s.plan p n).hist ≠ []) →
      let d := s.obj (kPlan p (vcTail c))
      let r := s.scan p
      (s.mirrorDue p (s.stepOf p + 1) = true → (s.part p).mirror.idle = false →
        Answers (exec (.regionScan p) s) fun t => (t.part p).train = { x with state := 5 } ∧ t.mem = s.mem) ∧
      (∀ f, s.mirrorDue p (s.stepOf p + 1) = false ∨ (s.part p).mirror.idle = true → s.idleHbm →
        s.cfgFlag p (plStart d) = some f → Answers (exec (.regionScan p) s) fun t => (t.part p).train.state = 3 ∧
          (t.part p).train.regionErr = r.1.2.2 ∧ t.flag f = true ∧
          t.mem = (r.2.poke p (plSideIn d) (toBytes 4 (s.cZero p r.1.1 r.1.2.1))).mem ∧
          ∀ n ∈ s.vplans p, n ≠ vcTail c → (t.plan p n).hist = (s.plan p n).hist.drop 1)) ∧
    (∀ (r : PlanTot) (rest : List PlanTot), x.state = 3 → (s.plan p (vcTail c)).hist = r :: rest →
      ((s.part p).phase ≠ .running → exec (.verdict p) s = .next s) ∧
      ((s.part p).phase = .running →
        let j := judge r (s.obj (kClipNorm p))
        let ls := nextScale (s.obj (kLsCtrl p)) (s.obj (kLossScale p)) x.finiteRun j.1
        Answers (exec (.verdict p) s) fun t => (t.plan p (vcTail c)).hist = rest ∧ t.obj (kLossScale p) = ls.1 ∧
          t.obj (kVerdict p) = vdWord j.1 j.2.1 x.regionErr j.2.2.1 j.2.2.2 ls.1 (s.stepOf p)
            (s.obj (kOptStep p) + if j.1 then 0 else 1) ∧
          (let y := (t.part p).train
           y.state = 4 ∧ y.formed = true ∧ y.nonfin = j.1 ∧ y.clipped = j.2.1 ∧ y.finiteRun = ls.2.1 ∧
           y.nonfinSeen = (x.nonfinSeen || j.1) ∧ y.lsFloor = (x.lsFloor || ls.2.2)) ∧
          (∀ sh ∈ s.shedsOf p, (t.sampler sh).held =
            if j.1 then (s.sampler sh).held.filter (fun a => decide (a.step < s.stepOf p)) else (s.sampler sh).held) ∧
          t.obj (kStep p) = s.obj (kStep p) ∧ t.obj (kOptStep p) = s.obj (kOptStep p) ∧ t.mem = s.mem)) ∧
    (x.formed = true → (∀ f, s.cfgFlag p (vcApply c) = some f → s.flag f = true) → (s.part p).phase = .running →
      (∀ q ∈ s.flipTables p, s.priorLive p q.1 = false) → Answers (exec (.stepBoundary p) s) fun t =>
        let n := x.nonfin
        t.obj (kOptStep p) = (if n then s.obj (kOptStep p) else (s.obj (kOptStep p) + 1) % 2 ^ 64) ∧
        t.obj (kStep p) = (if n && vcSkip c then s.obj (kStep p) else (s.obj (kStep p) + 1) % 2 ^ 64) ∧
        t.obj (kSkipCount p) = (if n then sat32 (s.obj (kSkipCount p)) 1 else s.obj (kSkipCount p)) ∧
        (∀ g ∈ s.specGroups p, grCur (t.obj (kGroup p g)) =
          if n then grCur (s.obj (kGroup p g)) else 1 - grCur (s.obj (kGroup p g))) ∧
        (∀ f, s.cfgFlag p (vcApply c) = some f → t.flag f = false) ∧ t.mem = s.mem ∧
        (let y := (t.part p).train; y.state = 1 ∧ y.formed = false ∧ y.finiteRun = x.finiteRun)) ∧
    (x.formed = false → exec (.stepBoundary p) s = .next s)

/-- R297, R307, R314, R316: A boundary that makes a mirror due takes its snapshot, of the live copies after it and under the
step after it; ALT_FREE is set once every former copy is no longer live and no mirror reads one, and not before; a mirror
that is due takes its slot and sends its snapshot; an acknowledged COMMIT commits it under its step; one that failed starts
again with the same snapshot and slot.  That the snapshot is taken of the bytes as they stand at the boundary is the
model's reading (assumption log 59), that the start waits while an engine its sources reach is not idle its choice
(assumption log 50). -/
def Obligations.MirrorAndAlternates : Prop :=
  ∀ (s : State) (p : Nat), p < 32 →
    let c := s.obj (kVerdictCfg p)
    let m := (s.part p).mirror
    let w := s.obj (kMirrorCfg p)
    ((s.part p).train.formed = true → (∀ f, s.cfgFlag p (vcApply c) = some f → s.flag f = true) →
      (s.part p).phase = .running → (∀ q ∈ s.flipTables p, s.priorLive p q.1 = false) →
      (s.part p).train.nonfin = false ∨ vcSkip c = false →
      Answers (exec (.stepBoundary p) s) fun t =>
        if s.mirrorDue p ((s.obj (kStep p) + 1) % 2 ^ 64) then ∃ d, (t.part p).mirror.waitSched = m.waitSched ++ [d] ∧
          d.step = (s.obj (kStep p) + 1) % 2 ^ 64 ∧ d.copies = (t.dueMirror p).copies ∧
          d.srcs = (t.dueMirror p).srcs ∧ d.snap = (t.dueMirror p).snap
        else (t.part p).mirror.waitSched = m.waitSched) ∧
    (∀ f, s.cfgFlag p (vcAltFree c) = some f → vcEnable c = true → s.flag f = false → (s.part p).phase = .running →
      s.specGroups p ≠ [] →
      let free := (∀ q ∈ s.flipTables p, s.priorLive p q.1 = false) ∧
        ∀ g ∈ s.specGroups p, m.reads g (1 - grCur (s.obj (kGroup p g))) = false
      (free → Answers (exec (.altFreeSet p) s) fun t => t.mem = s.mem ∧ t.parts = s.parts ∧
        ∀ g, t.flag g = if g = f then true else s.flag g) ∧
      (¬free → exec (.altFreeSet p) s = .next s)) ∧
    (∀ (g : Nat) (d : DueMirror), m.phase = 0 → m.nextDue = some d → s.routable (mcDev w) = true → s.freeTag = some g →
      s.idleHbm → (∀ k, s.check k = 0) → Answers (exec (.mirrorStart p) s) fun t => t.mem = s.mem ∧
        (let y := (t.part p).mirror
         y.phase = 1 ∧ y.slot = (if m.waitSched = [] then 2 else if m.slotOk then 1 - m.lastSlot else 0) ∧
         y.sched = !m.waitSched.isEmpty ∧ y.step = d.step ∧ y.copies = d.copies ∧
         y.snap = splice d.snap 4 (toBytes 1 y.slot) ∧ y.tags = m.tags ++ [g] ∧ y.fail = false ∧
         y.waitSched = m.waitSched.drop 1 ∧ y.waitNow = if m.waitSched = [] then none else m.waitNow)) ∧
    (m.phase = 3 → m.tags = [] → m.fail = false → Answers (exec (.mirrorCommit p) s) fun t =>
      (t.part p).mirror.phase = 0 ∧ t.mem = s.mem ∧
      (m.sched = true → t.obj (kMirrorStep p) = m.step ∧ (t.part p).mirror.slotOk = true ∧
        (t.part p).mirror.lastSlot = m.slot) ∧
      (m.sched = false → t.obj (kMirrorExtra p) = m.step ∧ (t.part p).mirror.extra = true)) ∧
    (∀ g, m.phase ≠ 0 → m.tags = [] → m.fail = true → s.routable (mcDev w) = true → s.freeTag = some g →
      Answers (exec (.mirrorFailed p) s) fun t => (t.part p).mirror.failed = true ∧ (t.part p).mirror.phase = 1 ∧
        (t.part p).mirror.snap = m.snap ∧ (t.part p).mirror.slot = m.slot ∧ (t.part p).mirror.tags = [g] ∧ t.mem = s.mem)

/-- R326, R327, R329, R330, R331, R332, R333: Of the dictionary's 24 commands only the one of the request's row acts on
the request whose turn it is; a resent request is answered from the store and not performed; the checks of version,
header, object, rights, size, access, lease and season refuse in this order with their status, and a refused request
changes nothing but the answer.  Where a check stands that no rule orders is the model's reading (assumption log 36); so
is which row of the table a request is (log 38). -/
def Obligations.DictionaryServes : Prop :=
  ∀ (s : State),
    let rows : List (Instr × Service) := [(.odRead, .read), (.odWrite, .write), (.blobRead, .blobRead),
      (.blobWrite, .blobWrite), (.acquire, .acquire), (.renew, .renew), (.release, .release), (.hotRowsRead, .hotRows),
      (.tableDescPend, .tablePend), (.hbmLayoutWrite, .hbmLayout), (.mirrorCtrlNow, .mirrorNow), (.shedsWrite, .sheds),
      (.ringConfigWrite, .ringConfig), (.start, .start), (.stop, .stop), (.nanTrapRearm, .trapRearm),
      (.stallFaultRearm, .faultRearm), (.seasonOn, .on), (.seasonOff, .off), (.faultClear, .faultClear),
      (.perfSelWrite, .perfSel), (.commit, .commit), (.restart, .restart), (.fwSlotWrite, .fwSlot)]
    ∀ r ∈ rows, (s.nextRequest = none ∨ s.dictUp = false → exec r.1 s = .next s) ∧
      ∀ who m, s.nextRequest = some (who, m) → s.dictUp = true →
        let u := (s.taken who).expireLeases
        let idx := msIndex m
        let sub := msSub m
        let answers (e : Nat) : Prop := exec r.1 s = .next (u.answer who m (msResponse m e []))
        (serviceOf m ≠ r.2 → exec r.1 s = .next s) ∧
        (∀ d, serviceOf m = r.2 → s.resent who m = some d → exec r.1 s = .next (u.answer who m d)) ∧
        (serviceOf m = r.2 → s.resent who m = none →
          (msVer m ≠ 1 → answers 10) ∧
          (msVer m = 1 → msMalformed who m = true → answers 4) ∧
          (msVer m = 1 → msMalformed who m = false →
            (5 ≤ msOp m → ¬ (idx = 0x1100 ∧ sub ≤ 0x20) → answers 1) ∧
            (msOp m < 5 → objDef idx sub = none → answers 1) ∧
            (5 ≤ msOp m → idx = 0x1100 → sub ≤ 0x20 → mayReach who idx sub = false → answers 2) ∧
            (∀ d, objDef idx sub = some d → msOp m = 1 ∨ msOp m = 2 → mayReach who idx sub = false → answers 2) ∧
            (∀ d, objDef idx sub = some d → mayReach who idx sub = true →
              (msOp m = 2 → d.kind = .num → msDlen m ≠ d.size → answers 4) ∧
              (msOp m = 2 → d.kind = .num → msDlen m = d.size → d.all = true → answers 2) ∧
              (msOp m = 2 → d.kind = .num → msDlen m = d.size → d.all = false → d.rws = true →
                u.granted who (msLease m) idx sub = false → answers 3) ∧
              (msOp m = 2 → d.kind = .num → msDlen m = d.size → d.all = false →
                d.rws = false ∨ u.granted who (msLease m) idx sub = true → 0x2000 ≤ idx → idx ≤ 0x24FF →
                s.season.phase ≠ .summer → answers 5))))

/-- R213, R325, R328, R330: A read answers the object's bytes and changes nothing; HOT_ROWS_READ restarts its count;
ACQUIRE grants a free semaphore for 10 s under a new non-zero identifier, renews its holder's, and is refused with
HELD to others; RENEW and RELEASE need the current lease; an expired lease frees its semaphore and is counted. -/
def Obligations.DictionaryReads : Prop :=
  (∀ (s : State) (who : Requester) (m : List Byte), s.nextRequest = some (who, m) → s.dictUp = true →
    s.resent who m = none → msVer m = 1 → msMalformed who m = false → mayReach who (msIndex m) (msSub m) = true →
    let u := (s.taken who).expireLeases
    let idx := msIndex m
    let sub := msSub m
    let gives (c : Instr) (e : Nat) (d : List Byte) (t : State) : Prop :=
      exec c s = .next (t.answer who m (msResponse m e d))
    let x := u.sem sub
    (∀ d, objDef idx sub = some d → ¬ (0x2360 ≤ idx ∧ idx ≤ 0x237F) →
      (msOp m = 1 → d.kind ≠ .blob ∨ d.size ≤ maxChunk who → gives .odRead 0 (u.objBytes d idx sub 0 d.size) u) ∧
      (msOp m = 3 → d.kind = .blob → msOffset m + msDlen m ≤ d.size →
        gives .blobRead 0 (u.objBytes d idx sub (msOffset m) (msDlen m)) u)) ∧
    (∀ p, p < 32 → idx = 0x2360 + p → sub ≤ 63 → msOp m = 3 → msOffset m + msDlen m ≤ 1024 →
      let y := u.part p
      gives .hotRowsRead 0 (slice (hotBytes (FMap.get (fun _ => []) y.hot sub)) (msOffset m) (msDlen m))
        (u.setPart p { y with hot := FMap.set (fun _ => []) y.hot sub [] })) ∧
    (idx = 0x1100 → sub ≤ 0x20 →
      (msOp m = 5 → x.holder = none → ∃ a, 0 < a ∧ a < 2 ^ 32 ∧ a ≠ x.lease ∧
        gives .acquire 0 (toBytes 4 a)
          ({ u with free := u.free + 1 }.setSem sub { holder := some who, lease := a, until_ := u.clock + 10000000000 })) ∧
      (msOp m = 5 → x.holder = some who →
        gives .acquire 0 (toBytes 4 x.lease) (u.setSem sub { x with until_ := u.clock + 10000000000 })) ∧
      (∀ o, msOp m = 5 → x.holder = some o → o ≠ who → gives .acquire 8 [] u) ∧
      (msOp m = 6 → x.holder = some who → x.lease = msLease m →
        gives .renew 0 [] (u.setSem sub { x with until_ := u.clock + 10000000000 })) ∧
      (msOp m = 6 → ¬ (x.holder = some who ∧ x.lease = msLease m) → gives .renew 3 [] u) ∧
      (msOp m = 7 → x.holder = some who → x.lease = msLease m →
        gives .release 0 [] (u.setSem sub { x with holder := none })) ∧
      (msOp m = 7 → ¬ (x.holder = some who ∧ x.lease = msLease m) → gives .release 3 [] u))) ∧
  (∀ (s : State) (n : Nat), n < 33 →
    ((s.sem n).holder = none ∨ s.clock ≤ (s.sem n).until_ → exec (.leaseExpiry n) s = .next s) ∧
    ((s.sem n).holder ≠ none → (s.sem n).until_ < s.clock → Answers (exec (.leaseExpiry n) s) fun t =>
      (t.sem n).holder = none ∧ (∀ j, j ≠ n → t.sem j = s.sem j) ∧ t.mem = s.mem ∧ t.parts = s.parts ∧
      t.obj kLeaseExpired = min (s.obj kLeaseExpired + 1) (2 ^ 32 - 1)))

/-- R199, R239, R301, R314, R346, R347, R369, R372, R375, R383, R387, R66: A write that passes the shared checks has the
effect of its object: power cap, clip norm, SHEDS, ring configuration, START, STOP, re-arms, HBM_LAYOUT, TABLE_DESC,
mirror NOW, PERF_SEL, ON, OFF, FAULT_CLEAR, COMMIT, RESTART; or the status its rule gives. BLOB_WRITE changes its own
bytes; a write into FW_SLOT clears COMMIT first and is refused while the golden slot runs. The order in which these
statuses are found (assumption log 36), slot A as FW_SLOT while the golden slot runs (log 32), what a request leaves of
an earlier one (log 34) and what RESTART loads (log 37) are the model's choices or readings. -/
def Obligations.DictionaryWritesAndBlobs : Prop :=
  (∀ (s : State) (who : Requester) (m : List Byte) (d : ObjDef), s.nextRequest = some (who, m) → s.dictUp = true →
     s.resent who m = none → msVer m = 1 → msMalformed who m = false →
     let u := (s.taken who).expireLeases
     let idx := msIndex m
     let sub := msSub m
     let v := ofBytes (msData m)
     mayReach who idx sub = true → objDef idx sub = some d → d.size ≤ 1024 → msOp m = 2 → msDlen m = d.size → d.all = false →
     d.rws = false ∨ u.granted who (msLease m) idx sub = true → u.notYet idx = false → v &&& d.rsv = 0 →
     (v ^^^ u.valueOf idx sub) &&& d.ro = 0 →
     let ok (c : Instr) (t : State) : Prop := exec c s = .next (t.answer who m (msResponse m 0 []))
     let no (c : Instr) (e : Nat) : Prop := exec c s = .next (u.answer who m (msResponse m e []))
     (idx = 0x1202 → sub = 0 →
       (400 ≤ v → v ≤ 1800 → ok .odWrite ((u.setObj kPowerCap v).markDirty kPowerCap)) ∧
       (v < 400 ∨ 1800 < v → no .odWrite 4)) ∧
     (∀ p, p < 32 → idx = 0x2400 + p → sub = 1 → f32pos v = true → ok .odWrite (u.setObj (kClipNorm p) v)) ∧
     (∀ p, p < 32 → idx = 0x2000 + p →
       let x := u.part p
       let idle := x.phase = .free ∨ x.phase = .stopped
       (sub = 0x02 →
         (¬ idle → no .shedsWrite 6) ∧
         (idle → u.shedsTaken p v = true → no .shedsWrite 9) ∧
         (idle → u.shedsTaken p v = false → u.setSheds p v = none → no .shedsWrite 9) ∧
         (idle → u.shedsTaken p v = false → x.stage = [] → ok .shedsWrite
           (u.setPart p { x with sheds := BitVec.ofNat 32 v, phase := if v = 0 then .free else .stopped })) ∧
         (∀ t, idle → u.shedsTaken p v = false → u.setSheds p v = some t → ok .shedsWrite t ∧
           (t.part p).sheds = BitVec.ofNat 32 v ∧ (t.part p).phase = (if v = 0 then .free else .stopped) ∧
           (t.part p).stage.length = x.stage.length ∧ t.mem = u.mem ∧
           ∀ g ∈ (t.part p).stage, g.near = stageHome (BitVec.ofNat 32 v) (bit (u.obj (kHbmLayout p)) 0))) ∧
       (sub = 0x09 → idle → ringBad v = false → ok .ringConfigWrite (((u.setObj (kSqSize p) v)).setPart p
         { x with rings := { x.rings with sqTail := 0, sqHead := 0, fetched := 0 } })) ∧
       (sub = 0x0B → idle → ringBad v = false → ok .ringConfigWrite (((u.setObj (kCqSize p) v)).setPart p
         { x with rings := { x.rings with cqTail := 0, cqHead := 0 } })) ∧
       (sub = 0x09 ∨ sub = 0x0B → idle → ringBad v = true → no .ringConfigWrite 4) ∧
       (sub = 0x01 → v = 1 →
         (x.phase = .stopped → u.notReady p = false → ok .start (u.setPart p { x with phase := .loading })) ∧
         (x.phase = .stopped → u.notReady p = true → no .start 7) ∧
         (x.phase = .free → no .start 4) ∧ (¬ idle → no .start 6)) ∧
       (sub = 0x01 → v = 2 →
         (idle → ok .stop u) ∧ (x.phase = .loading → ok .stop (u.setPart p { x with stopReq := true })) ∧
         (x.phase = .running → ∃ t, ok .stop t ∧ (t.part p).phase = .stopping ∧ (t.part p).halting = false ∧
           t.mem = u.mem ∧ t.stalls = u.stalls)) ∧
       (sub = 0x01 → v = 3 → no .start 4) ∧
       (sub = 0x32 → bit v 2 = true → ok .nanTrapRearm ((u.setObj (kNanTrap p) (v % 4)).setObj (kNanRecord p) 0)) ∧
       (sub = 0x62 → v = 1 → ok .stallFaultRearm (u.setObj (kStallFault p) 0)) ∧
       (sub = 0xD0 → (¬ idle → no .hbmLayoutWrite 6) ∧
         (idle → layBad v = true → no .hbmLayoutWrite 4) ∧
         (idle → layBad v = false → u.setLayout p v = none → no .hbmLayoutWrite 9) ∧
         (∀ t, idle → layBad v = false → u.setLayout p v = some t → ok .hbmLayoutWrite t ∧
           t.obj (kHbmLayout p) = v ∧ t.mem = u.mem))) ∧
     (∀ p, p < 32 → idx = 0x2300 + p →
       let old := u.obj (kTable p sub)
       let e := setBits (setBits old 96 64 (tdPendBase v)) 160 16 (tdPendVersion v)
       (bit v 84 = false → ok .tableDescPend (u.setObj (kTable p sub) (setBits e 84 1 0))) ∧
       (bit v 84 = true → tdPendBase v % 32 = 0 → u.versionLive p sub (tdPendVersion v) = false →
         (u.part p).phase ≠ .stopped → ok .tableDescPend (u.setObj (kTable p sub)
           (setBits (setBits (setBits old 84 1 1) 96 64 (tdPendBase v)) 160 16 (tdPendVersion v)))) ∧
       (bit v 84 = true → tdPendBase v % 32 ≠ 0 ∨ u.versionLive p sub (tdPendVersion v) = true → no .tableDescPend 4)) ∧
     (∀ p, p < 32 → idx = 0x2400 + p → sub = 0x41 → v = 1 →
       let m := (u.part p).mirror
       ((u.part p).phase ≠ .stopped → ok .mirrorCtrlNow (u.setPart p { u.part p with mirror := { m with now := true } })) ∧
       ((u.part p).phase = .stopped → m.waitNow = none →
         ok .mirrorCtrlNow (u.setPart p { u.part p with mirror := { m with waitNow := some (u.dueMirror p) } }))) ∧
     (∀ n, n < 16 → idx = 0x1311 → sub = n → bits v 0 4 < 8 →
       ((u.perf n).count < 2 ^ 48 →
         ok .perfSelWrite ((u.setObj (kPerfSel n) v).setPerf n { u.perf n with count := 0 })) ∧
       (2 ^ 48 ≤ (u.perf n).count → ∃ t, ok .perfSelWrite t ∧ t.perf n = { count := 0, wrap := true } ∧
         t.obj (kPerfSel n) = v ∧ (t.log 0).next = (u.log 0).next + b2n (bit (u.obj (kPerfSel n)) 6))) ∧
     (idx = 0x1200 → sub = 1 →
       (v = 3 → no .seasonOn 4) ∧
       (v = 1 → u.season.phase = .winter → u.flash.booted = true → ∃ t, ok .seasonOn t ∧ t.season.phase = .spring ∧
         t.season.sub = 1 ∧ t.season.pend = none) ∧
       (v = 1 → u.season.phase = .spring → ok .seasonOn { u with season := { u.season with pend := none } }) ∧
       (v = 1 → u.season.phase = .autumn → 2 < u.season.sub →
         ok .seasonOn { u with season := { u.season with pend := some true } }) ∧
       (v = 1 → u.season.phase = .autumn → u.season.sub ≤ 2 → ∃ t, ok .seasonOn t ∧ t.season.phase = .summer ∧
         t.mem = u.mem ∧ t.parts = u.parts) ∧
       (v = 1 → u.season.phase = .summer ∨ u.season.phase = .fault → ok .seasonOn u) ∧
       (v = 2 → u.season.phase = .summer → ∃ t, ok .seasonOff t ∧ t.season.phase = .autumn ∧ t.season.sub = 1 ∧
         ∀ p, p < 32 → u.partRuns p = true → (t.part p).phase = .stopping) ∧
       (v = 2 → u.season.phase = .spring → u.season.retry = false →
         ok .seasonOff { u with season := { u.season with pend := some false } }) ∧
       (v = 2 → u.season.phase = .spring → u.season.retry = true → ∃ t, ok .seasonOff t ∧ t.season.phase = .autumn ∧
         t.season.sub = if 5 ≤ u.season.sub then 4 else 9 - u.season.sub) ∧
       (v = 2 → u.season.phase = .winter ∨ u.season.phase = .fault → ok .seasonOff u) ∧
       (v = 2 → u.season.phase = .autumn → ok .seasonOff { u with season := { u.season with pend := none } }) ∧
       (v = 4 → u.season.phase = .fault → ok .faultClear { u with season := { u.season with faultClear := true } }) ∧
       (v = 4 → u.season.phase ≠ .fault → ok .faultClear u)) ∧
     (idx = 0x4000 → sub = 3 →
       let i := u.flash.other
       let word := commitWord (u.flash.slotVersion i) (crc32c (u.flash.image i))
       (v = 1 → u.flash.running ≠ 2 → u.flash.headerGood i = true →
         ok .commit { u with flash := u.flash.put u.season.flashWpN (slotBase i + slotSize - 32) word }) ∧
       (v = 1 → u.flash.running = 2 ∨ u.flash.headerGood i = false →
         ok .commit (u.logModule 0x0D0A 2 none 0x10 0 0)) ∧
       (v = 2 → u.season.phase = .winter ∨ u.season.phase = .fault → ∃ t, ok .restart t ∧ t.season.restart = false ∧
         (∀ n, (t.sem n).holder = none) ∧ t.mem = u.mem ∧
         ∀ k, k ≠ kFwBoot → k ≠ kAttempts 1 → t.obj k = u.loadBank.obj k) ∧
       (v = 2 → u.season.phase ≠ .winter → u.season.phase ≠ .fault →
         ok .restart { u with season := { u.season with restart := true } }))) ∧
  (∀ (s : State) (who : Requester) (m : List Byte), s.nextRequest = some (who, m) → s.dictUp = true →
     s.resent who m = none → msVer m = 1 → msMalformed who m = false → mayReach who (msIndex m) (msSub m) = true →
     msOp m = 4 →
     let u := (s.taken who).expireLeases
     let ok (c : Instr) (t : State) : Prop := exec c s = .next (t.answer who m (msResponse m 0 []))
     let no (c : Instr) (e : Nat) : Prop := exec c s = .next (u.answer who m (msResponse m e []))
     let granted := u.granted who (msLease m) (msIndex m) (msSub m)
     (msIndex m = 0x1110 → msSub m = 4 → msOffset m + msDlen m ≤ 16 →
       let k := objKey 0x1110 4
       (granted = true →
         ok .blobWrite ((u.setObj k (ofBytes (splice (toBytes 16 (u.obj k)) (msOffset m) (msData m)))).markDirty k)) ∧
       (granted = false → no .blobWrite 3)) ∧
     (msIndex m = 0x1110 → msSub m = 4 → 16 < msOffset m + msDlen m → no .blobWrite 1) ∧
     (msIndex m = 0x4000 → msSub m = 2 → msOffset m + msDlen m ≤ slotSize →
       let i := u.flash.other
       (u.flash.running = 2 → no .fwSlotWrite 2) ∧
       (u.flash.running ≠ 2 → granted = false → no .fwSlotWrite 3) ∧
       let cleared := u.flash.put u.season.flashWpN (slotBase i + slotSize - 32) (zeros 32)
       let written := (msData m).take (slotSize - 32 - msOffset m)
       (u.flash.running ≠ 2 → granted = true → ok .fwSlotWrite
         { u with flash := cleared.put u.season.flashWpN (slotBase i + msOffset m) written })))

/-- R332, R334, R335, R336, R337, R338, R344, R357, R371, R378: PERST_N resets the host port and nothing else; a training
attempt of the host link counts, and the link stays down without power; NumVFs, BAR4 sizes, GO, the request page and
MBOX_CTRL are written, and BAR0 reads, as their rules say; a BAR4 read answers the bytes and changes no memory, a write
changes exactly its bytes, an access beyond the memory is unsupported; a datagram is queued, dropped and counted, or
answered from the store.  A link change as the end of an attempt (assumption log 39), the size of BAR4 as an operand of
the host's configuration and an access beyond it (log 40), when an access meets stacks and engines that do not answer
(logs 34, 50), and the limits of a datagram's header (log 46) are the model's choices. -/
def Obligations.HostAccesses : Prop :=
  ∀ (s : State),
    (exec (.perstN true) s = .next { s with host := { s.host with
      fns := [], numVfs := 0, msixEn := 0, linkUp := false, perst := true } }) ∧
    (exec (.perstN false) s = .next { s with host := { s.host with perst := false } }) ∧
    (let x := s.season
     let powered := s.host.perst = false ∧ ((x.phase = .spring ∧ ¬ (x.sub = 1 ∧ x.retry = true)) ∨ x.phase = .summer ∨
       (x.phase = .autumn ∧ x.sub ≤ 7))
     ∀ up,
       (s.host.linkUp = true → exec (.hostLinkChange up) s = .next { s with host := { s.host with linkUp := up } }) ∧
       (s.host.linkUp = false → powered → exec (.hostLinkChange up) s = .next (({ s with host := { s.host with
         linkUp := up } }).setObj (kAttempts 7) (min (s.obj (kAttempts 7) + 1) (2 ^ 32 - 1)))) ∧
       (s.host.linkUp = false → ¬ powered → exec (.hostLinkChange up) s = .next s)) ∧
    (∀ up, s.flash.booted = true → exec (.mgmtLinkChange up) s = .next { s with host := { s.host with mgmtUp := up } }) ∧
    (∀ (src port : Nat) (d : List Byte), src / 2 ^ 32 = 0xFFFF → s.host.mgmtUp = true → s.flash.booted = true →
      bit (s.obj kNetCtrl) 0 = true → s.obj (objKey 0x1110 2) ≠ 0 →
      (d.length < 32 → exec (.mgmtDatagram src port d) s = .next (s.bumpObj kMgmtDropped 1)) ∧
      (32 ≤ d.length → s.stored src port = none →
        (s.host.mgmtQ.length < 16 → exec (.mgmtDatagram src port d) s =
          .next { s with host := { s.host with mgmtQ := s.host.mgmtQ ++ [{ ip := src, port := port, msg := d }] } }) ∧
        (16 ≤ s.host.mgmtQ.length → exec (.mgmtDatagram src port d) s = .next (s.bumpObj kMgmtDropped 1))) ∧
      (∀ r, 32 ≤ d.length → s.stored src port = some (msSeq d, r) →
        exec (.mgmtDatagram src port d) s = .next (s.answerMgmt src port (msSeq d) r))) ∧
    (s.hostUp = true →
      (∀ n msix, n ≤ 32 → exec (.numvfsWrite n (msix, [])) s = .next { s with host := { s.host with
        numVfs := n, msixEn := msix % 2 ^ (n + 1), fns := s.host.fns.filter (fun e => decide (e.1 ≤ n)) } }) ∧
      (∀ n msix f e, n ≤ 32 → f ≤ n → e ≤ 10 → Answers (exec (.numvfsWrite n (msix, [(f, e)])) s) fun t =>
        (t.fn f).barSize = 2 ^ (30 + e) ∧ (t.fn f).window = (s.fn f).window / 2 ^ (30 + e) * 2 ^ (30 + e) ∧
        (∀ g, g ≤ n → g ≠ f → t.fn g = s.fn g) ∧ t.mem = s.mem ∧ t.parts = s.parts) ∧
      (∀ n msix bars, 32 < n → exec (.numvfsWrite n (msix, bars)) s = .next s) ∧
      (∀ f, f ≤ 32 → f ≤ s.host.numVfs →
        exec (.mboxGo f) s = .next (s.setFn f { s.fn f with go := true }) ∧
        (∀ (off : Nat) (b : Byte), off < 0x1000 → exec (.mmioRegisterWrite f off [b]) s =
          .next (s.setFn f { s.fn f with req := FMap.set (fun _ => 0) (s.fn f).req off b })) ∧
        (∀ b : Byte, exec (.mmioRegisterWrite f 0x2000 [b]) s = .next (s.setFn f { s.fn f with
          go := (s.fn f).go || b.getLsbD 0, done := (s.fn f).done && !(b.getLsbD 1), irqEn := b.getLsbD 2 })) ∧
        (∀ (off : Nat) (b : Byte), 0x1000 ≤ off → off < 0x2000 → exec (.mmioRegisterWrite f off [b]) s = .next s) ∧
        (∀ bs : List Byte, bs.length = 8 → (s.fn f).window < 2 ^ 64 → Answers (exec (.mmioRegisterWrite f 0x2008 bs) s)
          fun t => (t.fn f).window = ofBytes bs / (s.fn f).barSize * (s.fn f).barSize ∧ t.mem = s.mem ∧
            ∀ g, g ≠ f → t.fn g = s.fn g) ∧
        (∀ i, i < 0x1000 → s.bar0Read f (0x1000 + i) 1 = some [FMap.get (fun _ => 0) (s.fn f).resp i] ∧
          s.bar0Read f (0x3000 + i) 1 = some [0]) ∧
        (let pba := if f = 0 then 0x1008000 else 0x9000
         ∀ b, s.bar0Read f pba 8 = some b → ofBytes b = (s.fn f).pba % 2 ^ 64)) ∧
      (∀ p, p < 32 →
        let r := (s.part p).rings
        let page := s.bar0Read 0 (0x100000 + 0x1000 * p) 20
        page = some (toBytes 4 r.sqTail.toNat ++ toBytes 4 r.cqHead.toNat ++ toBytes 4 r.sqHead.toNat ++
          toBytes 4 r.cqTail.toNat ++ toBytes 4 (s.ringFlags p)) ∧
        (p < s.host.numVfs → s.bar0Read (p + 1) 0x4000 20 = page)) ∧
      (∀ f off len data, f ≤ 32 → f ≤ s.host.numVfs →
        (off + len ≤ (s.fn f).barSize →
          (s.bar4Keys f off len = none → Answers (exec (.bar4Access f false off len data) s) fun t =>
            t.out = s.out ++ [.unsupported f] ++ t.out.drop (s.out.length + 1) ∧ t.mem = s.mem ∧ t.parts = s.parts ∧
            (t.log 0).next = (s.log 0).next + 1) ∧
          (∀ ks, s.bar4Keys f off len = some ks → s.hbmUp ks = true → s.idleHbm → (∀ k ∈ ks, s.check (k / 32) = 0) →
            Answers (exec (.bar4Access f false off len data) s) fun t =>
              t.out = s.out ++ [.bar4 f (ks.map s.byte) false] ∧ t.mem = s.mem ∧ t.parts = s.parts)) ∧
        ((s.fn f).barSize < off + len → exec (.bar4Access f false off len data) s = .next s) ∧
        (∀ ks, off + data.length ≤ (s.fn f).barSize → s.bar4Keys f off data.length = some ks → s.hbmUp ks = true →
          s.idleHbm → ks.Nodup → (∀ k ∈ ks, s.check (k / 32) = 0) →
          Answers (exec (.bar4Access f true off len data) s) fun t => t.out = s.out ∧ t.parts = s.parts ∧
            (∀ k b, (k, b) ∈ ks.zip data → t.byte k = b) ∧ ∀ k, k ∉ ks → t.byte k = s.byte k)))

/-- R339: With the host port up, a write of T to SQ_TAIL is accepted exactly when (T - SQ_HEAD) mod 2^32 is at most
SQ_SIZE and (T - SQ_TAIL) mod 2^32 is below 2^31, and a write of H to CQ_HEAD exactly when (CQ_TAIL - H) mod 2^32 is
at most CQ_SIZE and (H - CQ_HEAD) mod 2^32 is below 2^31; any other is ignored whole, keeps the count, adds 1 to
DB_IGNORED and sets DB_DROP; nothing else changes. -/
def Obligations.Doorbells : Prop :=
  ∀ (s : State) (p : Nat) (w : BitVec 32), p < 32 → s.hostUp = true →
    let x := s.part p
    let r := x.rings
    let ignored (c : Instr) : Prop := Answers (exec c s) fun t =>
      t.parts = (s.setPart p { x with rings := { r with dbDrop := true } }).parts ∧ t.mem = s.mem ∧
      t.obj (kDbIgnored p) = min (s.obj (kDbIgnored p) + 1) (2 ^ 32 - 1) ∧ ∀ k, k ≠ kDbIgnored p → t.obj k = s.obj k
    ((w - r.sqHead).toNat ≤ s.obj (kSqSize p) → (w - r.sqTail).toNat < 2 ^ 31 →
      exec (.sqTail p w) s = .next (s.setPart p { x with rings := { r with sqTail := w } })) ∧
    (s.obj (kSqSize p) < (w - r.sqHead).toNat ∨ 2 ^ 31 ≤ (w - r.sqTail).toNat → ignored (.sqTail p w)) ∧
    ((r.cqTail - w).toNat ≤ s.obj (kCqSize p) → (w - r.cqHead).toNat < 2 ^ 31 →
      exec (.cqHead p w) s = .next (s.setPart p { x with rings := { r with cqHead := w } })) ∧
    (s.obj (kCqSize p) < (r.cqTail - w).toNat ∨ 2 ^ 31 ≤ (w - r.cqHead).toNat → ignored (.cqHead p w))

/-- R340, R341, R342, R343, R344, R357: The next entry is fetched only while the partition runs in Summer with no entry
completion pending; it becomes an event of its queue, is held while that is full, or receives an entry completion; a
pending completion or the next software completion is written at CQ_TAIL with its phase; the interrupt is raised when
due; with the host port down nothing of this happens: no entry is fetched, no completion written, no interrupt raised.
When an entry that is held is offered again, and what becomes of an interrupt whose function has MSI-X disabled, are the
model's readings (assumption logs 41, 64). -/
def Obligations.Rings : Prop :=
  ∀ (s : State) (p : Nat), p < 32 →
    let x := s.part p
    let r := x.rings
    let wrote (c : BitVec 128) (t : State) : Prop :=
      let n := r.cqTail.toNat
      let q := s.obj (kCqSize p)
      (t.part p).rings.cqTail = r.cqTail + 1 ∧ t.mem = s.mem ∧ t.out = s.out ++ [.cq p (s.obj (kCqBase p) + 16 * (n % q))
        (BitVec.ofNat 128 (c.toNat + (1 - n / q % 2) * 2 ^ 32))]
    (s.hostUp = false → (∀ w, exec (.sqTail p w) s = .next s ∧ exec (.cqHead p w) s = .next s) ∧
      exec (.completionWrite p) s = .next s ∧ exec (.msixRaise p) s = .next s ∧
      (r.heldEntry = none → ∀ e, exec (.entryFetch p e) s = .next s)) ∧
    (∀ h, r.heldEntry = some h →
      let qi := s.entryTarget p h
      let offered := s.partRuns p = true ∨ x.phase = .stopping ∨ (x.phase = .stopped ∧ s.queueOpen p qi = true)
      ∀ e, (¬ offered → exec (.entryFetch p e) s = .next s) ∧
        (∀ t, offered → entryBad h.toNat = false → s.queueOpen p qi = true →
          (s.pushQueue qi kindHost noStall p (entryEvent h.toNat) = .ok t →
            exec (.entryFetch p e) s = .next (t.acceptEntry p none)) ∧
          (s.pushQueue qi kindHost noStall p (entryEvent h.toNat) = .wait t →
            Answers (exec (.entryFetch p e) s) fun y => (y.part p).rings.heldEntry = some h ∧ y.mem = t.mem))) ∧
    (s.hostUp = true →
      (∀ e : BitVec 512, r.heldEntry = none →
        (r.fetched = r.sqTail ∨ r.pendEntry ≠ none ∨ s.partRuns p = false ∨ s.season.phase ≠ .summer →
          exec (.entryFetch p e) s = .next s) ∧
        (r.fetched ≠ r.sqTail → r.pendEntry = none → s.partRuns p = true → s.season.phase = .summer →
          let n := e.toNat
          let refused (st : Nat) : Prop := Answers (exec (.entryFetch p e) s) fun t => t.mem = s.mem ∧ t.sheds = s.sheds ∧
            (t.part p).rings = { r with
              fetched := r.fetched + 1, sqHead := if r.sqHead = r.fetched + 1 then r.sqHead else r.sqHead + 1,
              heldEntry := none, pendEntry := some (completion (enCid n) st 0) }
          (entryBad n = true → refused 0x8001) ∧
          (entryBad n = false → s.queueOpen p (s.entryTarget p e) = false → refused 0x8005) ∧
          (∀ t, entryBad n = false → s.queueOpen p (s.entryTarget p e) = true →
            (s.setPart p { x with rings := { r with fetched := r.fetched + 1 } }).pushQueue (s.entryTarget p e) kindHost
              noStall p (entryEvent n) = .ok t → exec (.entryFetch p e) s = .next (t.acceptEntry p none)) ∧
          (∀ t, entryBad n = false → s.queueOpen p (s.entryTarget p e) = true →
            (s.setPart p { x with rings := { r with fetched := r.fetched + 1 } }).pushQueue (s.entryTarget p e) kindHost
              noStall p (entryEvent n) = .wait t → Answers (exec (.entryFetch p e) s) fun y =>
                (y.part p).rings.heldEntry = some e ∧ y.mem = t.mem))) ∧
      ((r.cqTail - r.cqHead).toNat < s.obj (kCqSize p) →
        (∀ c, r.pendEntry = some c → Answers (exec (.completionWrite p) s) fun t => wrote c t ∧
          (t.part p).rings.pendEntry = none ∧ (t.part p).rings.pendState = r.pendState) ∧
        (∀ c, r.pendEntry = none → r.pendState = some c → Answers (exec (.completionWrite p) s) fun t => wrote c t ∧
          (t.part p).rings.pendState = none) ∧
        (∀ c, r.pendEntry = none → r.pendState = none → s.nextCompletion p = some c →
          let h := c.ev.h.toNat
          Answers (exec (.completionWrite p) s) fun t =>
            wrote (completion (bits h 0 16) (bits h 16 15) (bits h 32 64)) t)) ∧
      (s.obj (kCqSize p) ≤ (r.cqTail - r.cqHead).toNat → exec (.completionWrite p) s = .next s) ∧
      (let ctl := s.obj (kIntrCtrl p)
       let due := bit ctl 0 = true ∧ 0 < r.unsig ∧
         (bits ctl 8 8 ≤ r.unsig ∨ (bits ctl 16 16 ≠ 0 ∧ r.unsigAt + 1000 * bits ctl 16 16 ≤ s.clock))
       let t := s.setPart p { x with rings := { r with unsig := 0 } }
       (¬ due → exec (.msixRaise p) s = .next s) ∧
       (due → p + 1 ≤ s.host.numVfs → bit s.host.msixEn (p + 1) = true →
         exec (.msixRaise p) s = .next (t.raiseMsix (p + 1) 0)) ∧
       (due → ¬ (p + 1 ≤ s.host.numVfs ∧ bit s.host.msixEn (p + 1) = true) →
         exec (.msixRaise p) s = .next (t.raiseMsix 0 p))))

/-- R347, R351, R352: A load whose checks pass leaves the partition running, or stopping if a STOP was held, with STEP and
NAN_TRAP_CTRL from the image and no verdict formed; one that fails leaves it stopped with LOAD_FAILED, its code, memory
unchanged and a completion; a stop ends once everything issued has completed, with STOPPED or HALTED.  That a load waits
while an engine its reads reach is not idle is the model's choice (assumption log 50). -/
def Obligations.LoadAndStop : Prop :=
  ∀ (s : State) (p : Nat), p < 32 →
    ((s.part p).phase ≠ .loading → exec (.loadEnd p) s = .next s) ∧
    (∀ e, (s.part p).phase = .loading → s.idleHbm → (∀ k, s.check k = 0) → (s.fetchImage p).load p = .error e →
      Answers (exec (.loadEnd p) s) fun t =>
      (t.part p).phase = .stopped ∧ (t.part p).loadFailed = true ∧ (t.part p).stopReq = false ∧
      t.obj (kLoadStatus p) % 2 ^ 16 = e.code % 2 ^ 16 ∧ t.mem = s.mem ∧
      (t.part p).rings.pendState = some (completion 0 0x8002 (t.obj (kLoadStatus p) % 2 ^ 64))) ∧
    (∀ r, (s.part p).phase = .loading → s.idleHbm → (∀ k, s.check k = 0) → (s.fetchImage p).load p = .ok r →
      (r.2.part p).rings.heldEntry = none → Answers (exec (.loadEnd p) s) fun t =>
        (t.part p).phase = (if (r.2.part p).stopReq then .stopping else .running) ∧ t.obj (kLoadStatus p) = 0 ∧ t.obj (kStep p) = ihStep r.1 ∧
        t.obj (kNanTrap p) = ihTrap r.1 ∧ bit (t.obj (kVerdict p)) 0 = false) ∧
    ((s.part p).phase ≠ .stopping ∨ s.issuedDone p = false → exec (.partitionStopped p) s = .next s) ∧
    ((s.part p).phase = .stopping → s.issuedDone p = true → Answers (exec (.partitionStopped p) s) fun t =>
      (t.part p).phase = .stopped ∧ (t.part p).halting = false ∧ (t.part p).stopReq = false ∧
      (t.part p).rings.pendState =
        some (completion 0 (if (s.part p).halting then 0x8003 else 0x8004) (s.stepOf p)))

/-- R358, R368, R371, R372, R373, R374, R377, R378, R379, R382: Power good with a good golden slot boots the ostler and
enters Spring 1 or Winter, the memory throttle at 8 while the brake is low; power loss keeps what flash holds and no
write whose commit word was not written; MOD_EN edges, the end of each sub-step, a pending OFF or ON, the drain time and
the mirrors move STATE and SUBSTEP as stated; a failed step is lowered, backs off and is tried again; a failed stack or
shed may return in Summer.  The order of the effects of one sub-step and what a failed one lowers are the model's
reading (assumption log 34); the golden slot as manufacture wrote it is good (log 31, the model's choice). -/
def Obligations.Seasons : Prop :=
  ∀ s : State,
    let x := s.season
    let at_ (t : State) (ph : SeasonPhase) (k : Nat) : Prop := t.season.phase = ph ∧ t.season.sub = k
    (∀ a b c, x.phase ≠ .noPower → exec (.powerGood a b c) s = .next s) ∧
    (∀ a b c, x.phase = .noPower → s.flash.asShipped = true ∨ (b = false ∧ s.flash.goldenValid = true) →
      Answers (exec (.powerGood a b c) s) fun t =>
      t.flash.booted = true ∧ (at_ t .spring 1 ∨ at_ t .winter 0) ∧ t.mem = [] ∧ t.parts = [] ∧ t.clock = 0 ∧
      t.season.modEn = a ∧ t.season.recoveryN = b ∧ t.season.flashWpN = c ∧
      t.power.mt = (if x.brake then 8 else 0) ∧ (b = false → t.flash.running = 2) ∧ t.pending = s.pending) ∧
    (Answers (exec .powerLoss s) fun t => t.season.phase = .noPower ∧ t.mem = [] ∧ t.parts = [] ∧ t.objs = [] ∧
      t.host.linkUp = false ∧ t.flash.cells = s.flash.cells ∧ t.flash.commits = [] ∧ t.flash.booted = false ∧
      t.pending = s.pending) ∧
    (∀ up, bit (s.obj kSeasonCfg) 2 = false →
      exec (.modEnEdge up) s = .next { s with season := { x with modEn := up } }) ∧
    (bit (s.obj kSeasonCfg) 2 = true → s.flash.booted = true →
      (x.phase = .winter → Answers (exec (.modEnEdge true) s) fun t => at_ t .spring 1 ∧ t.season.modEn = true) ∧
      (x.phase = .summer → Answers (exec (.modEnEdge false) s) fun t => at_ t .autumn 1 ∧ t.season.modEn = false)) ∧
    (∀ e o m, x.phase = .winter ∨ x.phase = .summer ∨ x.phase = .fault → exec (.safeEnd e o m) s = .next s) ∧
    (x.phase = .spring → x.retry = false → x.pend = none → ∀ m,
      (x.sub < 6 → Answers (exec (.safeEnd true true m) s) fun t => at_ t .spring (x.sub + 1)) ∧
      (x.sub = 6 → Answers (exec (.safeEnd true true m) s) fun t => at_ t .summer 0 ∧
        t.season.shedFailed = BitVec.ofNat 32 m) ∧
      (x.sub = 2 ∨ x.sub = 3 → exec (.safeEnd true false m) s = .next s.backOff) ∧
      (x.sub = 1 → exec (.safeEnd true false m) s = .next s.ioDark.backOff) ∧
      (1 ≤ x.sub → x.sub ≤ 3 → Answers (exec (.safeEnd true false m) s) fun t => at_ t .spring x.sub ∧
        t.season.retry = true ∧ t.season.retryAt = s.clock + t.season.backoff ∧ t.clocksUp = false ∧
        t.season.backoff = if x.backoff = 0 then 10000000 else min (2 * x.backoff) 1000000000)) ∧
    (x.phase = .spring → x.retry = false → x.pend = some false → 1 ≤ x.sub → x.sub ≤ 6 → ∀ m,
      Answers (exec (.safeEnd true true m) s) fun t => at_ t .autumn (if 5 ≤ x.sub then 4 else 9 - x.sub)) ∧
    (x.phase = .autumn → x.sub ≠ 2 → x.sub ≠ 3 → x.sub < 8 → x.pend = none → ∀ o m,
      Answers (exec (.safeEnd true o m) s) fun t => at_ t .autumn (x.sub + 1)) ∧
    (x.phase = .autumn → x.sub = 2 → s.clock < x.drainAt → (∃ p, p < 32 ∧ s.partRuns p = true) → ∀ e o m,
      exec (.safeEnd e o m) s = .next s) ∧
    (x.phase = .autumn → x.sub = 2 → x.drainAt ≤ s.clock → ∀ e o m,
      Answers (exec (.safeEnd e o m) s) fun t => at_ t .autumn 3) ∧
    (x.phase = .autumn → x.sub = 3 → s.mirrorsDone = true → ∀ e o m,
      (x.pend = none → Answers (exec (.safeEnd e o m) s) fun t => at_ t .autumn 4 ∧ t.mem = [] ∧ t.parts = []) ∧
      (x.pend = some true → Answers (exec (.safeEnd e o m) s) fun t => at_ t .summer 0 ∧ t.mem = s.mem)) ∧
    (x.phase = .autumn → x.sub = 8 → x.pend = none → ∀ o m,
      Answers (exec (.safeEnd true o m) s) fun t => at_ t .winter 0 ∧ t.host.linkUp = false ∧ t.ports = []) ∧
    (x.retry = false ∨ s.clock < x.retryAt → exec .retryBackoffExpiry s = .next s) ∧
    (x.retry = true → x.retryAt ≤ s.clock → s.flash.booted = true →
      let n := min (s.obj (kAttempts (x.sub + 1)) + 1) (2 ^ 32 - 1)
      (x.sub = 1 ∨ x.sub = 2 → exec .retryBackoffExpiry s =
        .next (({ s with season := { x with retry := false } }).setObj (kAttempts (x.sub + 1)) n)) ∧
      (x.sub = 3 → Answers (exec .retryBackoffExpiry s) fun t => t.season = { x with retry := false } ∧
        t.obj (kAttempts 4) = n ∧ (∀ y, y < 4 → (t.yard y).point = 0) ∧ t.mem = s.mem ∧ t.parts = s.parts)) ∧
    (x.retry = true → x.retryAt ≤ s.clock → s.flash.booted = false → Answers (exec .retryBackoffExpiry s) fun t =>
      t.obj (kAttempts 1) = min (s.obj (kAttempts 1) + 1) (2 ^ 32 - 1) ∧ t.mem = s.mem) ∧
    (x.phase = .summer → ∀ k, k < 12 → (s.hbm k).phase = .failed →
      (Answers (exec (.backgroundRetry true k true) s) fun t => (t.hbm k).phase = .ready ∧ t.parts = s.parts) ∧
      Answers (exec (.backgroundRetry true k false) s) fun t => t.hbm k = s.hbm k ∧ t.mem = s.mem) ∧
    (x.phase = .summer → ∀ k, k < 32 → x.shedFailed.getLsbD k = true →
      Answers (exec (.backgroundRetry false k true) s) fun t => t.mem = s.mem ∧ ∀ j, j < 32 →
        t.season.shedFailed.getLsbD j = (decide (j ≠ k) && x.shedFailed.getLsbD j))

/-- R375, R379, R381, R384, R396, R397, R398: A cause brings the module to Fault at once: a record with the next number and
the cause begins in the next place of the fault log, memory is empty, the links are down and the yards' points are kept;
it changes nothing in Fault or without power; FAULT_CLEAR ends the Fault exactly when the module is cool, fed and
regulated and the record is complete; a parity error marks the shed failed and halts its partition; a bank with the next
GENERATION is begun 10 s after the first write.  That a write of flash is complete after the next idle microsecond
(assumption logs 31, 35), and the effects of Fault on what the seasons lower (log 34), are the model's choices. -/
def Obligations.FaultsAndFlash : Prop :=
  ∀ s : State,
    let x := s.season
    let live := x.phase ≠ .noPower ∧ x.phase ≠ .fault
    let fell (o : Out1) (cause : Nat) : Prop := Answers o fun t => t.season.phase = .fault ∧ t.season.cause = cause ∧
      t.season.pend = none ∧ t.mem = [] ∧ t.parts = [] ∧ t.stalls = [] ∧ t.host.linkUp = false ∧ t.clocksUp = false ∧
      (∀ y, y < 4 → (t.yard y).point = (s.yard y).point) ∧ t.season.trip = (x.trip || decide (cause = 1)) ∧
      (x.restart = false →
        let f := s.flash.finish x.flashWpN
        let seq := (f.faultSeq + 1) % 2 ^ 32
        ∃ body : List Byte, body.length = 4064 ∧ field body 0 4 = 1 ∧ field body 4 4 = seq ∧ field body 20 1 = cause ∧
          t.flash = f.startWrite x.flashWpN (faultBase + 4096 * f.nextRecord) body (commitWord seq (crc32c body)))
    (live →
      (∀ c n t, 1 ≤ c → c ≤ 4 → fell (exec (.faultEnter c n t) s) c) ∧
      fell (exec .vinLow s) 3 ∧ fell (exec .unownedStateError s) 4) ∧
    (¬ live → exec .vinLow s = .next s ∧ exec .unownedStateError s = .next s ∧
      ∀ c n t, exec (.faultEnter c n t) s = .next s) ∧
    (x.phase = .fault → x.faultClear = true → (∀ t ∈ s.power.temps, t < 1520) → (∀ k, k < 12 → (s.hbm k).temp < 1520) →
      s.power.regOk = true → 40000 ≤ s.power.vin → s.power.vin ≤ 60000 →
      (∀ c ∈ s.flash.commits, c.1 < faultBase) → Answers (exec .faultExit s) fun t =>
        t.season.phase = .winter ∧ t.season.faultClear = false ∧ t.season.cause = 0 ∧ t.season.trip = false) ∧
    (x.phase ≠ .fault ∨ x.faultClear = false ∨ s.power.regOk = false ∨ s.power.vin < 40000 ∨ 60000 < s.power.vin ∨
      (∃ t ∈ s.power.temps, 1520 ≤ t) ∨ (∃ k, k < 12 ∧ 1520 ≤ (s.hbm k).temp) ∨
      (∃ c ∈ s.flash.commits, faultBase ≤ c.1) → exec .faultExit s = .next s) ∧
    (∀ k, k < 32 →
      (s.owner k = none → exec (.shedParity k) s =
        .next { s with season := { x with shedFailed := x.shedFailed ||| BitVec.ofNat 32 (2 ^ k) } }) ∧
      (∀ p, s.owner k = some p → s.partRuns p = true → Answers (exec (.shedParity k) s) fun t =>
        t.season.shedFailed = x.shedFailed ||| BitVec.ofNat 32 (2 ^ k) ∧ (t.part p).phase = .stopping ∧
        (t.part p).halting = true ∧ (t.part p).halted = true ∧ t.mem = s.mem ∧ (t.log 0).next = (s.log 0).next + 1)) ∧
    (s.flash.dirty = none → exec .persistCommit s = .next s) ∧
    (∀ d, s.flash.dirty = some d →
      (s.clock < d + 10000000000 → exec .persistCommit s = .next s) ∧
      (d + 10000000000 ≤ s.clock →
        let f := s.flash.finish x.flashWpN
        let gen := ((if f.bankValid f.inUse then f.bankGen f.inUse else 0) + 1) % 2 ^ 32
        let body := bankBody gen s.objs
        exec .persistCommit s = .next { s with flash :=
          { f.startWrite x.flashWpN (bankBase (1 - f.inUse)) body (commitWord gen (crc32c body)) with dirty := none } }))

/-- R360, R361, R364, R365, R366, R367, R368, R370: A sample enters the average and the energy; above the cap every point
above 0 falls by one, and with all at 0 the memory throttle rises up to 12; no yard stays above its ceiling; sensors
set temperatures or trip; the ceiling, the droop steps and the brake move as stated.  The ceiling's first value and when
its steps are due are the model's choices (assumption log 33). -/
def Obligations.Power : Prop :=
  ∀ s : State,
    let w := s.power
    let keeps (t : State) : Prop := t.mem = s.mem ∧ t.stalls = s.stalls ∧ t.parts = s.parts
    (∀ vin iin, s.season.phase = .noPower → exec (.powerSample vin iin) s = .next s) ∧
    (∀ vin iin, s.season.phase ≠ .noPower → Answers (exec (.powerSample vin iin) s) fun t => keeps t ∧
      t.power.vin = vin ∧ t.power.energy = w.energy + vin * iin ∧
      t.power.samples = (w.samples ++ [vin * iin]).drop ((w.samples ++ [vin * iin]).length - 10) ∧
      (s.obj kPowerCap * 1000000 * t.power.samples.length < t.power.samples.sum → t.power.exceeded = true) ∧
      (s.season.phase = .summer → ∀ y, y < 4 → (t.yard y).point ≤ s.ceilOf y) ∧
      (s.season.phase = .summer → s.season.brake = false →
        (s.obj kPowerCap - ceilDiv (s.obj kPowerCap) 100) * 1000000 < vin * iin →
        ((∃ y, y < 4 ∧ 0 < (s.yard y).point) → t.power.mt = w.mt ∧ t.power.capped = true ∧
          ∀ y, y < 4 → (t.yard y).point ≤ (s.yard y).point - 1) ∧
        ((∀ y, y < 4 → (s.yard y).point = 0) → w.mt < 12 → t.power.mt = w.mt + 1 ∧ t.power.throttled = true) ∧
        ((∀ y, y < 4 → (s.yard y).point = 0) → 12 ≤ w.mt → t.power.mt = w.mt))) ∧
    (∀ (ts : List Int) (o : Int), s.season.phase ≠ .noPower → ts.length = 4 →
      ((∀ t ∈ ts, t ≤ 1680) → o ≤ 1680 → Answers (exec (.sensorRead ts o false) s) fun t => keeps t ∧
        t.season = s.season ∧ t.power.temps = ts ++ [o] ∧ t.power.regOk = true ∧
        ∀ y, y < 4 → (t.yard y).temp = ts.getD y 0 ∧ (t.yard y).point = (s.yard y).point) ∧
      (s.season.phase ≠ .fault → (∃ t ∈ ts, 1680 < t) ∨ 1680 < o → ∀ b, Answers (exec (.sensorRead ts o b) s) fun t =>
        t.season.phase = .fault ∧ t.season.cause = 1 ∧ t.season.trip = true) ∧
      (s.season.phase ≠ .fault → (∀ t ∈ ts, t ≤ 1680) → o ≤ 1680 → Answers (exec (.sensorRead ts o true) s) fun t =>
        t.season.phase = .fault ∧ t.season.cause = 2)) ∧
    (∀ y, y < 4 →
      let x := s.yard y
      (1600 ≤ x.temp → x.hotAt + 1000000 ≤ s.clock → Answers (exec (.thermalCeilingUpdate y) s) fun t => keeps t ∧
        (t.yard y).ceil = x.ceil - 1 ∧ (t.yard y).point = min x.point (min (s.obj (kMaxPoint y)) (x.ceil - 1))) ∧
      (1600 ≤ x.temp → s.clock < x.hotAt + 1000000 → exec (.thermalCeilingUpdate y) s = .next s) ∧
      (x.temp < 1552 → x.coolAt + 10000000 ≤ s.clock → x.ceil < s.obj (kMaxPoint y) →
        exec (.thermalCeilingUpdate y) s = .next (s.setYard y { x with ceil := x.ceil + 1, coolAt := s.clock })) ∧
      (1552 ≤ x.temp → x.temp < 1600 → exec (.thermalCeilingUpdate y) s = .next s) ∧
      (s.clocksUp = false → exec (.droop y) s = .next s) ∧
      (s.clocksUp = true → exec (.droop y) s = .next ((s.setObj (kDroopCount y)
        (min (s.obj (kDroopCount y) + 1) (2 ^ 32 - 1))).setYard y
          { x with droop := if x.droop < x.point then x.droop + 1 else x.droop, droopAt := s.clock })) ∧
      (s.clocksUp = true → 0 < x.droop → x.droopAt + 1000 ≤ s.clock →
        exec (.droopRestore y) s = .next (s.setYard y { x with droop := x.droop - 1, droopAt := s.clock })) ∧
      (x.droop = 0 ∨ s.clock < x.droopAt + 1000 ∨ s.clocksUp = false → exec (.droopRestore y) s = .next s)) ∧
    (exec (.pwrBrake false) s = .next { s with season := { s.season with brake := false } }) ∧
    (s.season.phase ≠ .noPower → Answers (exec (.pwrBrake true) s) fun t => keeps t ∧ t.season.brake = true ∧
      t.power.mt = max w.mt 8 ∧ t.power.braked = true ∧ ∀ y, y < 4 → (t.yard y).point = 0)

/-- R100, R280, R387: On an empty queue a step lets one microsecond pass while the module has input power and changes no
memory, object, partition or stall (the model's choice, assumption log 2); writes of flash in progress end with it (the
model's choice, log 31); CYCLE and PERF counters that have wrapped set WRAP, PERF with a log entry where WRAP_LOG asks for
it, which the command COUNTER_WRAP brings to pass (the model's reading, log 29). -/
def Obligations.TimePasses : Prop :=
  ∀ s : State,
    (s.pending = [] → s.season.phase = .noPower → step s = .next s) ∧
    (s.pending = [] → s.season.phase ≠ .noPower → Answers (step s) fun t =>
      t.clock = s.clock + 1000 ∧ t.pending = [] ∧ t.mem = s.mem ∧ t.stalls = s.stalls ∧ t.objs = s.objs ∧
      t.parts = s.parts ∧ t.flash = s.flash.finish s.season.flashWpN ∧ (s.fabric.slew = 0 → t.time = s.time + 1000)) ∧
    (∀ n, n < 16 →
      ((s.perf n).count < 2 ^ 48 → exec (.counterWrap 1 n) s = .next s) ∧
      (2 ^ 48 ≤ (s.perf n).count → Answers (exec (.counterWrap 1 n) s) fun t =>
        (t.perf n).count = (s.perf n).count - 2 ^ 48 ∧ (t.perf n).wrap = true ∧ t.mem = s.mem ∧
        (t.log 0).next = (s.log 0).next + b2n (bit (s.obj (kPerfSel n)) 6))) ∧
    (∀ st p, st < 1024 → s.owner (st / 32) = some p →
      let x := s.stall st
      (x.wraps < s.cycles p st / 2 ^ 48 →
        exec (.counterWrap 0 st) s = .next (s.setStall st { x with wrap := true, wraps := x.wraps + 1 })) ∧
      (s.cycles p st / 2 ^ 48 ≤ x.wraps → exec (.counterWrap 0 st) s = .next s))

/-- R64, R184, R222, R276, R278, R292, R294, R301, R304, R333, R369, R376: After reset the objects named have the reset
values the spec gives them, every partition is free, every port down, every stack off, every semaphore free; that
memory lists nothing, that an unlisted byte reads 0, and that general registers are 0 are the model's choices
(assumption logs 1 and 4). -/
def Obligations.ResetState : Prop :=
  let s := State.reset
  s.pending = [] ∧ Memory.wf s.mem = true ∧ s.season.phase = .noPower ∧ s.hostUp = false ∧ s.host.numVfs = 0 ∧
  (∀ p, p < 32 → (s.part p).phase = .free ∧ (s.part p).sheds = 0 ∧ s.obj (kWeights p) = 0x00101010 ∧
    s.obj (kIntrCtrl p) = 0x101 ∧ s.obj (kNanTrap p) = 1 ∧ s.obj (kRunahead p) = 6 ∧ s.obj (kClipNorm p) = 0x7F800000 ∧
    s.obj (kLossScale p) = 0x3F800000 ∧ s.obj (kLsCtrl p) = 0x18000000 ∧ s.obj (kDataVl p) = 2 + 2 * (p % 7)) ∧
  (∀ k, k < 12 → (s.port k).phase = .disabled ∧ s.obj (kPort k 2) = 1 ∧ (s.hbm k).phase = .off) ∧
  s.obj kPortDir = 0x531420531420 ∧ s.obj kFailoverMs = 50 ∧ s.obj kScrubCtrl = 24 ∧ s.obj kMgmtPort = 4720 ∧
  s.obj kNetCtrl = 3 ∧ s.obj kSeasonCfg = 0x03E80005 ∧ s.obj kPowerCap = 1800 ∧ s.obj kMlogCtrl = 1 ∧
  (∀ y, y < 4 → s.obj (kMaxPoint y) = 15 ∧ (s.yard y).point = 0) ∧ (∀ n, n < 131072 → s.routeByte n = 255) ∧
  (∀ t i, (s.stall t).getG i = 0) ∧ (∀ k, s.byte k = 0) ∧ (∀ n, n < 33 → (s.sem n).holder = none ∧ (s.log n).next = 0)

/-- R125, R239: From every state whose memory lists rising addresses and no byte equal to what an unlisted address reads
as, every step that answers a next state leaves memory in that form. The form is the model's own (assumption log 4). -/
def Obligations.MemoryStaysCanonical : Prop :=
  ∀ s t : State, Memory.wf s.mem = true → step s = .next t → Memory.wf t.mem = true
end

