-- ==== Sys2Proof/Laws/Arrays.lean ====
section
/-!
SUPPORT. Laws of sparse arrays: what a read gives after a write, and that every write keeps the canonical form.
-/

namespace Sys2Proof

variable {α : Type}

theorem FMap.get_erase_same (d : Nat → α) (m : FMap α) (k : Nat) : FMap.get d (FMap.erase m k) k = d k := by
  induction m with
  | nil => rfl
  | cons e m ih =>
    obtain ⟨i, x⟩ := e
    by_cases h : k = i <;> simp [FMap.erase, FMap.get, h] <;> simp_all

theorem FMap.get_erase_ne (d : Nat → α) (m : FMap α) {k j : Nat} (h : j ≠ k) :
    FMap.get d (FMap.erase m k) j = FMap.get d m j := by
  induction m with
  | nil => rfl
  | cons e m ih =>
    obtain ⟨i, x⟩ := e
    by_cases hk : k = i
    · subst hk; simp [FMap.erase, FMap.get, h, ih]
    · by_cases hj : j = i <;> simp [FMap.erase, FMap.get, hk, hj, ih]

theorem FMap.get_insert_ne (d : Nat → α) (m : FMap α) {k j : Nat} (v : α) (h : j ≠ k) :
    FMap.get d (FMap.insert m k v) j = FMap.get d m j := by
  induction m with
  | nil => simp [FMap.insert, FMap.get, h]
  | cons e m ih =>
    obtain ⟨i, x⟩ := e
    by_cases hk : k < i
    · simp [FMap.insert, FMap.get, hk, h]
    · by_cases hj : j = i <;> simp [FMap.insert, FMap.get, hk, hj, ih]

theorem FMap.get_insert_same (d : Nat → α) (m : FMap α) (k : Nat) (v : α) (h : ∀ e ∈ m, e.1 ≠ k) :
    FMap.get d (FMap.insert m k v) k = v := by
  induction m with
  | nil => simp [FMap.insert, FMap.get]
  | cons e m ih =>
    obtain ⟨i, x⟩ := e
    have hi : k ≠ i := fun hk => h (i, x) (by simp) hk.symm
    by_cases hk : k < i
    · simp [FMap.insert, FMap.get, hk]
    · simp [FMap.insert, FMap.get, hk, hi, ih (fun e he => h e (by simp [he]))]

theorem FMap.ne_of_mem_erase (m : FMap α) (k : Nat) : ∀ e ∈ FMap.erase m k, e.1 ≠ k := by
  induction m with
  | nil => simp [FMap.erase]
  | cons e m ih =>
    obtain ⟨i, x⟩ := e
    by_cases hk : k = i
    · subst hk; simpa [FMap.erase] using ih
    · intro e he
      simp only [FMap.erase, hk, if_false, List.mem_cons] at he
      rcases he with rfl | he
      · exact fun h => hk h.symm
      · exact ih e he

/-- Reading the index written gives the value written. -/
@[simp] theorem FMap.get_set_same [DecidableEq α] (d : Nat → α) (m : FMap α) (k : Nat) (v : α) :
    FMap.get d (FMap.set d m k v) k = v := by
  unfold FMap.set
  split
  · rw [FMap.get_erase_same, ‹v = d k›]
  · exact FMap.get_insert_same d _ k v (FMap.ne_of_mem_erase m k)

/-- Reading any other index gives what it gave. -/
theorem FMap.get_set_ne [DecidableEq α] (d : Nat → α) (m : FMap α) {k j : Nat} (v : α) (h : j ≠ k) :
    FMap.get d (FMap.set d m k v) j = FMap.get d m j := by
  unfold FMap.set
  split
  · exact FMap.get_erase_ne d m h
  · rw [FMap.get_insert_ne d _ v h, FMap.get_erase_ne d m h]

theorem FMap.get_set [DecidableEq α] (d : Nat → α) (m : FMap α) (k j : Nat) (v : α) :
    FMap.get d (FMap.set d m k v) j = if j = k then v else FMap.get d m j := by
  split
  · next h => rw [h, FMap.get_set_same]
  · next h => exact FMap.get_set_ne d m v h

theorem FMap.wfFrom_mono [DecidableEq α] (d : Nat → α) {a b : Nat} (h : a ≤ b) :
    ∀ m : FMap α, FMap.wfFrom d b m = true → FMap.wfFrom d a m = true
  | [], _ => rfl
  | (i, x) :: m, hw => by
    simp only [FMap.wfFrom, Bool.and_eq_true, decide_eq_true_eq] at hw ⊢
    exact ⟨⟨le_trans h hw.1.1, hw.1.2⟩, hw.2⟩

theorem FMap.wfFrom_erase [DecidableEq α] (d : Nat → α) (k : Nat) :
    ∀ (m : FMap α) (a : Nat), FMap.wfFrom d a m = true → FMap.wfFrom d a (FMap.erase m k) = true
  | [], _, _ => rfl
  | (i, x) :: m, a, hw => by
    simp only [FMap.wfFrom, Bool.and_eq_true, decide_eq_true_eq] at hw
    have ih := FMap.wfFrom_erase d k m (i + 1) hw.2
    by_cases hk : k = i
    · simpa [FMap.erase, hk] using FMap.wfFrom_mono d (by omega) _ (hk ▸ ih)
    · simp only [FMap.erase, hk, if_false, FMap.wfFrom, Bool.and_eq_true, decide_eq_true_eq]
      exact ⟨hw.1, ih⟩

theorem FMap.wfFrom_insert [DecidableEq α] (d : Nat → α) (k : Nat) (v : α) (hv : v ≠ d k) :
    ∀ (m : FMap α) (a : Nat), a ≤ k → (∀ e ∈ m, e.1 ≠ k) → FMap.wfFrom d a m = true →
      FMap.wfFrom d a (FMap.insert m k v) = true
  | [], a, ha, _, _ => by simp [FMap.insert, FMap.wfFrom, ha, hv]
  | (i, x) :: m, a, ha, hm, hw => by
    simp only [FMap.wfFrom, Bool.and_eq_true, decide_eq_true_eq] at hw
    have hi : i ≠ k := hm (i, x) (by simp)
    by_cases hk : k < i
    · simp only [FMap.insert, hk, if_true, FMap.wfFrom, Bool.and_eq_true, decide_eq_true_eq]
      exact ⟨⟨ha, hv⟩, ⟨by omega, hw.1.2⟩, hw.2⟩
    · simp only [FMap.insert, hk, if_false, FMap.wfFrom, Bool.and_eq_true, decide_eq_true_eq]
      exact ⟨hw.1, FMap.wfFrom_insert d k v hv m (i + 1) (by omega) (fun e he => hm e (by simp [he])) hw.2⟩

/-- Every write keeps the canonical form. -/
theorem FMap.wf_set [DecidableEq α] (d : Nat → α) (m : FMap α) (k : Nat) (v : α) (h : FMap.wf d m = true) :
    FMap.wf d (FMap.set d m k v) = true := by
  have he := FMap.wfFrom_erase d k m 0 h
  unfold FMap.set
  split
  · exact he
  · exact FMap.wfFrom_insert d k v ‹_› _ 0 (Nat.zero_le k) (FMap.ne_of_mem_erase m k) he

/-- Leaving entries out keeps the canonical form. -/
theorem FMap.wfFrom_filter [DecidableEq α] (d : Nat → α) (q : Nat × α → Bool) :
    ∀ (m : FMap α) (a : Nat), FMap.wfFrom d a m = true → FMap.wfFrom d a (m.filter q) = true
  | [], _, _ => rfl
  | (i, x) :: m, a, hw => by
    simp only [FMap.wfFrom, Bool.and_eq_true, decide_eq_true_eq] at hw
    have ih := FMap.wfFrom_filter d q m (i + 1) hw.2
    by_cases hq : q (i, x)
    · simp only [List.filter_cons, hq, if_true, FMap.wfFrom, Bool.and_eq_true, decide_eq_true_eq]
      exact ⟨hw.1, ih⟩
    · simp only [List.filter_cons, hq]
      exact FMap.wfFrom_mono d (by omega) _ ih

/-- The same for the whole array. -/
theorem FMap.wf_filter [DecidableEq α] (d : Nat → α) (q : Nat × α → Bool) (m : FMap α) (h : FMap.wf d m = true) :
    FMap.wf d (m.filter q) = true := FMap.wfFrom_filter d q m 0 h

end Sys2Proof
end

