-- ==== Sys2Proof/Laws/State.lean ====
section
/-!
SUPPORT. One lemma for each field of the state and each named write: what the write leaves as it was, and what a read of
the unit gives after it.
-/

namespace Sys2Proof.Machine

/-! setStall -/

@[simp] theorem State.setStall_pending (s : State) (k : Nat) (x : Stall) : (s.setStall k x).pending = s.pending := (rfl)
@[simp] theorem State.setStall_mem (s : State) (k : Nat) (x : Stall) : (s.setStall k x).mem = s.mem := (rfl)
@[simp] theorem State.setStall_ecc (s : State) (k : Nat) (x : Stall) : (s.setStall k x).ecc = s.ecc := (rfl)
@[simp] theorem State.setStall_sheds (s : State) (k : Nat) (x : Stall) : (s.setStall k x).sheds = s.sheds := (rfl)
@[simp] theorem State.setStall_mesh (s : State) (k : Nat) (x : Stall) : (s.setStall k x).mesh = s.mesh := (rfl)
@[simp] theorem State.setStall_penOps (s : State) (k : Nat) (x : Stall) : (s.setStall k x).penOps = s.penOps := (rfl)
@[simp] theorem State.setStall_pushes (s : State) (k : Nat) (x : Stall) : (s.setStall k x).pushes = s.pushes := (rfl)
@[simp] theorem State.setStall_engines (s : State) (k : Nat) (x : Stall) : (s.setStall k x).engines = s.engines := (rfl)
@[simp] theorem State.setStall_hints (s : State) (k : Nat) (x : Stall) : (s.setStall k x).hints = s.hints := (rfl)
@[simp] theorem State.setStall_fwd (s : State) (k : Nat) (x : Stall) : (s.setStall k x).fwd = s.fwd := (rfl)
@[simp] theorem State.setStall_hbms (s : State) (k : Nat) (x : Stall) : (s.setStall k x).hbms = s.hbms := (rfl)
@[simp] theorem State.setStall_frames (s : State) (k : Nat) (x : Stall) : (s.setStall k x).frames = s.frames := (rfl)
@[simp] theorem State.setStall_yards (s : State) (k : Nat) (x : Stall) : (s.setStall k x).yards = s.yards := (rfl)
@[simp] theorem State.setStall_parts (s : State) (k : Nat) (x : Stall) : (s.setStall k x).parts = s.parts := (rfl)
@[simp] theorem State.setStall_objs (s : State) (k : Nat) (x : Stall) : (s.setStall k x).objs = s.objs := (rfl)
@[simp] theorem State.setStall_routes (s : State) (k : Nat) (x : Stall) : (s.setStall k x).routes = s.routes := (rfl)
@[simp] theorem State.setStall_logs (s : State) (k : Nat) (x : Stall) : (s.setStall k x).logs = s.logs := (rfl)
@[simp] theorem State.setStall_ports (s : State) (k : Nat) (x : Stall) : (s.setStall k x).ports = s.ports := (rfl)
@[simp] theorem State.setStall_fabric (s : State) (k : Nat) (x : Stall) : (s.setStall k x).fabric = s.fabric := (rfl)
@[simp] theorem State.setStall_host (s : State) (k : Nat) (x : Stall) : (s.setStall k x).host = s.host := (rfl)
@[simp] theorem State.setStall_season (s : State) (k : Nat) (x : Stall) : (s.setStall k x).season = s.season := (rfl)
@[simp] theorem State.setStall_power (s : State) (k : Nat) (x : Stall) : (s.setStall k x).power = s.power := (rfl)
@[simp] theorem State.setStall_perfs (s : State) (k : Nat) (x : Stall) : (s.setStall k x).perfs = s.perfs := (rfl)
@[simp] theorem State.setStall_flash (s : State) (k : Nat) (x : Stall) : (s.setStall k x).flash = s.flash := (rfl)
@[simp] theorem State.setStall_clock (s : State) (k : Nat) (x : Stall) : (s.setStall k x).clock = s.clock := (rfl)
@[simp] theorem State.setStall_time (s : State) (k : Nat) (x : Stall) : (s.setStall k x).time = s.time := (rfl)
@[simp] theorem State.setStall_ctr (s : State) (k : Nat) (x : Stall) : (s.setStall k x).ctr = s.ctr := (rfl)
@[simp] theorem State.setStall_free (s : State) (k : Nat) (x : Stall) : (s.setStall k x).free = s.free := (rfl)
@[simp] theorem State.setStall_out (s : State) (k : Nat) (x : Stall) : (s.setStall k x).out = s.out := (rfl)
@[simp] theorem State.setStall_wids (s : State) (k : Nat) (x : Stall) : (s.setStall k x).wids = s.wids := (rfl)
@[simp] theorem State.setStall_shed (s : State) (k : Nat) (x : Stall) (j : Nat) : (s.setStall k x).shed j = s.shed j := (rfl)
@[simp] theorem State.setStall_engine (s : State) (k : Nat) (x : Stall) (j : Nat) : (s.setStall k x).engine j = s.engine j := (rfl)
@[simp] theorem State.setStall_hbm (s : State) (k : Nat) (x : Stall) (j : Nat) : (s.setStall k x).hbm j = s.hbm j := (rfl)
@[simp] theorem State.setStall_yard (s : State) (k : Nat) (x : Stall) (j : Nat) : (s.setStall k x).yard j = s.yard j := (rfl)
@[simp] theorem State.setStall_part (s : State) (k : Nat) (x : Stall) (j : Nat) : (s.setStall k x).part j = s.part j := (rfl)
@[simp] theorem State.setStall_port (s : State) (k : Nat) (x : Stall) (j : Nat) : (s.setStall k x).port j = s.port j := (rfl)
@[simp] theorem State.setStall_log (s : State) (k : Nat) (x : Stall) (j : Nat) : (s.setStall k x).log j = s.log j := (rfl)
@[simp] theorem State.setStall_perf (s : State) (k : Nat) (x : Stall) (j : Nat) : (s.setStall k x).perf j = s.perf j := (rfl)
@[simp] theorem State.setStall_obj (s : State) (k : Nat) (x : Stall) (j : Nat) : (s.setStall k x).obj j = s.obj j := (rfl)
@[simp] theorem State.setStall_byte (s : State) (k : Nat) (x : Stall) (j : Nat) : (s.setStall k x).byte j = s.byte j := (rfl)
@[simp] theorem State.setStall_check (s : State) (k : Nat) (x : Stall) (j : Nat) : (s.setStall k x).check j = s.check j := (rfl)
@[simp] theorem State.setStall_fn (s : State) (k : Nat) (x : Stall) (j : Nat) : (s.setStall k x).fn j = s.fn j := (rfl)
@[simp] theorem State.setStall_sem (s : State) (k : Nat) (x : Stall) (j : Nat) : (s.setStall k x).sem j = s.sem j := (rfl)
@[simp] theorem State.setStall_frame (s : State) (k : Nat) (x : Stall) (i j : Nat) : (s.setStall k x).frame i j = s.frame i j := (rfl)
@[simp] theorem State.setStall_same (s : State) (k : Nat) (x : Stall) : (s.setStall k x).stall k = x := FMap.get_set_same _ _ _ _
theorem State.setStall_ne (s : State) (k : Nat) (x : Stall) {j : Nat} (h : j ≠ k) : (s.setStall k x).stall j = s.stall j :=
  FMap.get_set_ne _ _ _ h
theorem State.setStall_stall (s : State) (k : Nat) (x : Stall) (j : Nat) : (s.setStall k x).stall j = if j = k then x else s.stall j :=
  FMap.get_set _ _ _ _ _

/-! setShed -/

@[simp] theorem State.setShed_pending (s : State) (k : Nat) (x : Shed) : (s.setShed k x).pending = s.pending := (rfl)
@[simp] theorem State.setShed_mem (s : State) (k : Nat) (x : Shed) : (s.setShed k x).mem = s.mem := (rfl)
@[simp] theorem State.setShed_ecc (s : State) (k : Nat) (x : Shed) : (s.setShed k x).ecc = s.ecc := (rfl)
@[simp] theorem State.setShed_stalls (s : State) (k : Nat) (x : Shed) : (s.setShed k x).stalls = s.stalls := (rfl)
@[simp] theorem State.setShed_mesh (s : State) (k : Nat) (x : Shed) : (s.setShed k x).mesh = s.mesh := (rfl)
@[simp] theorem State.setShed_penOps (s : State) (k : Nat) (x : Shed) : (s.setShed k x).penOps = s.penOps := (rfl)
@[simp] theorem State.setShed_pushes (s : State) (k : Nat) (x : Shed) : (s.setShed k x).pushes = s.pushes := (rfl)
@[simp] theorem State.setShed_engines (s : State) (k : Nat) (x : Shed) : (s.setShed k x).engines = s.engines := (rfl)
@[simp] theorem State.setShed_hints (s : State) (k : Nat) (x : Shed) : (s.setShed k x).hints = s.hints := (rfl)
@[simp] theorem State.setShed_fwd (s : State) (k : Nat) (x : Shed) : (s.setShed k x).fwd = s.fwd := (rfl)
@[simp] theorem State.setShed_hbms (s : State) (k : Nat) (x : Shed) : (s.setShed k x).hbms = s.hbms := (rfl)
@[simp] theorem State.setShed_frames (s : State) (k : Nat) (x : Shed) : (s.setShed k x).frames = s.frames := (rfl)
@[simp] theorem State.setShed_yards (s : State) (k : Nat) (x : Shed) : (s.setShed k x).yards = s.yards := (rfl)
@[simp] theorem State.setShed_parts (s : State) (k : Nat) (x : Shed) : (s.setShed k x).parts = s.parts := (rfl)
@[simp] theorem State.setShed_objs (s : State) (k : Nat) (x : Shed) : (s.setShed k x).objs = s.objs := (rfl)
@[simp] theorem State.setShed_routes (s : State) (k : Nat) (x : Shed) : (s.setShed k x).routes = s.routes := (rfl)
@[simp] theorem State.setShed_logs (s : State) (k : Nat) (x : Shed) : (s.setShed k x).logs = s.logs := (rfl)
@[simp] theorem State.setShed_ports (s : State) (k : Nat) (x : Shed) : (s.setShed k x).ports = s.ports := (rfl)
@[simp] theorem State.setShed_fabric (s : State) (k : Nat) (x : Shed) : (s.setShed k x).fabric = s.fabric := (rfl)
@[simp] theorem State.setShed_host (s : State) (k : Nat) (x : Shed) : (s.setShed k x).host = s.host := (rfl)
@[simp] theorem State.setShed_season (s : State) (k : Nat) (x : Shed) : (s.setShed k x).season = s.season := (rfl)
@[simp] theorem State.setShed_power (s : State) (k : Nat) (x : Shed) : (s.setShed k x).power = s.power := (rfl)
@[simp] theorem State.setShed_perfs (s : State) (k : Nat) (x : Shed) : (s.setShed k x).perfs = s.perfs := (rfl)
@[simp] theorem State.setShed_flash (s : State) (k : Nat) (x : Shed) : (s.setShed k x).flash = s.flash := (rfl)
@[simp] theorem State.setShed_clock (s : State) (k : Nat) (x : Shed) : (s.setShed k x).clock = s.clock := (rfl)
@[simp] theorem State.setShed_time (s : State) (k : Nat) (x : Shed) : (s.setShed k x).time = s.time := (rfl)
@[simp] theorem State.setShed_ctr (s : State) (k : Nat) (x : Shed) : (s.setShed k x).ctr = s.ctr := (rfl)
@[simp] theorem State.setShed_free (s : State) (k : Nat) (x : Shed) : (s.setShed k x).free = s.free := (rfl)
@[simp] theorem State.setShed_out (s : State) (k : Nat) (x : Shed) : (s.setShed k x).out = s.out := (rfl)
@[simp] theorem State.setShed_wids (s : State) (k : Nat) (x : Shed) : (s.setShed k x).wids = s.wids := (rfl)
@[simp] theorem State.setShed_stall (s : State) (k : Nat) (x : Shed) (j : Nat) : (s.setShed k x).stall j = s.stall j := (rfl)
@[simp] theorem State.setShed_engine (s : State) (k : Nat) (x : Shed) (j : Nat) : (s.setShed k x).engine j = s.engine j := (rfl)
@[simp] theorem State.setShed_hbm (s : State) (k : Nat) (x : Shed) (j : Nat) : (s.setShed k x).hbm j = s.hbm j := (rfl)
@[simp] theorem State.setShed_yard (s : State) (k : Nat) (x : Shed) (j : Nat) : (s.setShed k x).yard j = s.yard j := (rfl)
@[simp] theorem State.setShed_part (s : State) (k : Nat) (x : Shed) (j : Nat) : (s.setShed k x).part j = s.part j := (rfl)
@[simp] theorem State.setShed_port (s : State) (k : Nat) (x : Shed) (j : Nat) : (s.setShed k x).port j = s.port j := (rfl)
@[simp] theorem State.setShed_log (s : State) (k : Nat) (x : Shed) (j : Nat) : (s.setShed k x).log j = s.log j := (rfl)
@[simp] theorem State.setShed_perf (s : State) (k : Nat) (x : Shed) (j : Nat) : (s.setShed k x).perf j = s.perf j := (rfl)
@[simp] theorem State.setShed_obj (s : State) (k : Nat) (x : Shed) (j : Nat) : (s.setShed k x).obj j = s.obj j := (rfl)
@[simp] theorem State.setShed_byte (s : State) (k : Nat) (x : Shed) (j : Nat) : (s.setShed k x).byte j = s.byte j := (rfl)
@[simp] theorem State.setShed_check (s : State) (k : Nat) (x : Shed) (j : Nat) : (s.setShed k x).check j = s.check j := (rfl)
@[simp] theorem State.setShed_fn (s : State) (k : Nat) (x : Shed) (j : Nat) : (s.setShed k x).fn j = s.fn j := (rfl)
@[simp] theorem State.setShed_sem (s : State) (k : Nat) (x : Shed) (j : Nat) : (s.setShed k x).sem j = s.sem j := (rfl)
@[simp] theorem State.setShed_frame (s : State) (k : Nat) (x : Shed) (i j : Nat) : (s.setShed k x).frame i j = s.frame i j := (rfl)
@[simp] theorem State.setShed_same (s : State) (k : Nat) (x : Shed) : (s.setShed k x).shed k = x := FMap.get_set_same _ _ _ _
theorem State.setShed_ne (s : State) (k : Nat) (x : Shed) {j : Nat} (h : j ≠ k) : (s.setShed k x).shed j = s.shed j :=
  FMap.get_set_ne _ _ _ h
theorem State.setShed_shed (s : State) (k : Nat) (x : Shed) (j : Nat) : (s.setShed k x).shed j = if j = k then x else s.shed j :=
  FMap.get_set _ _ _ _ _

/-! setEngine -/

@[simp] theorem State.setEngine_pending (s : State) (k : Nat) (x : Engine) : (s.setEngine k x).pending = s.pending := (rfl)
@[simp] theorem State.setEngine_mem (s : State) (k : Nat) (x : Engine) : (s.setEngine k x).mem = s.mem := (rfl)
@[simp] theorem State.setEngine_ecc (s : State) (k : Nat) (x : Engine) : (s.setEngine k x).ecc = s.ecc := (rfl)
@[simp] theorem State.setEngine_stalls (s : State) (k : Nat) (x : Engine) : (s.setEngine k x).stalls = s.stalls := (rfl)
@[simp] theorem State.setEngine_sheds (s : State) (k : Nat) (x : Engine) : (s.setEngine k x).sheds = s.sheds := (rfl)
@[simp] theorem State.setEngine_mesh (s : State) (k : Nat) (x : Engine) : (s.setEngine k x).mesh = s.mesh := (rfl)
@[simp] theorem State.setEngine_penOps (s : State) (k : Nat) (x : Engine) : (s.setEngine k x).penOps = s.penOps := (rfl)
@[simp] theorem State.setEngine_pushes (s : State) (k : Nat) (x : Engine) : (s.setEngine k x).pushes = s.pushes := (rfl)
@[simp] theorem State.setEngine_hints (s : State) (k : Nat) (x : Engine) : (s.setEngine k x).hints = s.hints := (rfl)
@[simp] theorem State.setEngine_fwd (s : State) (k : Nat) (x : Engine) : (s.setEngine k x).fwd = s.fwd := (rfl)
@[simp] theorem State.setEngine_hbms (s : State) (k : Nat) (x : Engine) : (s.setEngine k x).hbms = s.hbms := (rfl)
@[simp] theorem State.setEngine_frames (s : State) (k : Nat) (x : Engine) : (s.setEngine k x).frames = s.frames := (rfl)
@[simp] theorem State.setEngine_yards (s : State) (k : Nat) (x : Engine) : (s.setEngine k x).yards = s.yards := (rfl)
@[simp] theorem State.setEngine_parts (s : State) (k : Nat) (x : Engine) : (s.setEngine k x).parts = s.parts := (rfl)
@[simp] theorem State.setEngine_objs (s : State) (k : Nat) (x : Engine) : (s.setEngine k x).objs = s.objs := (rfl)
@[simp] theorem State.setEngine_routes (s : State) (k : Nat) (x : Engine) : (s.setEngine k x).routes = s.routes := (rfl)
@[simp] theorem State.setEngine_logs (s : State) (k : Nat) (x : Engine) : (s.setEngine k x).logs = s.logs := (rfl)
@[simp] theorem State.setEngine_ports (s : State) (k : Nat) (x : Engine) : (s.setEngine k x).ports = s.ports := (rfl)
@[simp] theorem State.setEngine_fabric (s : State) (k : Nat) (x : Engine) : (s.setEngine k x).fabric = s.fabric := (rfl)
@[simp] theorem State.setEngine_host (s : State) (k : Nat) (x : Engine) : (s.setEngine k x).host = s.host := (rfl)
@[simp] theorem State.setEngine_season (s : State) (k : Nat) (x : Engine) : (s.setEngine k x).season = s.season := (rfl)
@[simp] theorem State.setEngine_power (s : State) (k : Nat) (x : Engine) : (s.setEngine k x).power = s.power := (rfl)
@[simp] theorem State.setEngine_perfs (s : State) (k : Nat) (x : Engine) : (s.setEngine k x).perfs = s.perfs := (rfl)
@[simp] theorem State.setEngine_flash (s : State) (k : Nat) (x : Engine) : (s.setEngine k x).flash = s.flash := (rfl)
@[simp] theorem State.setEngine_clock (s : State) (k : Nat) (x : Engine) : (s.setEngine k x).clock = s.clock := (rfl)
@[simp] theorem State.setEngine_time (s : State) (k : Nat) (x : Engine) : (s.setEngine k x).time = s.time := (rfl)
@[simp] theorem State.setEngine_ctr (s : State) (k : Nat) (x : Engine) : (s.setEngine k x).ctr = s.ctr := (rfl)
@[simp] theorem State.setEngine_free (s : State) (k : Nat) (x : Engine) : (s.setEngine k x).free = s.free := (rfl)
@[simp] theorem State.setEngine_out (s : State) (k : Nat) (x : Engine) : (s.setEngine k x).out = s.out := (rfl)
@[simp] theorem State.setEngine_wids (s : State) (k : Nat) (x : Engine) : (s.setEngine k x).wids = s.wids := (rfl)
@[simp] theorem State.setEngine_stall (s : State) (k : Nat) (x : Engine) (j : Nat) : (s.setEngine k x).stall j = s.stall j := (rfl)
@[simp] theorem State.setEngine_shed (s : State) (k : Nat) (x : Engine) (j : Nat) : (s.setEngine k x).shed j = s.shed j := (rfl)
@[simp] theorem State.setEngine_hbm (s : State) (k : Nat) (x : Engine) (j : Nat) : (s.setEngine k x).hbm j = s.hbm j := (rfl)
@[simp] theorem State.setEngine_yard (s : State) (k : Nat) (x : Engine) (j : Nat) : (s.setEngine k x).yard j = s.yard j := (rfl)
@[simp] theorem State.setEngine_part (s : State) (k : Nat) (x : Engine) (j : Nat) : (s.setEngine k x).part j = s.part j := (rfl)
@[simp] theorem State.setEngine_port (s : State) (k : Nat) (x : Engine) (j : Nat) : (s.setEngine k x).port j = s.port j := (rfl)
@[simp] theorem State.setEngine_log (s : State) (k : Nat) (x : Engine) (j : Nat) : (s.setEngine k x).log j = s.log j := (rfl)
@[simp] theorem State.setEngine_perf (s : State) (k : Nat) (x : Engine) (j : Nat) : (s.setEngine k x).perf j = s.perf j := (rfl)
@[simp] theorem State.setEngine_obj (s : State) (k : Nat) (x : Engine) (j : Nat) : (s.setEngine k x).obj j = s.obj j := (rfl)
@[simp] theorem State.setEngine_byte (s : State) (k : Nat) (x : Engine) (j : Nat) : (s.setEngine k x).byte j = s.byte j := (rfl)
@[simp] theorem State.setEngine_check (s : State) (k : Nat) (x : Engine) (j : Nat) : (s.setEngine k x).check j = s.check j := (rfl)
@[simp] theorem State.setEngine_fn (s : State) (k : Nat) (x : Engine) (j : Nat) : (s.setEngine k x).fn j = s.fn j := (rfl)
@[simp] theorem State.setEngine_sem (s : State) (k : Nat) (x : Engine) (j : Nat) : (s.setEngine k x).sem j = s.sem j := (rfl)
@[simp] theorem State.setEngine_frame (s : State) (k : Nat) (x : Engine) (i j : Nat) : (s.setEngine k x).frame i j = s.frame i j := (rfl)
@[simp] theorem State.setEngine_same (s : State) (k : Nat) (x : Engine) : (s.setEngine k x).engine k = x := FMap.get_set_same _ _ _ _
theorem State.setEngine_ne (s : State) (k : Nat) (x : Engine) {j : Nat} (h : j ≠ k) : (s.setEngine k x).engine j = s.engine j :=
  FMap.get_set_ne _ _ _ h
theorem State.setEngine_engine (s : State) (k : Nat) (x : Engine) (j : Nat) : (s.setEngine k x).engine j = if j = k then x else s.engine j :=
  FMap.get_set _ _ _ _ _

/-! setHbm -/

@[simp] theorem State.setHbm_pending (s : State) (k : Nat) (x : Stack) : (s.setHbm k x).pending = s.pending := (rfl)
@[simp] theorem State.setHbm_mem (s : State) (k : Nat) (x : Stack) : (s.setHbm k x).mem = s.mem := (rfl)
@[simp] theorem State.setHbm_ecc (s : State) (k : Nat) (x : Stack) : (s.setHbm k x).ecc = s.ecc := (rfl)
@[simp] theorem State.setHbm_stalls (s : State) (k : Nat) (x : Stack) : (s.setHbm k x).stalls = s.stalls := (rfl)
@[simp] theorem State.setHbm_sheds (s : State) (k : Nat) (x : Stack) : (s.setHbm k x).sheds = s.sheds := (rfl)
@[simp] theorem State.setHbm_mesh (s : State) (k : Nat) (x : Stack) : (s.setHbm k x).mesh = s.mesh := (rfl)
@[simp] theorem State.setHbm_penOps (s : State) (k : Nat) (x : Stack) : (s.setHbm k x).penOps = s.penOps := (rfl)
@[simp] theorem State.setHbm_pushes (s : State) (k : Nat) (x : Stack) : (s.setHbm k x).pushes = s.pushes := (rfl)
@[simp] theorem State.setHbm_engines (s : State) (k : Nat) (x : Stack) : (s.setHbm k x).engines = s.engines := (rfl)
@[simp] theorem State.setHbm_hints (s : State) (k : Nat) (x : Stack) : (s.setHbm k x).hints = s.hints := (rfl)
@[simp] theorem State.setHbm_fwd (s : State) (k : Nat) (x : Stack) : (s.setHbm k x).fwd = s.fwd := (rfl)
@[simp] theorem State.setHbm_frames (s : State) (k : Nat) (x : Stack) : (s.setHbm k x).frames = s.frames := (rfl)
@[simp] theorem State.setHbm_yards (s : State) (k : Nat) (x : Stack) : (s.setHbm k x).yards = s.yards := (rfl)
@[simp] theorem State.setHbm_parts (s : State) (k : Nat) (x : Stack) : (s.setHbm k x).parts = s.parts := (rfl)
@[simp] theorem State.setHbm_objs (s : State) (k : Nat) (x : Stack) : (s.setHbm k x).objs = s.objs := (rfl)
@[simp] theorem State.setHbm_routes (s : State) (k : Nat) (x : Stack) : (s.setHbm k x).routes = s.routes := (rfl)
@[simp] theorem State.setHbm_logs (s : State) (k : Nat) (x : Stack) : (s.setHbm k x).logs = s.logs := (rfl)
@[simp] theorem State.setHbm_ports (s : State) (k : Nat) (x : Stack) : (s.setHbm k x).ports = s.ports := (rfl)
@[simp] theorem State.setHbm_fabric (s : State) (k : Nat) (x : Stack) : (s.setHbm k x).fabric = s.fabric := (rfl)
@[simp] theorem State.setHbm_host (s : State) (k : Nat) (x : Stack) : (s.setHbm k x).host = s.host := (rfl)
@[simp] theorem State.setHbm_season (s : State) (k : Nat) (x : Stack) : (s.setHbm k x).season = s.season := (rfl)
@[simp] theorem State.setHbm_power (s : State) (k : Nat) (x : Stack) : (s.setHbm k x).power = s.power := (rfl)
@[simp] theorem State.setHbm_perfs (s : State) (k : Nat) (x : Stack) : (s.setHbm k x).perfs = s.perfs := (rfl)
@[simp] theorem State.setHbm_flash (s : State) (k : Nat) (x : Stack) : (s.setHbm k x).flash = s.flash := (rfl)
@[simp] theorem State.setHbm_clock (s : State) (k : Nat) (x : Stack) : (s.setHbm k x).clock = s.clock := (rfl)
@[simp] theorem State.setHbm_time (s : State) (k : Nat) (x : Stack) : (s.setHbm k x).time = s.time := (rfl)
@[simp] theorem State.setHbm_ctr (s : State) (k : Nat) (x : Stack) : (s.setHbm k x).ctr = s.ctr := (rfl)
@[simp] theorem State.setHbm_free (s : State) (k : Nat) (x : Stack) : (s.setHbm k x).free = s.free := (rfl)
@[simp] theorem State.setHbm_out (s : State) (k : Nat) (x : Stack) : (s.setHbm k x).out = s.out := (rfl)
@[simp] theorem State.setHbm_wids (s : State) (k : Nat) (x : Stack) : (s.setHbm k x).wids = s.wids := (rfl)
@[simp] theorem State.setHbm_stall (s : State) (k : Nat) (x : Stack) (j : Nat) : (s.setHbm k x).stall j = s.stall j := (rfl)
@[simp] theorem State.setHbm_shed (s : State) (k : Nat) (x : Stack) (j : Nat) : (s.setHbm k x).shed j = s.shed j := (rfl)
@[simp] theorem State.setHbm_engine (s : State) (k : Nat) (x : Stack) (j : Nat) : (s.setHbm k x).engine j = s.engine j := (rfl)
@[simp] theorem State.setHbm_yard (s : State) (k : Nat) (x : Stack) (j : Nat) : (s.setHbm k x).yard j = s.yard j := (rfl)
@[simp] theorem State.setHbm_part (s : State) (k : Nat) (x : Stack) (j : Nat) : (s.setHbm k x).part j = s.part j := (rfl)
@[simp] theorem State.setHbm_port (s : State) (k : Nat) (x : Stack) (j : Nat) : (s.setHbm k x).port j = s.port j := (rfl)
@[simp] theorem State.setHbm_log (s : State) (k : Nat) (x : Stack) (j : Nat) : (s.setHbm k x).log j = s.log j := (rfl)
@[simp] theorem State.setHbm_perf (s : State) (k : Nat) (x : Stack) (j : Nat) : (s.setHbm k x).perf j = s.perf j := (rfl)
@[simp] theorem State.setHbm_obj (s : State) (k : Nat) (x : Stack) (j : Nat) : (s.setHbm k x).obj j = s.obj j := (rfl)
@[simp] theorem State.setHbm_byte (s : State) (k : Nat) (x : Stack) (j : Nat) : (s.setHbm k x).byte j = s.byte j := (rfl)
@[simp] theorem State.setHbm_check (s : State) (k : Nat) (x : Stack) (j : Nat) : (s.setHbm k x).check j = s.check j := (rfl)
@[simp] theorem State.setHbm_fn (s : State) (k : Nat) (x : Stack) (j : Nat) : (s.setHbm k x).fn j = s.fn j := (rfl)
@[simp] theorem State.setHbm_sem (s : State) (k : Nat) (x : Stack) (j : Nat) : (s.setHbm k x).sem j = s.sem j := (rfl)
@[simp] theorem State.setHbm_frame (s : State) (k : Nat) (x : Stack) (i j : Nat) : (s.setHbm k x).frame i j = s.frame i j := (rfl)
@[simp] theorem State.setHbm_same (s : State) (k : Nat) (x : Stack) : (s.setHbm k x).hbm k = x := FMap.get_set_same _ _ _ _
theorem State.setHbm_ne (s : State) (k : Nat) (x : Stack) {j : Nat} (h : j ≠ k) : (s.setHbm k x).hbm j = s.hbm j :=
  FMap.get_set_ne _ _ _ h
theorem State.setHbm_hbm (s : State) (k : Nat) (x : Stack) (j : Nat) : (s.setHbm k x).hbm j = if j = k then x else s.hbm j :=
  FMap.get_set _ _ _ _ _

/-! setYard -/

@[simp] theorem State.setYard_pending (s : State) (k : Nat) (x : Yard) : (s.setYard k x).pending = s.pending := (rfl)
@[simp] theorem State.setYard_mem (s : State) (k : Nat) (x : Yard) : (s.setYard k x).mem = s.mem := (rfl)
@[simp] theorem State.setYard_ecc (s : State) (k : Nat) (x : Yard) : (s.setYard k x).ecc = s.ecc := (rfl)
@[simp] theorem State.setYard_stalls (s : State) (k : Nat) (x : Yard) : (s.setYard k x).stalls = s.stalls := (rfl)
@[simp] theorem State.setYard_sheds (s : State) (k : Nat) (x : Yard) : (s.setYard k x).sheds = s.sheds := (rfl)
@[simp] theorem State.setYard_mesh (s : State) (k : Nat) (x : Yard) : (s.setYard k x).mesh = s.mesh := (rfl)
@[simp] theorem State.setYard_penOps (s : State) (k : Nat) (x : Yard) : (s.setYard k x).penOps = s.penOps := (rfl)
@[simp] theorem State.setYard_pushes (s : State) (k : Nat) (x : Yard) : (s.setYard k x).pushes = s.pushes := (rfl)
@[simp] theorem State.setYard_engines (s : State) (k : Nat) (x : Yard) : (s.setYard k x).engines = s.engines := (rfl)
@[simp] theorem State.setYard_hints (s : State) (k : Nat) (x : Yard) : (s.setYard k x).hints = s.hints := (rfl)
@[simp] theorem State.setYard_fwd (s : State) (k : Nat) (x : Yard) : (s.setYard k x).fwd = s.fwd := (rfl)
@[simp] theorem State.setYard_hbms (s : State) (k : Nat) (x : Yard) : (s.setYard k x).hbms = s.hbms := (rfl)
@[simp] theorem State.setYard_frames (s : State) (k : Nat) (x : Yard) : (s.setYard k x).frames = s.frames := (rfl)
@[simp] theorem State.setYard_parts (s : State) (k : Nat) (x : Yard) : (s.setYard k x).parts = s.parts := (rfl)
@[simp] theorem State.setYard_objs (s : State) (k : Nat) (x : Yard) : (s.setYard k x).objs = s.objs := (rfl)
@[simp] theorem State.setYard_routes (s : State) (k : Nat) (x : Yard) : (s.setYard k x).routes = s.routes := (rfl)
@[simp] theorem State.setYard_logs (s : State) (k : Nat) (x : Yard) : (s.setYard k x).logs = s.logs := (rfl)
@[simp] theorem State.setYard_ports (s : State) (k : Nat) (x : Yard) : (s.setYard k x).ports = s.ports := (rfl)
@[simp] theorem State.setYard_fabric (s : State) (k : Nat) (x : Yard) : (s.setYard k x).fabric = s.fabric := (rfl)
@[simp] theorem State.setYard_host (s : State) (k : Nat) (x : Yard) : (s.setYard k x).host = s.host := (rfl)
@[simp] theorem State.setYard_season (s : State) (k : Nat) (x : Yard) : (s.setYard k x).season = s.season := (rfl)
@[simp] theorem State.setYard_power (s : State) (k : Nat) (x : Yard) : (s.setYard k x).power = s.power := (rfl)
@[simp] theorem State.setYard_perfs (s : State) (k : Nat) (x : Yard) : (s.setYard k x).perfs = s.perfs := (rfl)
@[simp] theorem State.setYard_flash (s : State) (k : Nat) (x : Yard) : (s.setYard k x).flash = s.flash := (rfl)
@[simp] theorem State.setYard_clock (s : State) (k : Nat) (x : Yard) : (s.setYard k x).clock = s.clock := (rfl)
@[simp] theorem State.setYard_time (s : State) (k : Nat) (x : Yard) : (s.setYard k x).time = s.time := (rfl)
@[simp] theorem State.setYard_ctr (s : State) (k : Nat) (x : Yard) : (s.setYard k x).ctr = s.ctr := (rfl)
@[simp] theorem State.setYard_free (s : State) (k : Nat) (x : Yard) : (s.setYard k x).free = s.free := (rfl)
@[simp] theorem State.setYard_out (s : State) (k : Nat) (x : Yard) : (s.setYard k x).out = s.out := (rfl)
@[simp] theorem State.setYard_wids (s : State) (k : Nat) (x : Yard) : (s.setYard k x).wids = s.wids := (rfl)
@[simp] theorem State.setYard_stall (s : State) (k : Nat) (x : Yard) (j : Nat) : (s.setYard k x).stall j = s.stall j := (rfl)
@[simp] theorem State.setYard_shed (s : State) (k : Nat) (x : Yard) (j : Nat) : (s.setYard k x).shed j = s.shed j := (rfl)
@[simp] theorem State.setYard_engine (s : State) (k : Nat) (x : Yard) (j : Nat) : (s.setYard k x).engine j = s.engine j := (rfl)
@[simp] theorem State.setYard_hbm (s : State) (k : Nat) (x : Yard) (j : Nat) : (s.setYard k x).hbm j = s.hbm j := (rfl)
@[simp] theorem State.setYard_part (s : State) (k : Nat) (x : Yard) (j : Nat) : (s.setYard k x).part j = s.part j := (rfl)
@[simp] theorem State.setYard_port (s : State) (k : Nat) (x : Yard) (j : Nat) : (s.setYard k x).port j = s.port j := (rfl)
@[simp] theorem State.setYard_log (s : State) (k : Nat) (x : Yard) (j : Nat) : (s.setYard k x).log j = s.log j := (rfl)
@[simp] theorem State.setYard_perf (s : State) (k : Nat) (x : Yard) (j : Nat) : (s.setYard k x).perf j = s.perf j := (rfl)
@[simp] theorem State.setYard_obj (s : State) (k : Nat) (x : Yard) (j : Nat) : (s.setYard k x).obj j = s.obj j := (rfl)
@[simp] theorem State.setYard_byte (s : State) (k : Nat) (x : Yard) (j : Nat) : (s.setYard k x).byte j = s.byte j := (rfl)
@[simp] theorem State.setYard_check (s : State) (k : Nat) (x : Yard) (j : Nat) : (s.setYard k x).check j = s.check j := (rfl)
@[simp] theorem State.setYard_fn (s : State) (k : Nat) (x : Yard) (j : Nat) : (s.setYard k x).fn j = s.fn j := (rfl)
@[simp] theorem State.setYard_sem (s : State) (k : Nat) (x : Yard) (j : Nat) : (s.setYard k x).sem j = s.sem j := (rfl)
@[simp] theorem State.setYard_frame (s : State) (k : Nat) (x : Yard) (i j : Nat) : (s.setYard k x).frame i j = s.frame i j := (rfl)
@[simp] theorem State.setYard_same (s : State) (k : Nat) (x : Yard) : (s.setYard k x).yard k = x := FMap.get_set_same _ _ _ _
theorem State.setYard_ne (s : State) (k : Nat) (x : Yard) {j : Nat} (h : j ≠ k) : (s.setYard k x).yard j = s.yard j :=
  FMap.get_set_ne _ _ _ h
theorem State.setYard_yard (s : State) (k : Nat) (x : Yard) (j : Nat) : (s.setYard k x).yard j = if j = k then x else s.yard j :=
  FMap.get_set _ _ _ _ _

/-! setPart -/

@[simp] theorem State.setPart_pending (s : State) (k : Nat) (x : Part) : (s.setPart k x).pending = s.pending := (rfl)
@[simp] theorem State.setPart_mem (s : State) (k : Nat) (x : Part) : (s.setPart k x).mem = s.mem := (rfl)
@[simp] theorem State.setPart_ecc (s : State) (k : Nat) (x : Part) : (s.setPart k x).ecc = s.ecc := (rfl)
@[simp] theorem State.setPart_stalls (s : State) (k : Nat) (x : Part) : (s.setPart k x).stalls = s.stalls := (rfl)
@[simp] theorem State.setPart_sheds (s : State) (k : Nat) (x : Part) : (s.setPart k x).sheds = s.sheds := (rfl)
@[simp] theorem State.setPart_mesh (s : State) (k : Nat) (x : Part) : (s.setPart k x).mesh = s.mesh := (rfl)
@[simp] theorem State.setPart_penOps (s : State) (k : Nat) (x : Part) : (s.setPart k x).penOps = s.penOps := (rfl)
@[simp] theorem State.setPart_pushes (s : State) (k : Nat) (x : Part) : (s.setPart k x).pushes = s.pushes := (rfl)
@[simp] theorem State.setPart_engines (s : State) (k : Nat) (x : Part) : (s.setPart k x).engines = s.engines := (rfl)
@[simp] theorem State.setPart_hints (s : State) (k : Nat) (x : Part) : (s.setPart k x).hints = s.hints := (rfl)
@[simp] theorem State.setPart_fwd (s : State) (k : Nat) (x : Part) : (s.setPart k x).fwd = s.fwd := (rfl)
@[simp] theorem State.setPart_hbms (s : State) (k : Nat) (x : Part) : (s.setPart k x).hbms = s.hbms := (rfl)
@[simp] theorem State.setPart_frames (s : State) (k : Nat) (x : Part) : (s.setPart k x).frames = s.frames := (rfl)
@[simp] theorem State.setPart_yards (s : State) (k : Nat) (x : Part) : (s.setPart k x).yards = s.yards := (rfl)
@[simp] theorem State.setPart_objs (s : State) (k : Nat) (x : Part) : (s.setPart k x).objs = s.objs := (rfl)
@[simp] theorem State.setPart_routes (s : State) (k : Nat) (x : Part) : (s.setPart k x).routes = s.routes := (rfl)
@[simp] theorem State.setPart_logs (s : State) (k : Nat) (x : Part) : (s.setPart k x).logs = s.logs := (rfl)
@[simp] theorem State.setPart_ports (s : State) (k : Nat) (x : Part) : (s.setPart k x).ports = s.ports := (rfl)
@[simp] theorem State.setPart_fabric (s : State) (k : Nat) (x : Part) : (s.setPart k x).fabric = s.fabric := (rfl)
@[simp] theorem State.setPart_host (s : State) (k : Nat) (x : Part) : (s.setPart k x).host = s.host := (rfl)
@[simp] theorem State.setPart_season (s : State) (k : Nat) (x : Part) : (s.setPart k x).season = s.season := (rfl)
@[simp] theorem State.setPart_power (s : State) (k : Nat) (x : Part) : (s.setPart k x).power = s.power := (rfl)
@[simp] theorem State.setPart_perfs (s : State) (k : Nat) (x : Part) : (s.setPart k x).perfs = s.perfs := (rfl)
@[simp] theorem State.setPart_flash (s : State) (k : Nat) (x : Part) : (s.setPart k x).flash = s.flash := (rfl)
@[simp] theorem State.setPart_clock (s : State) (k : Nat) (x : Part) : (s.setPart k x).clock = s.clock := (rfl)
@[simp] theorem State.setPart_time (s : State) (k : Nat) (x : Part) : (s.setPart k x).time = s.time := (rfl)
@[simp] theorem State.setPart_ctr (s : State) (k : Nat) (x : Part) : (s.setPart k x).ctr = s.ctr := (rfl)
@[simp] theorem State.setPart_free (s : State) (k : Nat) (x : Part) : (s.setPart k x).free = s.free := (rfl)
@[simp] theorem State.setPart_out (s : State) (k : Nat) (x : Part) : (s.setPart k x).out = s.out := (rfl)
@[simp] theorem State.setPart_wids (s : State) (k : Nat) (x : Part) : (s.setPart k x).wids = s.wids := (rfl)
@[simp] theorem State.setPart_stall (s : State) (k : Nat) (x : Part) (j : Nat) : (s.setPart k x).stall j = s.stall j := (rfl)
@[simp] theorem State.setPart_shed (s : State) (k : Nat) (x : Part) (j : Nat) : (s.setPart k x).shed j = s.shed j := (rfl)
@[simp] theorem State.setPart_engine (s : State) (k : Nat) (x : Part) (j : Nat) : (s.setPart k x).engine j = s.engine j := (rfl)
@[simp] theorem State.setPart_hbm (s : State) (k : Nat) (x : Part) (j : Nat) : (s.setPart k x).hbm j = s.hbm j := (rfl)
@[simp] theorem State.setPart_yard (s : State) (k : Nat) (x : Part) (j : Nat) : (s.setPart k x).yard j = s.yard j := (rfl)
@[simp] theorem State.setPart_port (s : State) (k : Nat) (x : Part) (j : Nat) : (s.setPart k x).port j = s.port j := (rfl)
@[simp] theorem State.setPart_log (s : State) (k : Nat) (x : Part) (j : Nat) : (s.setPart k x).log j = s.log j := (rfl)
@[simp] theorem State.setPart_perf (s : State) (k : Nat) (x : Part) (j : Nat) : (s.setPart k x).perf j = s.perf j := (rfl)
@[simp] theorem State.setPart_obj (s : State) (k : Nat) (x : Part) (j : Nat) : (s.setPart k x).obj j = s.obj j := (rfl)
@[simp] theorem State.setPart_byte (s : State) (k : Nat) (x : Part) (j : Nat) : (s.setPart k x).byte j = s.byte j := (rfl)
@[simp] theorem State.setPart_check (s : State) (k : Nat) (x : Part) (j : Nat) : (s.setPart k x).check j = s.check j := (rfl)
@[simp] theorem State.setPart_fn (s : State) (k : Nat) (x : Part) (j : Nat) : (s.setPart k x).fn j = s.fn j := (rfl)
@[simp] theorem State.setPart_sem (s : State) (k : Nat) (x : Part) (j : Nat) : (s.setPart k x).sem j = s.sem j := (rfl)
@[simp] theorem State.setPart_frame (s : State) (k : Nat) (x : Part) (i j : Nat) : (s.setPart k x).frame i j = s.frame i j := (rfl)
@[simp] theorem State.setPart_same (s : State) (k : Nat) (x : Part) : (s.setPart k x).part k = x := FMap.get_set_same _ _ _ _
theorem State.setPart_ne (s : State) (k : Nat) (x : Part) {j : Nat} (h : j ≠ k) : (s.setPart k x).part j = s.part j :=
  FMap.get_set_ne _ _ _ h
theorem State.setPart_part (s : State) (k : Nat) (x : Part) (j : Nat) : (s.setPart k x).part j = if j = k then x else s.part j :=
  FMap.get_set _ _ _ _ _

/-! setPort -/

@[simp] theorem State.setPort_pending (s : State) (k : Nat) (x : Port) : (s.setPort k x).pending = s.pending := (rfl)
@[simp] theorem State.setPort_mem (s : State) (k : Nat) (x : Port) : (s.setPort k x).mem = s.mem := (rfl)
@[simp] theorem State.setPort_ecc (s : State) (k : Nat) (x : Port) : (s.setPort k x).ecc = s.ecc := (rfl)
@[simp] theorem State.setPort_stalls (s : State) (k : Nat) (x : Port) : (s.setPort k x).stalls = s.stalls := (rfl)
@[simp] theorem State.setPort_sheds (s : State) (k : Nat) (x : Port) : (s.setPort k x).sheds = s.sheds := (rfl)
@[simp] theorem State.setPort_mesh (s : State) (k : Nat) (x : Port) : (s.setPort k x).mesh = s.mesh := (rfl)
@[simp] theorem State.setPort_penOps (s : State) (k : Nat) (x : Port) : (s.setPort k x).penOps = s.penOps := (rfl)
@[simp] theorem State.setPort_pushes (s : State) (k : Nat) (x : Port) : (s.setPort k x).pushes = s.pushes := (rfl)
@[simp] theorem State.setPort_engines (s : State) (k : Nat) (x : Port) : (s.setPort k x).engines = s.engines := (rfl)
@[simp] theorem State.setPort_hints (s : State) (k : Nat) (x : Port) : (s.setPort k x).hints = s.hints := (rfl)
@[simp] theorem State.setPort_fwd (s : State) (k : Nat) (x : Port) : (s.setPort k x).fwd = s.fwd := (rfl)
@[simp] theorem State.setPort_hbms (s : State) (k : Nat) (x : Port) : (s.setPort k x).hbms = s.hbms := (rfl)
@[simp] theorem State.setPort_frames (s : State) (k : Nat) (x : Port) : (s.setPort k x).frames = s.frames := (rfl)
@[simp] theorem State.setPort_yards (s : State) (k : Nat) (x : Port) : (s.setPort k x).yards = s.yards := (rfl)
@[simp] theorem State.setPort_parts (s : State) (k : Nat) (x : Port) : (s.setPort k x).parts = s.parts := (rfl)
@[simp] theorem State.setPort_objs (s : State) (k : Nat) (x : Port) : (s.setPort k x).objs = s.objs := (rfl)
@[simp] theorem State.setPort_routes (s : State) (k : Nat) (x : Port) : (s.setPort k x).routes = s.routes := (rfl)
@[simp] theorem State.setPort_logs (s : State) (k : Nat) (x : Port) : (s.setPort k x).logs = s.logs := (rfl)
@[simp] theorem State.setPort_fabric (s : State) (k : Nat) (x : Port) : (s.setPort k x).fabric = s.fabric := (rfl)
@[simp] theorem State.setPort_host (s : State) (k : Nat) (x : Port) : (s.setPort k x).host = s.host := (rfl)
@[simp] theorem State.setPort_season (s : State) (k : Nat) (x : Port) : (s.setPort k x).season = s.season := (rfl)
@[simp] theorem State.setPort_power (s : State) (k : Nat) (x : Port) : (s.setPort k x).power = s.power := (rfl)
@[simp] theorem State.setPort_perfs (s : State) (k : Nat) (x : Port) : (s.setPort k x).perfs = s.perfs := (rfl)
@[simp] theorem State.setPort_flash (s : State) (k : Nat) (x : Port) : (s.setPort k x).flash = s.flash := (rfl)
@[simp] theorem State.setPort_clock (s : State) (k : Nat) (x : Port) : (s.setPort k x).clock = s.clock := (rfl)
@[simp] theorem State.setPort_time (s : State) (k : Nat) (x : Port) : (s.setPort k x).time = s.time := (rfl)
@[simp] theorem State.setPort_ctr (s : State) (k : Nat) (x : Port) : (s.setPort k x).ctr = s.ctr := (rfl)
@[simp] theorem State.setPort_free (s : State) (k : Nat) (x : Port) : (s.setPort k x).free = s.free := (rfl)
@[simp] theorem State.setPort_out (s : State) (k : Nat) (x : Port) : (s.setPort k x).out = s.out := (rfl)
@[simp] theorem State.setPort_wids (s : State) (k : Nat) (x : Port) : (s.setPort k x).wids = s.wids := (rfl)
@[simp] theorem State.setPort_stall (s : State) (k : Nat) (x : Port) (j : Nat) : (s.setPort k x).stall j = s.stall j := (rfl)
@[simp] theorem State.setPort_shed (s : State) (k : Nat) (x : Port) (j : Nat) : (s.setPort k x).shed j = s.shed j := (rfl)
@[simp] theorem State.setPort_engine (s : State) (k : Nat) (x : Port) (j : Nat) : (s.setPort k x).engine j = s.engine j := (rfl)
@[simp] theorem State.setPort_hbm (s : State) (k : Nat) (x : Port) (j : Nat) : (s.setPort k x).hbm j = s.hbm j := (rfl)
@[simp] theorem State.setPort_yard (s : State) (k : Nat) (x : Port) (j : Nat) : (s.setPort k x).yard j = s.yard j := (rfl)
@[simp] theorem State.setPort_part (s : State) (k : Nat) (x : Port) (j : Nat) : (s.setPort k x).part j = s.part j := (rfl)
@[simp] theorem State.setPort_log (s : State) (k : Nat) (x : Port) (j : Nat) : (s.setPort k x).log j = s.log j := (rfl)
@[simp] theorem State.setPort_perf (s : State) (k : Nat) (x : Port) (j : Nat) : (s.setPort k x).perf j = s.perf j := (rfl)
@[simp] theorem State.setPort_obj (s : State) (k : Nat) (x : Port) (j : Nat) : (s.setPort k x).obj j = s.obj j := (rfl)
@[simp] theorem State.setPort_byte (s : State) (k : Nat) (x : Port) (j : Nat) : (s.setPort k x).byte j = s.byte j := (rfl)
@[simp] theorem State.setPort_check (s : State) (k : Nat) (x : Port) (j : Nat) : (s.setPort k x).check j = s.check j := (rfl)
@[simp] theorem State.setPort_fn (s : State) (k : Nat) (x : Port) (j : Nat) : (s.setPort k x).fn j = s.fn j := (rfl)
@[simp] theorem State.setPort_sem (s : State) (k : Nat) (x : Port) (j : Nat) : (s.setPort k x).sem j = s.sem j := (rfl)
@[simp] theorem State.setPort_frame (s : State) (k : Nat) (x : Port) (i j : Nat) : (s.setPort k x).frame i j = s.frame i j := (rfl)
@[simp] theorem State.setPort_same (s : State) (k : Nat) (x : Port) : (s.setPort k x).port k = x := FMap.get_set_same _ _ _ _
theorem State.setPort_ne (s : State) (k : Nat) (x : Port) {j : Nat} (h : j ≠ k) : (s.setPort k x).port j = s.port j :=
  FMap.get_set_ne _ _ _ h
theorem State.setPort_port (s : State) (k : Nat) (x : Port) (j : Nat) : (s.setPort k x).port j = if j = k then x else s.port j :=
  FMap.get_set _ _ _ _ _

/-! setLog -/

@[simp] theorem State.setLog_pending (s : State) (k : Nat) (x : Log) : (s.setLog k x).pending = s.pending := (rfl)
@[simp] theorem State.setLog_mem (s : State) (k : Nat) (x : Log) : (s.setLog k x).mem = s.mem := (rfl)
@[simp] theorem State.setLog_ecc (s : State) (k : Nat) (x : Log) : (s.setLog k x).ecc = s.ecc := (rfl)
@[simp] theorem State.setLog_stalls (s : State) (k : Nat) (x : Log) : (s.setLog k x).stalls = s.stalls := (rfl)
@[simp] theorem State.setLog_sheds (s : State) (k : Nat) (x : Log) : (s.setLog k x).sheds = s.sheds := (rfl)
@[simp] theorem State.setLog_mesh (s : State) (k : Nat) (x : Log) : (s.setLog k x).mesh = s.mesh := (rfl)
@[simp] theorem State.setLog_penOps (s : State) (k : Nat) (x : Log) : (s.setLog k x).penOps = s.penOps := (rfl)
@[simp] theorem State.setLog_pushes (s : State) (k : Nat) (x : Log) : (s.setLog k x).pushes = s.pushes := (rfl)
@[simp] theorem State.setLog_engines (s : State) (k : Nat) (x : Log) : (s.setLog k x).engines = s.engines := (rfl)
@[simp] theorem State.setLog_hints (s : State) (k : Nat) (x : Log) : (s.setLog k x).hints = s.hints := (rfl)
@[simp] theorem State.setLog_fwd (s : State) (k : Nat) (x : Log) : (s.setLog k x).fwd = s.fwd := (rfl)
@[simp] theorem State.setLog_hbms (s : State) (k : Nat) (x : Log) : (s.setLog k x).hbms = s.hbms := (rfl)
@[simp] theorem State.setLog_frames (s : State) (k : Nat) (x : Log) : (s.setLog k x).frames = s.frames := (rfl)
@[simp] theorem State.setLog_yards (s : State) (k : Nat) (x : Log) : (s.setLog k x).yards = s.yards := (rfl)
@[simp] theorem State.setLog_parts (s : State) (k : Nat) (x : Log) : (s.setLog k x).parts = s.parts := (rfl)
@[simp] theorem State.setLog_objs (s : State) (k : Nat) (x : Log) : (s.setLog k x).objs = s.objs := (rfl)
@[simp] theorem State.setLog_routes (s : State) (k : Nat) (x : Log) : (s.setLog k x).routes = s.routes := (rfl)
@[simp] theorem State.setLog_ports (s : State) (k : Nat) (x : Log) : (s.setLog k x).ports = s.ports := (rfl)
@[simp] theorem State.setLog_fabric (s : State) (k : Nat) (x : Log) : (s.setLog k x).fabric = s.fabric := (rfl)
@[simp] theorem State.setLog_host (s : State) (k : Nat) (x : Log) : (s.setLog k x).host = s.host := (rfl)
@[simp] theorem State.setLog_season (s : State) (k : Nat) (x : Log) : (s.setLog k x).season = s.season := (rfl)
@[simp] theorem State.setLog_power (s : State) (k : Nat) (x : Log) : (s.setLog k x).power = s.power := (rfl)
@[simp] theorem State.setLog_perfs (s : State) (k : Nat) (x : Log) : (s.setLog k x).perfs = s.perfs := (rfl)
@[simp] theorem State.setLog_flash (s : State) (k : Nat) (x : Log) : (s.setLog k x).flash = s.flash := (rfl)
@[simp] theorem State.setLog_clock (s : State) (k : Nat) (x : Log) : (s.setLog k x).clock = s.clock := (rfl)
@[simp] theorem State.setLog_time (s : State) (k : Nat) (x : Log) : (s.setLog k x).time = s.time := (rfl)
@[simp] theorem State.setLog_ctr (s : State) (k : Nat) (x : Log) : (s.setLog k x).ctr = s.ctr := (rfl)
@[simp] theorem State.setLog_free (s : State) (k : Nat) (x : Log) : (s.setLog k x).free = s.free := (rfl)
@[simp] theorem State.setLog_out (s : State) (k : Nat) (x : Log) : (s.setLog k x).out = s.out := (rfl)
@[simp] theorem State.setLog_wids (s : State) (k : Nat) (x : Log) : (s.setLog k x).wids = s.wids := (rfl)
@[simp] theorem State.setLog_stall (s : State) (k : Nat) (x : Log) (j : Nat) : (s.setLog k x).stall j = s.stall j := (rfl)
@[simp] theorem State.setLog_shed (s : State) (k : Nat) (x : Log) (j : Nat) : (s.setLog k x).shed j = s.shed j := (rfl)
@[simp] theorem State.setLog_engine (s : State) (k : Nat) (x : Log) (j : Nat) : (s.setLog k x).engine j = s.engine j := (rfl)
@[simp] theorem State.setLog_hbm (s : State) (k : Nat) (x : Log) (j : Nat) : (s.setLog k x).hbm j = s.hbm j := (rfl)
@[simp] theorem State.setLog_yard (s : State) (k : Nat) (x : Log) (j : Nat) : (s.setLog k x).yard j = s.yard j := (rfl)
@[simp] theorem State.setLog_part (s : State) (k : Nat) (x : Log) (j : Nat) : (s.setLog k x).part j = s.part j := (rfl)
@[simp] theorem State.setLog_port (s : State) (k : Nat) (x : Log) (j : Nat) : (s.setLog k x).port j = s.port j := (rfl)
@[simp] theorem State.setLog_perf (s : State) (k : Nat) (x : Log) (j : Nat) : (s.setLog k x).perf j = s.perf j := (rfl)
@[simp] theorem State.setLog_obj (s : State) (k : Nat) (x : Log) (j : Nat) : (s.setLog k x).obj j = s.obj j := (rfl)
@[simp] theorem State.setLog_byte (s : State) (k : Nat) (x : Log) (j : Nat) : (s.setLog k x).byte j = s.byte j := (rfl)
@[simp] theorem State.setLog_check (s : State) (k : Nat) (x : Log) (j : Nat) : (s.setLog k x).check j = s.check j := (rfl)
@[simp] theorem State.setLog_fn (s : State) (k : Nat) (x : Log) (j : Nat) : (s.setLog k x).fn j = s.fn j := (rfl)
@[simp] theorem State.setLog_sem (s : State) (k : Nat) (x : Log) (j : Nat) : (s.setLog k x).sem j = s.sem j := (rfl)
@[simp] theorem State.setLog_frame (s : State) (k : Nat) (x : Log) (i j : Nat) : (s.setLog k x).frame i j = s.frame i j := (rfl)
@[simp] theorem State.setLog_same (s : State) (k : Nat) (x : Log) : (s.setLog k x).log k = x := FMap.get_set_same _ _ _ _
theorem State.setLog_ne (s : State) (k : Nat) (x : Log) {j : Nat} (h : j ≠ k) : (s.setLog k x).log j = s.log j :=
  FMap.get_set_ne _ _ _ h
theorem State.setLog_log (s : State) (k : Nat) (x : Log) (j : Nat) : (s.setLog k x).log j = if j = k then x else s.log j :=
  FMap.get_set _ _ _ _ _

/-! setPerf -/

@[simp] theorem State.setPerf_pending (s : State) (k : Nat) (x : Perf) : (s.setPerf k x).pending = s.pending := (rfl)
@[simp] theorem State.setPerf_mem (s : State) (k : Nat) (x : Perf) : (s.setPerf k x).mem = s.mem := (rfl)
@[simp] theorem State.setPerf_ecc (s : State) (k : Nat) (x : Perf) : (s.setPerf k x).ecc = s.ecc := (rfl)
@[simp] theorem State.setPerf_stalls (s : State) (k : Nat) (x : Perf) : (s.setPerf k x).stalls = s.stalls := (rfl)
@[simp] theorem State.setPerf_sheds (s : State) (k : Nat) (x : Perf) : (s.setPerf k x).sheds = s.sheds := (rfl)
@[simp] theorem State.setPerf_mesh (s : State) (k : Nat) (x : Perf) : (s.setPerf k x).mesh = s.mesh := (rfl)
@[simp] theorem State.setPerf_penOps (s : State) (k : Nat) (x : Perf) : (s.setPerf k x).penOps = s.penOps := (rfl)
@[simp] theorem State.setPerf_pushes (s : State) (k : Nat) (x : Perf) : (s.setPerf k x).pushes = s.pushes := (rfl)
@[simp] theorem State.setPerf_engines (s : State) (k : Nat) (x : Perf) : (s.setPerf k x).engines = s.engines := (rfl)
@[simp] theorem State.setPerf_hints (s : State) (k : Nat) (x : Perf) : (s.setPerf k x).hints = s.hints := (rfl)
@[simp] theorem State.setPerf_fwd (s : State) (k : Nat) (x : Perf) : (s.setPerf k x).fwd = s.fwd := (rfl)
@[simp] theorem State.setPerf_hbms (s : State) (k : Nat) (x : Perf) : (s.setPerf k x).hbms = s.hbms := (rfl)
@[simp] theorem State.setPerf_frames (s : State) (k : Nat) (x : Perf) : (s.setPerf k x).frames = s.frames := (rfl)
@[simp] theorem State.setPerf_yards (s : State) (k : Nat) (x : Perf) : (s.setPerf k x).yards = s.yards := (rfl)
@[simp] theorem State.setPerf_parts (s : State) (k : Nat) (x : Perf) : (s.setPerf k x).parts = s.parts := (rfl)
@[simp] theorem State.setPerf_objs (s : State) (k : Nat) (x : Perf) : (s.setPerf k x).objs = s.objs := (rfl)
@[simp] theorem State.setPerf_routes (s : State) (k : Nat) (x : Perf) : (s.setPerf k x).routes = s.routes := (rfl)
@[simp] theorem State.setPerf_logs (s : State) (k : Nat) (x : Perf) : (s.setPerf k x).logs = s.logs := (rfl)
@[simp] theorem State.setPerf_ports (s : State) (k : Nat) (x : Perf) : (s.setPerf k x).ports = s.ports := (rfl)
@[simp] theorem State.setPerf_fabric (s : State) (k : Nat) (x : Perf) : (s.setPerf k x).fabric = s.fabric := (rfl)
@[simp] theorem State.setPerf_host (s : State) (k : Nat) (x : Perf) : (s.setPerf k x).host = s.host := (rfl)
@[simp] theorem State.setPerf_season (s : State) (k : Nat) (x : Perf) : (s.setPerf k x).season = s.season := (rfl)
@[simp] theorem State.setPerf_power (s : State) (k : Nat) (x : Perf) : (s.setPerf k x).power = s.power := (rfl)
@[simp] theorem State.setPerf_flash (s : State) (k : Nat) (x : Perf) : (s.setPerf k x).flash = s.flash := (rfl)
@[simp] theorem State.setPerf_clock (s : State) (k : Nat) (x : Perf) : (s.setPerf k x).clock = s.clock := (rfl)
@[simp] theorem State.setPerf_time (s : State) (k : Nat) (x : Perf) : (s.setPerf k x).time = s.time := (rfl)
@[simp] theorem State.setPerf_ctr (s : State) (k : Nat) (x : Perf) : (s.setPerf k x).ctr = s.ctr := (rfl)
@[simp] theorem State.setPerf_free (s : State) (k : Nat) (x : Perf) : (s.setPerf k x).free = s.free := (rfl)
@[simp] theorem State.setPerf_out (s : State) (k : Nat) (x : Perf) : (s.setPerf k x).out = s.out := (rfl)
@[simp] theorem State.setPerf_wids (s : State) (k : Nat) (x : Perf) : (s.setPerf k x).wids = s.wids := (rfl)
@[simp] theorem State.setPerf_stall (s : State) (k : Nat) (x : Perf) (j : Nat) : (s.setPerf k x).stall j = s.stall j := (rfl)
@[simp] theorem State.setPerf_shed (s : State) (k : Nat) (x : Perf) (j : Nat) : (s.setPerf k x).shed j = s.shed j := (rfl)
@[simp] theorem State.setPerf_engine (s : State) (k : Nat) (x : Perf) (j : Nat) : (s.setPerf k x).engine j = s.engine j := (rfl)
@[simp] theorem State.setPerf_hbm (s : State) (k : Nat) (x : Perf) (j : Nat) : (s.setPerf k x).hbm j = s.hbm j := (rfl)
@[simp] theorem State.setPerf_yard (s : State) (k : Nat) (x : Perf) (j : Nat) : (s.setPerf k x).yard j = s.yard j := (rfl)
@[simp] theorem State.setPerf_part (s : State) (k : Nat) (x : Perf) (j : Nat) : (s.setPerf k x).part j = s.part j := (rfl)
@[simp] theorem State.setPerf_port (s : State) (k : Nat) (x : Perf) (j : Nat) : (s.setPerf k x).port j = s.port j := (rfl)
@[simp] theorem State.setPerf_log (s : State) (k : Nat) (x : Perf) (j : Nat) : (s.setPerf k x).log j = s.log j := (rfl)
@[simp] theorem State.setPerf_obj (s : State) (k : Nat) (x : Perf) (j : Nat) : (s.setPerf k x).obj j = s.obj j := (rfl)
@[simp] theorem State.setPerf_byte (s : State) (k : Nat) (x : Perf) (j : Nat) : (s.setPerf k x).byte j = s.byte j := (rfl)
@[simp] theorem State.setPerf_check (s : State) (k : Nat) (x : Perf) (j : Nat) : (s.setPerf k x).check j = s.check j := (rfl)
@[simp] theorem State.setPerf_fn (s : State) (k : Nat) (x : Perf) (j : Nat) : (s.setPerf k x).fn j = s.fn j := (rfl)
@[simp] theorem State.setPerf_sem (s : State) (k : Nat) (x : Perf) (j : Nat) : (s.setPerf k x).sem j = s.sem j := (rfl)
@[simp] theorem State.setPerf_frame (s : State) (k : Nat) (x : Perf) (i j : Nat) : (s.setPerf k x).frame i j = s.frame i j := (rfl)
@[simp] theorem State.setPerf_same (s : State) (k : Nat) (x : Perf) : (s.setPerf k x).perf k = x := FMap.get_set_same _ _ _ _
theorem State.setPerf_ne (s : State) (k : Nat) (x : Perf) {j : Nat} (h : j ≠ k) : (s.setPerf k x).perf j = s.perf j :=
  FMap.get_set_ne _ _ _ h
theorem State.setPerf_perf (s : State) (k : Nat) (x : Perf) (j : Nat) : (s.setPerf k x).perf j = if j = k then x else s.perf j :=
  FMap.get_set _ _ _ _ _

/-! setObj -/

@[simp] theorem State.setObj_pending (s : State) (k : Nat) (x : Nat) : (s.setObj k x).pending = s.pending := (rfl)
@[simp] theorem State.setObj_mem (s : State) (k : Nat) (x : Nat) : (s.setObj k x).mem = s.mem := (rfl)
@[simp] theorem State.setObj_ecc (s : State) (k : Nat) (x : Nat) : (s.setObj k x).ecc = s.ecc := (rfl)
@[simp] theorem State.setObj_stalls (s : State) (k : Nat) (x : Nat) : (s.setObj k x).stalls = s.stalls := (rfl)
@[simp] theorem State.setObj_sheds (s : State) (k : Nat) (x : Nat) : (s.setObj k x).sheds = s.sheds := (rfl)
@[simp] theorem State.setObj_mesh (s : State) (k : Nat) (x : Nat) : (s.setObj k x).mesh = s.mesh := (rfl)
@[simp] theorem State.setObj_penOps (s : State) (k : Nat) (x : Nat) : (s.setObj k x).penOps = s.penOps := (rfl)
@[simp] theorem State.setObj_pushes (s : State) (k : Nat) (x : Nat) : (s.setObj k x).pushes = s.pushes := (rfl)
@[simp] theorem State.setObj_engines (s : State) (k : Nat) (x : Nat) : (s.setObj k x).engines = s.engines := (rfl)
@[simp] theorem State.setObj_hints (s : State) (k : Nat) (x : Nat) : (s.setObj k x).hints = s.hints := (rfl)
@[simp] theorem State.setObj_fwd (s : State) (k : Nat) (x : Nat) : (s.setObj k x).fwd = s.fwd := (rfl)
@[simp] theorem State.setObj_hbms (s : State) (k : Nat) (x : Nat) : (s.setObj k x).hbms = s.hbms := (rfl)
@[simp] theorem State.setObj_frames (s : State) (k : Nat) (x : Nat) : (s.setObj k x).frames = s.frames := (rfl)
@[simp] theorem State.setObj_yards (s : State) (k : Nat) (x : Nat) : (s.setObj k x).yards = s.yards := (rfl)
@[simp] theorem State.setObj_parts (s : State) (k : Nat) (x : Nat) : (s.setObj k x).parts = s.parts := (rfl)
@[simp] theorem State.setObj_routes (s : State) (k : Nat) (x : Nat) : (s.setObj k x).routes = s.routes := (rfl)
@[simp] theorem State.setObj_logs (s : State) (k : Nat) (x : Nat) : (s.setObj k x).logs = s.logs := (rfl)
@[simp] theorem State.setObj_ports (s : State) (k : Nat) (x : Nat) : (s.setObj k x).ports = s.ports := (rfl)
@[simp] theorem State.setObj_fabric (s : State) (k : Nat) (x : Nat) : (s.setObj k x).fabric = s.fabric := (rfl)
@[simp] theorem State.setObj_host (s : State) (k : Nat) (x : Nat) : (s.setObj k x).host = s.host := (rfl)
@[simp] theorem State.setObj_season (s : State) (k : Nat) (x : Nat) : (s.setObj k x).season = s.season := (rfl)
@[simp] theorem State.setObj_power (s : State) (k : Nat) (x : Nat) : (s.setObj k x).power = s.power := (rfl)
@[simp] theorem State.setObj_perfs (s : State) (k : Nat) (x : Nat) : (s.setObj k x).perfs = s.perfs := (rfl)
@[simp] theorem State.setObj_flash (s : State) (k : Nat) (x : Nat) : (s.setObj k x).flash = s.flash := (rfl)
@[simp] theorem State.setObj_clock (s : State) (k : Nat) (x : Nat) : (s.setObj k x).clock = s.clock := (rfl)
@[simp] theorem State.setObj_time (s : State) (k : Nat) (x : Nat) : (s.setObj k x).time = s.time := (rfl)
@[simp] theorem State.setObj_ctr (s : State) (k : Nat) (x : Nat) : (s.setObj k x).ctr = s.ctr := (rfl)
@[simp] theorem State.setObj_free (s : State) (k : Nat) (x : Nat) : (s.setObj k x).free = s.free := (rfl)
@[simp] theorem State.setObj_out (s : State) (k : Nat) (x : Nat) : (s.setObj k x).out = s.out := (rfl)
@[simp] theorem State.setObj_wids (s : State) (k : Nat) (x : Nat) : (s.setObj k x).wids = s.wids := (rfl)
@[simp] theorem State.setObj_stall (s : State) (k : Nat) (x : Nat) (j : Nat) : (s.setObj k x).stall j = s.stall j := (rfl)
@[simp] theorem State.setObj_shed (s : State) (k : Nat) (x : Nat) (j : Nat) : (s.setObj k x).shed j = s.shed j := (rfl)
@[simp] theorem State.setObj_engine (s : State) (k : Nat) (x : Nat) (j : Nat) : (s.setObj k x).engine j = s.engine j := (rfl)
@[simp] theorem State.setObj_hbm (s : State) (k : Nat) (x : Nat) (j : Nat) : (s.setObj k x).hbm j = s.hbm j := (rfl)
@[simp] theorem State.setObj_yard (s : State) (k : Nat) (x : Nat) (j : Nat) : (s.setObj k x).yard j = s.yard j := (rfl)
@[simp] theorem State.setObj_part (s : State) (k : Nat) (x : Nat) (j : Nat) : (s.setObj k x).part j = s.part j := (rfl)
@[simp] theorem State.setObj_port (s : State) (k : Nat) (x : Nat) (j : Nat) : (s.setObj k x).port j = s.port j := (rfl)
@[simp] theorem State.setObj_log (s : State) (k : Nat) (x : Nat) (j : Nat) : (s.setObj k x).log j = s.log j := (rfl)
@[simp] theorem State.setObj_perf (s : State) (k : Nat) (x : Nat) (j : Nat) : (s.setObj k x).perf j = s.perf j := (rfl)
@[simp] theorem State.setObj_byte (s : State) (k : Nat) (x : Nat) (j : Nat) : (s.setObj k x).byte j = s.byte j := (rfl)
@[simp] theorem State.setObj_check (s : State) (k : Nat) (x : Nat) (j : Nat) : (s.setObj k x).check j = s.check j := (rfl)
@[simp] theorem State.setObj_fn (s : State) (k : Nat) (x : Nat) (j : Nat) : (s.setObj k x).fn j = s.fn j := (rfl)
@[simp] theorem State.setObj_sem (s : State) (k : Nat) (x : Nat) (j : Nat) : (s.setObj k x).sem j = s.sem j := (rfl)
@[simp] theorem State.setObj_frame (s : State) (k : Nat) (x : Nat) (i j : Nat) : (s.setObj k x).frame i j = s.frame i j := (rfl)
@[simp] theorem State.setObj_same (s : State) (k : Nat) (x : Nat) : (s.setObj k x).obj k = x := FMap.get_set_same _ _ _ _
theorem State.setObj_ne (s : State) (k : Nat) (x : Nat) {j : Nat} (h : j ≠ k) : (s.setObj k x).obj j = s.obj j :=
  FMap.get_set_ne _ _ _ h
theorem State.setObj_obj (s : State) (k : Nat) (x : Nat) (j : Nat) : (s.setObj k x).obj j = if j = k then x else s.obj j :=
  FMap.get_set _ _ _ _ _

/-! setByte -/

@[simp] theorem State.setByte_pending (s : State) (k : Nat) (x : Byte) : (s.setByte k x).pending = s.pending := (rfl)
@[simp] theorem State.setByte_ecc (s : State) (k : Nat) (x : Byte) : (s.setByte k x).ecc = s.ecc := (rfl)
@[simp] theorem State.setByte_stalls (s : State) (k : Nat) (x : Byte) : (s.setByte k x).stalls = s.stalls := (rfl)
@[simp] theorem State.setByte_sheds (s : State) (k : Nat) (x : Byte) : (s.setByte k x).sheds = s.sheds := (rfl)
@[simp] theorem State.setByte_mesh (s : State) (k : Nat) (x : Byte) : (s.setByte k x).mesh = s.mesh := (rfl)
@[simp] theorem State.setByte_penOps (s : State) (k : Nat) (x : Byte) : (s.setByte k x).penOps = s.penOps := (rfl)
@[simp] theorem State.setByte_pushes (s : State) (k : Nat) (x : Byte) : (s.setByte k x).pushes = s.pushes := (rfl)
@[simp] theorem State.setByte_engines (s : State) (k : Nat) (x : Byte) : (s.setByte k x).engines = s.engines := (rfl)
@[simp] theorem State.setByte_hints (s : State) (k : Nat) (x : Byte) : (s.setByte k x).hints = s.hints := (rfl)
@[simp] theorem State.setByte_fwd (s : State) (k : Nat) (x : Byte) : (s.setByte k x).fwd = s.fwd := (rfl)
@[simp] theorem State.setByte_hbms (s : State) (k : Nat) (x : Byte) : (s.setByte k x).hbms = s.hbms := (rfl)
@[simp] theorem State.setByte_frames (s : State) (k : Nat) (x : Byte) : (s.setByte k x).frames = s.frames := (rfl)
@[simp] theorem State.setByte_yards (s : State) (k : Nat) (x : Byte) : (s.setByte k x).yards = s.yards := (rfl)
@[simp] theorem State.setByte_parts (s : State) (k : Nat) (x : Byte) : (s.setByte k x).parts = s.parts := (rfl)
@[simp] theorem State.setByte_objs (s : State) (k : Nat) (x : Byte) : (s.setByte k x).objs = s.objs := (rfl)
@[simp] theorem State.setByte_routes (s : State) (k : Nat) (x : Byte) : (s.setByte k x).routes = s.routes := (rfl)
@[simp] theorem State.setByte_logs (s : State) (k : Nat) (x : Byte) : (s.setByte k x).logs = s.logs := (rfl)
@[simp] theorem State.setByte_ports (s : State) (k : Nat) (x : Byte) : (s.setByte k x).ports = s.ports := (rfl)
@[simp] theorem State.setByte_fabric (s : State) (k : Nat) (x : Byte) : (s.setByte k x).fabric = s.fabric := (rfl)
@[simp] theorem State.setByte_host (s : State) (k : Nat) (x : Byte) : (s.setByte k x).host = s.host := (rfl)
@[simp] theorem State.setByte_season (s : State) (k : Nat) (x : Byte) : (s.setByte k x).season = s.season := (rfl)
@[simp] theorem State.setByte_power (s : State) (k : Nat) (x : Byte) : (s.setByte k x).power = s.power := (rfl)
@[simp] theorem State.setByte_perfs (s : State) (k : Nat) (x : Byte) : (s.setByte k x).perfs = s.perfs := (rfl)
@[simp] theorem State.setByte_flash (s : State) (k : Nat) (x : Byte) : (s.setByte k x).flash = s.flash := (rfl)
@[simp] theorem State.setByte_clock (s : State) (k : Nat) (x : Byte) : (s.setByte k x).clock = s.clock := (rfl)
@[simp] theorem State.setByte_time (s : State) (k : Nat) (x : Byte) : (s.setByte k x).time = s.time := (rfl)
@[simp] theorem State.setByte_ctr (s : State) (k : Nat) (x : Byte) : (s.setByte k x).ctr = s.ctr := (rfl)
@[simp] theorem State.setByte_free (s : State) (k : Nat) (x : Byte) : (s.setByte k x).free = s.free := (rfl)
@[simp] theorem State.setByte_out (s : State) (k : Nat) (x : Byte) : (s.setByte k x).out = s.out := (rfl)
@[simp] theorem State.setByte_wids (s : State) (k : Nat) (x : Byte) : (s.setByte k x).wids = s.wids := (rfl)
@[simp] theorem State.setByte_stall (s : State) (k : Nat) (x : Byte) (j : Nat) : (s.setByte k x).stall j = s.stall j := (rfl)
@[simp] theorem State.setByte_shed (s : State) (k : Nat) (x : Byte) (j : Nat) : (s.setByte k x).shed j = s.shed j := (rfl)
@[simp] theorem State.setByte_engine (s : State) (k : Nat) (x : Byte) (j : Nat) : (s.setByte k x).engine j = s.engine j := (rfl)
@[simp] theorem State.setByte_hbm (s : State) (k : Nat) (x : Byte) (j : Nat) : (s.setByte k x).hbm j = s.hbm j := (rfl)
@[simp] theorem State.setByte_yard (s : State) (k : Nat) (x : Byte) (j : Nat) : (s.setByte k x).yard j = s.yard j := (rfl)
@[simp] theorem State.setByte_part (s : State) (k : Nat) (x : Byte) (j : Nat) : (s.setByte k x).part j = s.part j := (rfl)
@[simp] theorem State.setByte_port (s : State) (k : Nat) (x : Byte) (j : Nat) : (s.setByte k x).port j = s.port j := (rfl)
@[simp] theorem State.setByte_log (s : State) (k : Nat) (x : Byte) (j : Nat) : (s.setByte k x).log j = s.log j := (rfl)
@[simp] theorem State.setByte_perf (s : State) (k : Nat) (x : Byte) (j : Nat) : (s.setByte k x).perf j = s.perf j := (rfl)
@[simp] theorem State.setByte_obj (s : State) (k : Nat) (x : Byte) (j : Nat) : (s.setByte k x).obj j = s.obj j := (rfl)
@[simp] theorem State.setByte_check (s : State) (k : Nat) (x : Byte) (j : Nat) : (s.setByte k x).check j = s.check j := (rfl)
@[simp] theorem State.setByte_fn (s : State) (k : Nat) (x : Byte) (j : Nat) : (s.setByte k x).fn j = s.fn j := (rfl)
@[simp] theorem State.setByte_sem (s : State) (k : Nat) (x : Byte) (j : Nat) : (s.setByte k x).sem j = s.sem j := (rfl)
@[simp] theorem State.setByte_frame (s : State) (k : Nat) (x : Byte) (i j : Nat) : (s.setByte k x).frame i j = s.frame i j := (rfl)
@[simp] theorem State.setByte_same (s : State) (k : Nat) (x : Byte) : (s.setByte k x).byte k = x := FMap.get_set_same _ _ _ _
theorem State.setByte_ne (s : State) (k : Nat) (x : Byte) {j : Nat} (h : j ≠ k) : (s.setByte k x).byte j = s.byte j :=
  FMap.get_set_ne _ _ _ h
theorem State.setByte_byte (s : State) (k : Nat) (x : Byte) (j : Nat) : (s.setByte k x).byte j = if j = k then x else s.byte j :=
  FMap.get_set _ _ _ _ _

/-! setCheck -/

@[simp] theorem State.setCheck_pending (s : State) (k : Nat) (x : BitVec 288) : (s.setCheck k x).pending = s.pending := (rfl)
@[simp] theorem State.setCheck_mem (s : State) (k : Nat) (x : BitVec 288) : (s.setCheck k x).mem = s.mem := (rfl)
@[simp] theorem State.setCheck_stalls (s : State) (k : Nat) (x : BitVec 288) : (s.setCheck k x).stalls = s.stalls := (rfl)
@[simp] theorem State.setCheck_sheds (s : State) (k : Nat) (x : BitVec 288) : (s.setCheck k x).sheds = s.sheds := (rfl)
@[simp] theorem State.setCheck_mesh (s : State) (k : Nat) (x : BitVec 288) : (s.setCheck k x).mesh = s.mesh := (rfl)
@[simp] theorem State.setCheck_penOps (s : State) (k : Nat) (x : BitVec 288) : (s.setCheck k x).penOps = s.penOps := (rfl)
@[simp] theorem State.setCheck_pushes (s : State) (k : Nat) (x : BitVec 288) : (s.setCheck k x).pushes = s.pushes := (rfl)
@[simp] theorem State.setCheck_engines (s : State) (k : Nat) (x : BitVec 288) : (s.setCheck k x).engines = s.engines := (rfl)
@[simp] theorem State.setCheck_hints (s : State) (k : Nat) (x : BitVec 288) : (s.setCheck k x).hints = s.hints := (rfl)
@[simp] theorem State.setCheck_fwd (s : State) (k : Nat) (x : BitVec 288) : (s.setCheck k x).fwd = s.fwd := (rfl)
@[simp] theorem State.setCheck_hbms (s : State) (k : Nat) (x : BitVec 288) : (s.setCheck k x).hbms = s.hbms := (rfl)
@[simp] theorem State.setCheck_frames (s : State) (k : Nat) (x : BitVec 288) : (s.setCheck k x).frames = s.frames := (rfl)
@[simp] theorem State.setCheck_yards (s : State) (k : Nat) (x : BitVec 288) : (s.setCheck k x).yards = s.yards := (rfl)
@[simp] theorem State.setCheck_parts (s : State) (k : Nat) (x : BitVec 288) : (s.setCheck k x).parts = s.parts := (rfl)
@[simp] theorem State.setCheck_objs (s : State) (k : Nat) (x : BitVec 288) : (s.setCheck k x).objs = s.objs := (rfl)
@[simp] theorem State.setCheck_routes (s : State) (k : Nat) (x : BitVec 288) : (s.setCheck k x).routes = s.routes := (rfl)
@[simp] theorem State.setCheck_logs (s : State) (k : Nat) (x : BitVec 288) : (s.setCheck k x).logs = s.logs := (rfl)
@[simp] theorem State.setCheck_ports (s : State) (k : Nat) (x : BitVec 288) : (s.setCheck k x).ports = s.ports := (rfl)
@[simp] theorem State.setCheck_fabric (s : State) (k : Nat) (x : BitVec 288) : (s.setCheck k x).fabric = s.fabric := (rfl)
@[simp] theorem State.setCheck_host (s : State) (k : Nat) (x : BitVec 288) : (s.setCheck k x).host = s.host := (rfl)
@[simp] theorem State.setCheck_season (s : State) (k : Nat) (x : BitVec 288) : (s.setCheck k x).season = s.season := (rfl)
@[simp] theorem State.setCheck_power (s : State) (k : Nat) (x : BitVec 288) : (s.setCheck k x).power = s.power := (rfl)
@[simp] theorem State.setCheck_perfs (s : State) (k : Nat) (x : BitVec 288) : (s.setCheck k x).perfs = s.perfs := (rfl)
@[simp] theorem State.setCheck_flash (s : State) (k : Nat) (x : BitVec 288) : (s.setCheck k x).flash = s.flash := (rfl)
@[simp] theorem State.setCheck_clock (s : State) (k : Nat) (x : BitVec 288) : (s.setCheck k x).clock = s.clock := (rfl)
@[simp] theorem State.setCheck_time (s : State) (k : Nat) (x : BitVec 288) : (s.setCheck k x).time = s.time := (rfl)
@[simp] theorem State.setCheck_ctr (s : State) (k : Nat) (x : BitVec 288) : (s.setCheck k x).ctr = s.ctr := (rfl)
@[simp] theorem State.setCheck_free (s : State) (k : Nat) (x : BitVec 288) : (s.setCheck k x).free = s.free := (rfl)
@[simp] theorem State.setCheck_out (s : State) (k : Nat) (x : BitVec 288) : (s.setCheck k x).out = s.out := (rfl)
@[simp] theorem State.setCheck_wids (s : State) (k : Nat) (x : BitVec 288) : (s.setCheck k x).wids = s.wids := (rfl)
@[simp] theorem State.setCheck_stall (s : State) (k : Nat) (x : BitVec 288) (j : Nat) : (s.setCheck k x).stall j = s.stall j := (rfl)
@[simp] theorem State.setCheck_shed (s : State) (k : Nat) (x : BitVec 288) (j : Nat) : (s.setCheck k x).shed j = s.shed j := (rfl)
@[simp] theorem State.setCheck_engine (s : State) (k : Nat) (x : BitVec 288) (j : Nat) : (s.setCheck k x).engine j = s.engine j := (rfl)
@[simp] theorem State.setCheck_hbm (s : State) (k : Nat) (x : BitVec 288) (j : Nat) : (s.setCheck k x).hbm j = s.hbm j := (rfl)
@[simp] theorem State.setCheck_yard (s : State) (k : Nat) (x : BitVec 288) (j : Nat) : (s.setCheck k x).yard j = s.yard j := (rfl)
@[simp] theorem State.setCheck_part (s : State) (k : Nat) (x : BitVec 288) (j : Nat) : (s.setCheck k x).part j = s.part j := (rfl)
@[simp] theorem State.setCheck_port (s : State) (k : Nat) (x : BitVec 288) (j : Nat) : (s.setCheck k x).port j = s.port j := (rfl)
@[simp] theorem State.setCheck_log (s : State) (k : Nat) (x : BitVec 288) (j : Nat) : (s.setCheck k x).log j = s.log j := (rfl)
@[simp] theorem State.setCheck_perf (s : State) (k : Nat) (x : BitVec 288) (j : Nat) : (s.setCheck k x).perf j = s.perf j := (rfl)
@[simp] theorem State.setCheck_obj (s : State) (k : Nat) (x : BitVec 288) (j : Nat) : (s.setCheck k x).obj j = s.obj j := (rfl)
@[simp] theorem State.setCheck_byte (s : State) (k : Nat) (x : BitVec 288) (j : Nat) : (s.setCheck k x).byte j = s.byte j := (rfl)
@[simp] theorem State.setCheck_fn (s : State) (k : Nat) (x : BitVec 288) (j : Nat) : (s.setCheck k x).fn j = s.fn j := (rfl)
@[simp] theorem State.setCheck_sem (s : State) (k : Nat) (x : BitVec 288) (j : Nat) : (s.setCheck k x).sem j = s.sem j := (rfl)
@[simp] theorem State.setCheck_frame (s : State) (k : Nat) (x : BitVec 288) (i j : Nat) : (s.setCheck k x).frame i j = s.frame i j := (rfl)
@[simp] theorem State.setCheck_same (s : State) (k : Nat) (x : BitVec 288) : (s.setCheck k x).check k = x := FMap.get_set_same _ _ _ _
theorem State.setCheck_ne (s : State) (k : Nat) (x : BitVec 288) {j : Nat} (h : j ≠ k) : (s.setCheck k x).check j = s.check j :=
  FMap.get_set_ne _ _ _ h
theorem State.setCheck_check (s : State) (k : Nat) (x : BitVec 288) (j : Nat) : (s.setCheck k x).check j = if j = k then x else s.check j :=
  FMap.get_set _ _ _ _ _

/-! setFn -/

@[simp] theorem State.setFn_pending (s : State) (k : Nat) (x : HostFn) : (s.setFn k x).pending = s.pending := (rfl)
@[simp] theorem State.setFn_mem (s : State) (k : Nat) (x : HostFn) : (s.setFn k x).mem = s.mem := (rfl)
@[simp] theorem State.setFn_ecc (s : State) (k : Nat) (x : HostFn) : (s.setFn k x).ecc = s.ecc := (rfl)
@[simp] theorem State.setFn_stalls (s : State) (k : Nat) (x : HostFn) : (s.setFn k x).stalls = s.stalls := (rfl)
@[simp] theorem State.setFn_sheds (s : State) (k : Nat) (x : HostFn) : (s.setFn k x).sheds = s.sheds := (rfl)
@[simp] theorem State.setFn_mesh (s : State) (k : Nat) (x : HostFn) : (s.setFn k x).mesh = s.mesh := (rfl)
@[simp] theorem State.setFn_penOps (s : State) (k : Nat) (x : HostFn) : (s.setFn k x).penOps = s.penOps := (rfl)
@[simp] theorem State.setFn_pushes (s : State) (k : Nat) (x : HostFn) : (s.setFn k x).pushes = s.pushes := (rfl)
@[simp] theorem State.setFn_engines (s : State) (k : Nat) (x : HostFn) : (s.setFn k x).engines = s.engines := (rfl)
@[simp] theorem State.setFn_hints (s : State) (k : Nat) (x : HostFn) : (s.setFn k x).hints = s.hints := (rfl)
@[simp] theorem State.setFn_fwd (s : State) (k : Nat) (x : HostFn) : (s.setFn k x).fwd = s.fwd := (rfl)
@[simp] theorem State.setFn_hbms (s : State) (k : Nat) (x : HostFn) : (s.setFn k x).hbms = s.hbms := (rfl)
@[simp] theorem State.setFn_frames (s : State) (k : Nat) (x : HostFn) : (s.setFn k x).frames = s.frames := (rfl)
@[simp] theorem State.setFn_yards (s : State) (k : Nat) (x : HostFn) : (s.setFn k x).yards = s.yards := (rfl)
@[simp] theorem State.setFn_parts (s : State) (k : Nat) (x : HostFn) : (s.setFn k x).parts = s.parts := (rfl)
@[simp] theorem State.setFn_objs (s : State) (k : Nat) (x : HostFn) : (s.setFn k x).objs = s.objs := (rfl)
@[simp] theorem State.setFn_routes (s : State) (k : Nat) (x : HostFn) : (s.setFn k x).routes = s.routes := (rfl)
@[simp] theorem State.setFn_logs (s : State) (k : Nat) (x : HostFn) : (s.setFn k x).logs = s.logs := (rfl)
@[simp] theorem State.setFn_ports (s : State) (k : Nat) (x : HostFn) : (s.setFn k x).ports = s.ports := (rfl)
@[simp] theorem State.setFn_fabric (s : State) (k : Nat) (x : HostFn) : (s.setFn k x).fabric = s.fabric := (rfl)
@[simp] theorem State.setFn_season (s : State) (k : Nat) (x : HostFn) : (s.setFn k x).season = s.season := (rfl)
@[simp] theorem State.setFn_power (s : State) (k : Nat) (x : HostFn) : (s.setFn k x).power = s.power := (rfl)
@[simp] theorem State.setFn_perfs (s : State) (k : Nat) (x : HostFn) : (s.setFn k x).perfs = s.perfs := (rfl)
@[simp] theorem State.setFn_flash (s : State) (k : Nat) (x : HostFn) : (s.setFn k x).flash = s.flash := (rfl)
@[simp] theorem State.setFn_clock (s : State) (k : Nat) (x : HostFn) : (s.setFn k x).clock = s.clock := (rfl)
@[simp] theorem State.setFn_time (s : State) (k : Nat) (x : HostFn) : (s.setFn k x).time = s.time := (rfl)
@[simp] theorem State.setFn_ctr (s : State) (k : Nat) (x : HostFn) : (s.setFn k x).ctr = s.ctr := (rfl)
@[simp] theorem State.setFn_free (s : State) (k : Nat) (x : HostFn) : (s.setFn k x).free = s.free := (rfl)
@[simp] theorem State.setFn_out (s : State) (k : Nat) (x : HostFn) : (s.setFn k x).out = s.out := (rfl)
@[simp] theorem State.setFn_wids (s : State) (k : Nat) (x : HostFn) : (s.setFn k x).wids = s.wids := (rfl)
@[simp] theorem State.setFn_stall (s : State) (k : Nat) (x : HostFn) (j : Nat) : (s.setFn k x).stall j = s.stall j := (rfl)
@[simp] theorem State.setFn_shed (s : State) (k : Nat) (x : HostFn) (j : Nat) : (s.setFn k x).shed j = s.shed j := (rfl)
@[simp] theorem State.setFn_engine (s : State) (k : Nat) (x : HostFn) (j : Nat) : (s.setFn k x).engine j = s.engine j := (rfl)
@[simp] theorem State.setFn_hbm (s : State) (k : Nat) (x : HostFn) (j : Nat) : (s.setFn k x).hbm j = s.hbm j := (rfl)
@[simp] theorem State.setFn_yard (s : State) (k : Nat) (x : HostFn) (j : Nat) : (s.setFn k x).yard j = s.yard j := (rfl)
@[simp] theorem State.setFn_part (s : State) (k : Nat) (x : HostFn) (j : Nat) : (s.setFn k x).part j = s.part j := (rfl)
@[simp] theorem State.setFn_port (s : State) (k : Nat) (x : HostFn) (j : Nat) : (s.setFn k x).port j = s.port j := (rfl)
@[simp] theorem State.setFn_log (s : State) (k : Nat) (x : HostFn) (j : Nat) : (s.setFn k x).log j = s.log j := (rfl)
@[simp] theorem State.setFn_perf (s : State) (k : Nat) (x : HostFn) (j : Nat) : (s.setFn k x).perf j = s.perf j := (rfl)
@[simp] theorem State.setFn_obj (s : State) (k : Nat) (x : HostFn) (j : Nat) : (s.setFn k x).obj j = s.obj j := (rfl)
@[simp] theorem State.setFn_byte (s : State) (k : Nat) (x : HostFn) (j : Nat) : (s.setFn k x).byte j = s.byte j := (rfl)
@[simp] theorem State.setFn_check (s : State) (k : Nat) (x : HostFn) (j : Nat) : (s.setFn k x).check j = s.check j := (rfl)
@[simp] theorem State.setFn_sem (s : State) (k : Nat) (x : HostFn) (j : Nat) : (s.setFn k x).sem j = s.sem j := (rfl)
@[simp] theorem State.setFn_frame (s : State) (k : Nat) (x : HostFn) (i j : Nat) : (s.setFn k x).frame i j = s.frame i j := (rfl)
@[simp] theorem State.setFn_same (s : State) (k : Nat) (x : HostFn) : (s.setFn k x).fn k = x := FMap.get_set_same _ _ _ _
theorem State.setFn_ne (s : State) (k : Nat) (x : HostFn) {j : Nat} (h : j ≠ k) : (s.setFn k x).fn j = s.fn j :=
  FMap.get_set_ne _ _ _ h
theorem State.setFn_fn (s : State) (k : Nat) (x : HostFn) (j : Nat) : (s.setFn k x).fn j = if j = k then x else s.fn j :=
  FMap.get_set _ _ _ _ _

/-! setSem -/

@[simp] theorem State.setSem_pending (s : State) (k : Nat) (x : Sem) : (s.setSem k x).pending = s.pending := (rfl)
@[simp] theorem State.setSem_mem (s : State) (k : Nat) (x : Sem) : (s.setSem k x).mem = s.mem := (rfl)
@[simp] theorem State.setSem_ecc (s : State) (k : Nat) (x : Sem) : (s.setSem k x).ecc = s.ecc := (rfl)
@[simp] theorem State.setSem_stalls (s : State) (k : Nat) (x : Sem) : (s.setSem k x).stalls = s.stalls := (rfl)
@[simp] theorem State.setSem_sheds (s : State) (k : Nat) (x : Sem) : (s.setSem k x).sheds = s.sheds := (rfl)
@[simp] theorem State.setSem_mesh (s : State) (k : Nat) (x : Sem) : (s.setSem k x).mesh = s.mesh := (rfl)
@[simp] theorem State.setSem_penOps (s : State) (k : Nat) (x : Sem) : (s.setSem k x).penOps = s.penOps := (rfl)
@[simp] theorem State.setSem_pushes (s : State) (k : Nat) (x : Sem) : (s.setSem k x).pushes = s.pushes := (rfl)
@[simp] theorem State.setSem_engines (s : State) (k : Nat) (x : Sem) : (s.setSem k x).engines = s.engines := (rfl)
@[simp] theorem State.setSem_hints (s : State) (k : Nat) (x : Sem) : (s.setSem k x).hints = s.hints := (rfl)
@[simp] theorem State.setSem_fwd (s : State) (k : Nat) (x : Sem) : (s.setSem k x).fwd = s.fwd := (rfl)
@[simp] theorem State.setSem_hbms (s : State) (k : Nat) (x : Sem) : (s.setSem k x).hbms = s.hbms := (rfl)
@[simp] theorem State.setSem_frames (s : State) (k : Nat) (x : Sem) : (s.setSem k x).frames = s.frames := (rfl)
@[simp] theorem State.setSem_yards (s : State) (k : Nat) (x : Sem) : (s.setSem k x).yards = s.yards := (rfl)
@[simp] theorem State.setSem_parts (s : State) (k : Nat) (x : Sem) : (s.setSem k x).parts = s.parts := (rfl)
@[simp] theorem State.setSem_objs (s : State) (k : Nat) (x : Sem) : (s.setSem k x).objs = s.objs := (rfl)
@[simp] theorem State.setSem_routes (s : State) (k : Nat) (x : Sem) : (s.setSem k x).routes = s.routes := (rfl)
@[simp] theorem State.setSem_logs (s : State) (k : Nat) (x : Sem) : (s.setSem k x).logs = s.logs := (rfl)
@[simp] theorem State.setSem_ports (s : State) (k : Nat) (x : Sem) : (s.setSem k x).ports = s.ports := (rfl)
@[simp] theorem State.setSem_fabric (s : State) (k : Nat) (x : Sem) : (s.setSem k x).fabric = s.fabric := (rfl)
@[simp] theorem State.setSem_season (s : State) (k : Nat) (x : Sem) : (s.setSem k x).season = s.season := (rfl)
@[simp] theorem State.setSem_power (s : State) (k : Nat) (x : Sem) : (s.setSem k x).power = s.power := (rfl)
@[simp] theorem State.setSem_perfs (s : State) (k : Nat) (x : Sem) : (s.setSem k x).perfs = s.perfs := (rfl)
@[simp] theorem State.setSem_flash (s : State) (k : Nat) (x : Sem) : (s.setSem k x).flash = s.flash := (rfl)
@[simp] theorem State.setSem_clock (s : State) (k : Nat) (x : Sem) : (s.setSem k x).clock = s.clock := (rfl)
@[simp] theorem State.setSem_time (s : State) (k : Nat) (x : Sem) : (s.setSem k x).time = s.time := (rfl)
@[simp] theorem State.setSem_ctr (s : State) (k : Nat) (x : Sem) : (s.setSem k x).ctr = s.ctr := (rfl)
@[simp] theorem State.setSem_free (s : State) (k : Nat) (x : Sem) : (s.setSem k x).free = s.free := (rfl)
@[simp] theorem State.setSem_out (s : State) (k : Nat) (x : Sem) : (s.setSem k x).out = s.out := (rfl)
@[simp] theorem State.setSem_wids (s : State) (k : Nat) (x : Sem) : (s.setSem k x).wids = s.wids := (rfl)
@[simp] theorem State.setSem_stall (s : State) (k : Nat) (x : Sem) (j : Nat) : (s.setSem k x).stall j = s.stall j := (rfl)
@[simp] theorem State.setSem_shed (s : State) (k : Nat) (x : Sem) (j : Nat) : (s.setSem k x).shed j = s.shed j := (rfl)
@[simp] theorem State.setSem_engine (s : State) (k : Nat) (x : Sem) (j : Nat) : (s.setSem k x).engine j = s.engine j := (rfl)
@[simp] theorem State.setSem_hbm (s : State) (k : Nat) (x : Sem) (j : Nat) : (s.setSem k x).hbm j = s.hbm j := (rfl)
@[simp] theorem State.setSem_yard (s : State) (k : Nat) (x : Sem) (j : Nat) : (s.setSem k x).yard j = s.yard j := (rfl)
@[simp] theorem State.setSem_part (s : State) (k : Nat) (x : Sem) (j : Nat) : (s.setSem k x).part j = s.part j := (rfl)
@[simp] theorem State.setSem_port (s : State) (k : Nat) (x : Sem) (j : Nat) : (s.setSem k x).port j = s.port j := (rfl)
@[simp] theorem State.setSem_log (s : State) (k : Nat) (x : Sem) (j : Nat) : (s.setSem k x).log j = s.log j := (rfl)
@[simp] theorem State.setSem_perf (s : State) (k : Nat) (x : Sem) (j : Nat) : (s.setSem k x).perf j = s.perf j := (rfl)
@[simp] theorem State.setSem_obj (s : State) (k : Nat) (x : Sem) (j : Nat) : (s.setSem k x).obj j = s.obj j := (rfl)
@[simp] theorem State.setSem_byte (s : State) (k : Nat) (x : Sem) (j : Nat) : (s.setSem k x).byte j = s.byte j := (rfl)
@[simp] theorem State.setSem_check (s : State) (k : Nat) (x : Sem) (j : Nat) : (s.setSem k x).check j = s.check j := (rfl)
@[simp] theorem State.setSem_fn (s : State) (k : Nat) (x : Sem) (j : Nat) : (s.setSem k x).fn j = s.fn j := (rfl)
@[simp] theorem State.setSem_frame (s : State) (k : Nat) (x : Sem) (i j : Nat) : (s.setSem k x).frame i j = s.frame i j := (rfl)
@[simp] theorem State.setSem_same (s : State) (k : Nat) (x : Sem) : (s.setSem k x).sem k = x := FMap.get_set_same _ _ _ _
theorem State.setSem_ne (s : State) (k : Nat) (x : Sem) {j : Nat} (h : j ≠ k) : (s.setSem k x).sem j = s.sem j :=
  FMap.get_set_ne _ _ _ h
theorem State.setSem_sem (s : State) (k : Nat) (x : Sem) (j : Nat) : (s.setSem k x).sem j = if j = k then x else s.sem j :=
  FMap.get_set _ _ _ _ _

/-! setFrame -/

@[simp] theorem State.setFrame_pending (s : State) (y f : Nat) (x : Frame) : (s.setFrame y f x).pending = s.pending := (rfl)
@[simp] theorem State.setFrame_mem (s : State) (y f : Nat) (x : Frame) : (s.setFrame y f x).mem = s.mem := (rfl)
@[simp] theorem State.setFrame_ecc (s : State) (y f : Nat) (x : Frame) : (s.setFrame y f x).ecc = s.ecc := (rfl)
@[simp] theorem State.setFrame_stalls (s : State) (y f : Nat) (x : Frame) : (s.setFrame y f x).stalls = s.stalls := (rfl)
@[simp] theorem State.setFrame_sheds (s : State) (y f : Nat) (x : Frame) : (s.setFrame y f x).sheds = s.sheds := (rfl)
@[simp] theorem State.setFrame_mesh (s : State) (y f : Nat) (x : Frame) : (s.setFrame y f x).mesh = s.mesh := (rfl)
@[simp] theorem State.setFrame_penOps (s : State) (y f : Nat) (x : Frame) : (s.setFrame y f x).penOps = s.penOps := (rfl)
@[simp] theorem State.setFrame_pushes (s : State) (y f : Nat) (x : Frame) : (s.setFrame y f x).pushes = s.pushes := (rfl)
@[simp] theorem State.setFrame_engines (s : State) (y f : Nat) (x : Frame) : (s.setFrame y f x).engines = s.engines := (rfl)
@[simp] theorem State.setFrame_hints (s : State) (y f : Nat) (x : Frame) : (s.setFrame y f x).hints = s.hints := (rfl)
@[simp] theorem State.setFrame_fwd (s : State) (y f : Nat) (x : Frame) : (s.setFrame y f x).fwd = s.fwd := (rfl)
@[simp] theorem State.setFrame_hbms (s : State) (y f : Nat) (x : Frame) : (s.setFrame y f x).hbms = s.hbms := (rfl)
@[simp] theorem State.setFrame_yards (s : State) (y f : Nat) (x : Frame) : (s.setFrame y f x).yards = s.yards := (rfl)
@[simp] theorem State.setFrame_parts (s : State) (y f : Nat) (x : Frame) : (s.setFrame y f x).parts = s.parts := (rfl)
@[simp] theorem State.setFrame_objs (s : State) (y f : Nat) (x : Frame) : (s.setFrame y f x).objs = s.objs := (rfl)
@[simp] theorem State.setFrame_routes (s : State) (y f : Nat) (x : Frame) : (s.setFrame y f x).routes = s.routes := (rfl)
@[simp] theorem State.setFrame_logs (s : State) (y f : Nat) (x : Frame) : (s.setFrame y f x).logs = s.logs := (rfl)
@[simp] theorem State.setFrame_ports (s : State) (y f : Nat) (x : Frame) : (s.setFrame y f x).ports = s.ports := (rfl)
@[simp] theorem State.setFrame_fabric (s : State) (y f : Nat) (x : Frame) : (s.setFrame y f x).fabric = s.fabric := (rfl)
@[simp] theorem State.setFrame_host (s : State) (y f : Nat) (x : Frame) : (s.setFrame y f x).host = s.host := (rfl)
@[simp] theorem State.setFrame_season (s : State) (y f : Nat) (x : Frame) : (s.setFrame y f x).season = s.season := (rfl)
@[simp] theorem State.setFrame_power (s : State) (y f : Nat) (x : Frame) : (s.setFrame y f x).power = s.power := (rfl)
@[simp] theorem State.setFrame_perfs (s : State) (y f : Nat) (x : Frame) : (s.setFrame y f x).perfs = s.perfs := (rfl)
@[simp] theorem State.setFrame_flash (s : State) (y f : Nat) (x : Frame) : (s.setFrame y f x).flash = s.flash := (rfl)
@[simp] theorem State.setFrame_clock (s : State) (y f : Nat) (x : Frame) : (s.setFrame y f x).clock = s.clock := (rfl)
@[simp] theorem State.setFrame_time (s : State) (y f : Nat) (x : Frame) : (s.setFrame y f x).time = s.time := (rfl)
@[simp] theorem State.setFrame_ctr (s : State) (y f : Nat) (x : Frame) : (s.setFrame y f x).ctr = s.ctr := (rfl)
@[simp] theorem State.setFrame_free (s : State) (y f : Nat) (x : Frame) : (s.setFrame y f x).free = s.free := (rfl)
@[simp] theorem State.setFrame_out (s : State) (y f : Nat) (x : Frame) : (s.setFrame y f x).out = s.out := (rfl)
@[simp] theorem State.setFrame_wids (s : State) (y f : Nat) (x : Frame) : (s.setFrame y f x).wids = s.wids := (rfl)
@[simp] theorem State.setFrame_stall (s : State) (y f : Nat) (x : Frame) (j : Nat) : (s.setFrame y f x).stall j = s.stall j := (rfl)
@[simp] theorem State.setFrame_shed (s : State) (y f : Nat) (x : Frame) (j : Nat) : (s.setFrame y f x).shed j = s.shed j := (rfl)
@[simp] theorem State.setFrame_engine (s : State) (y f : Nat) (x : Frame) (j : Nat) : (s.setFrame y f x).engine j = s.engine j := (rfl)
@[simp] theorem State.setFrame_hbm (s : State) (y f : Nat) (x : Frame) (j : Nat) : (s.setFrame y f x).hbm j = s.hbm j := (rfl)
@[simp] theorem State.setFrame_yard (s : State) (y f : Nat) (x : Frame) (j : Nat) : (s.setFrame y f x).yard j = s.yard j := (rfl)
@[simp] theorem State.setFrame_part (s : State) (y f : Nat) (x : Frame) (j : Nat) : (s.setFrame y f x).part j = s.part j := (rfl)
@[simp] theorem State.setFrame_port (s : State) (y f : Nat) (x : Frame) (j : Nat) : (s.setFrame y f x).port j = s.port j := (rfl)
@[simp] theorem State.setFrame_log (s : State) (y f : Nat) (x : Frame) (j : Nat) : (s.setFrame y f x).log j = s.log j := (rfl)
@[simp] theorem State.setFrame_perf (s : State) (y f : Nat) (x : Frame) (j : Nat) : (s.setFrame y f x).perf j = s.perf j := (rfl)
@[simp] theorem State.setFrame_obj (s : State) (y f : Nat) (x : Frame) (j : Nat) : (s.setFrame y f x).obj j = s.obj j := (rfl)
@[simp] theorem State.setFrame_byte (s : State) (y f : Nat) (x : Frame) (j : Nat) : (s.setFrame y f x).byte j = s.byte j := (rfl)
@[simp] theorem State.setFrame_check (s : State) (y f : Nat) (x : Frame) (j : Nat) : (s.setFrame y f x).check j = s.check j := (rfl)
@[simp] theorem State.setFrame_fn (s : State) (y f : Nat) (x : Frame) (j : Nat) : (s.setFrame y f x).fn j = s.fn j := (rfl)
@[simp] theorem State.setFrame_sem (s : State) (y f : Nat) (x : Frame) (j : Nat) : (s.setFrame y f x).sem j = s.sem j := (rfl)
@[simp] theorem State.setFrame_same (s : State) (y f : Nat) (x : Frame) : (s.setFrame y f x).frame y f = x := FMap.get_set_same _ _ _ _
theorem State.setFrame_ne (s : State) (y f : Nat) (x : Frame) {i j : Nat} (h : 1024 * i + j ≠ 1024 * y + f) : (s.setFrame y f x).frame i j = s.frame i j :=
  FMap.get_set_ne _ _ _ h

/-! Counters -/

@[simp] theorem State.tick1_pending (s : State) : s.tick1.pending = s.pending := (rfl)
@[simp] theorem State.tick1_mem (s : State) : s.tick1.mem = s.mem := (rfl)
@[simp] theorem State.tick1_ecc (s : State) : s.tick1.ecc = s.ecc := (rfl)
@[simp] theorem State.tick1_stalls (s : State) : s.tick1.stalls = s.stalls := (rfl)
@[simp] theorem State.tick1_sheds (s : State) : s.tick1.sheds = s.sheds := (rfl)
@[simp] theorem State.tick1_mesh (s : State) : s.tick1.mesh = s.mesh := (rfl)
@[simp] theorem State.tick1_penOps (s : State) : s.tick1.penOps = s.penOps := (rfl)
@[simp] theorem State.tick1_pushes (s : State) : s.tick1.pushes = s.pushes := (rfl)
@[simp] theorem State.tick1_engines (s : State) : s.tick1.engines = s.engines := (rfl)
@[simp] theorem State.tick1_hints (s : State) : s.tick1.hints = s.hints := (rfl)
@[simp] theorem State.tick1_fwd (s : State) : s.tick1.fwd = s.fwd := (rfl)
@[simp] theorem State.tick1_hbms (s : State) : s.tick1.hbms = s.hbms := (rfl)
@[simp] theorem State.tick1_frames (s : State) : s.tick1.frames = s.frames := (rfl)
@[simp] theorem State.tick1_yards (s : State) : s.tick1.yards = s.yards := (rfl)
@[simp] theorem State.tick1_parts (s : State) : s.tick1.parts = s.parts := (rfl)
@[simp] theorem State.tick1_objs (s : State) : s.tick1.objs = s.objs := (rfl)
@[simp] theorem State.tick1_routes (s : State) : s.tick1.routes = s.routes := (rfl)
@[simp] theorem State.tick1_logs (s : State) : s.tick1.logs = s.logs := (rfl)
@[simp] theorem State.tick1_ports (s : State) : s.tick1.ports = s.ports := (rfl)
@[simp] theorem State.tick1_fabric (s : State) : s.tick1.fabric = s.fabric := (rfl)
@[simp] theorem State.tick1_host (s : State) : s.tick1.host = s.host := (rfl)
@[simp] theorem State.tick1_season (s : State) : s.tick1.season = s.season := (rfl)
@[simp] theorem State.tick1_power (s : State) : s.tick1.power = s.power := (rfl)
@[simp] theorem State.tick1_perfs (s : State) : s.tick1.perfs = s.perfs := (rfl)
@[simp] theorem State.tick1_flash (s : State) : s.tick1.flash = s.flash := (rfl)
@[simp] theorem State.tick1_clock (s : State) : s.tick1.clock = s.clock := (rfl)
@[simp] theorem State.tick1_time (s : State) : s.tick1.time = s.time := (rfl)
@[simp] theorem State.tick1_free (s : State) : s.tick1.free = s.free := (rfl)
@[simp] theorem State.tick1_out (s : State) : s.tick1.out = s.out := (rfl)
@[simp] theorem State.tick1_wids (s : State) : s.tick1.wids = s.wids := (rfl)
@[simp] theorem State.tick1_stall (s : State) (j : Nat) : s.tick1.stall j = s.stall j := (rfl)
@[simp] theorem State.tick1_shed (s : State) (j : Nat) : s.tick1.shed j = s.shed j := (rfl)
@[simp] theorem State.tick1_engine (s : State) (j : Nat) : s.tick1.engine j = s.engine j := (rfl)
@[simp] theorem State.tick1_hbm (s : State) (j : Nat) : s.tick1.hbm j = s.hbm j := (rfl)
@[simp] theorem State.tick1_yard (s : State) (j : Nat) : s.tick1.yard j = s.yard j := (rfl)
@[simp] theorem State.tick1_part (s : State) (j : Nat) : s.tick1.part j = s.part j := (rfl)
@[simp] theorem State.tick1_port (s : State) (j : Nat) : s.tick1.port j = s.port j := (rfl)
@[simp] theorem State.tick1_log (s : State) (j : Nat) : s.tick1.log j = s.log j := (rfl)
@[simp] theorem State.tick1_perf (s : State) (j : Nat) : s.tick1.perf j = s.perf j := (rfl)
@[simp] theorem State.tick1_obj (s : State) (j : Nat) : s.tick1.obj j = s.obj j := (rfl)
@[simp] theorem State.tick1_byte (s : State) (j : Nat) : s.tick1.byte j = s.byte j := (rfl)
@[simp] theorem State.tick1_check (s : State) (j : Nat) : s.tick1.check j = s.check j := (rfl)
@[simp] theorem State.tick1_fn (s : State) (j : Nat) : s.tick1.fn j = s.fn j := (rfl)
@[simp] theorem State.tick1_sem (s : State) (j : Nat) : s.tick1.sem j = s.sem j := (rfl)
@[simp] theorem State.tick1_frame (s : State) (i j : Nat) : s.tick1.frame i j = s.frame i j := (rfl)

@[simp] theorem State.draw_pending (s : State) : s.draw.pending = s.pending := (rfl)
@[simp] theorem State.draw_mem (s : State) : s.draw.mem = s.mem := (rfl)
@[simp] theorem State.draw_ecc (s : State) : s.draw.ecc = s.ecc := (rfl)
@[simp] theorem State.draw_stalls (s : State) : s.draw.stalls = s.stalls := (rfl)
@[simp] theorem State.draw_sheds (s : State) : s.draw.sheds = s.sheds := (rfl)
@[simp] theorem State.draw_mesh (s : State) : s.draw.mesh = s.mesh := (rfl)
@[simp] theorem State.draw_penOps (s : State) : s.draw.penOps = s.penOps := (rfl)
@[simp] theorem State.draw_pushes (s : State) : s.draw.pushes = s.pushes := (rfl)
@[simp] theorem State.draw_engines (s : State) : s.draw.engines = s.engines := (rfl)
@[simp] theorem State.draw_hints (s : State) : s.draw.hints = s.hints := (rfl)
@[simp] theorem State.draw_fwd (s : State) : s.draw.fwd = s.fwd := (rfl)
@[simp] theorem State.draw_hbms (s : State) : s.draw.hbms = s.hbms := (rfl)
@[simp] theorem State.draw_frames (s : State) : s.draw.frames = s.frames := (rfl)
@[simp] theorem State.draw_yards (s : State) : s.draw.yards = s.yards := (rfl)
@[simp] theorem State.draw_parts (s : State) : s.draw.parts = s.parts := (rfl)
@[simp] theorem State.draw_objs (s : State) : s.draw.objs = s.objs := (rfl)
@[simp] theorem State.draw_routes (s : State) : s.draw.routes = s.routes := (rfl)
@[simp] theorem State.draw_logs (s : State) : s.draw.logs = s.logs := (rfl)
@[simp] theorem State.draw_ports (s : State) : s.draw.ports = s.ports := (rfl)
@[simp] theorem State.draw_fabric (s : State) : s.draw.fabric = s.fabric := (rfl)
@[simp] theorem State.draw_host (s : State) : s.draw.host = s.host := (rfl)
@[simp] theorem State.draw_season (s : State) : s.draw.season = s.season := (rfl)
@[simp] theorem State.draw_power (s : State) : s.draw.power = s.power := (rfl)
@[simp] theorem State.draw_perfs (s : State) : s.draw.perfs = s.perfs := (rfl)
@[simp] theorem State.draw_flash (s : State) : s.draw.flash = s.flash := (rfl)
@[simp] theorem State.draw_clock (s : State) : s.draw.clock = s.clock := (rfl)
@[simp] theorem State.draw_time (s : State) : s.draw.time = s.time := (rfl)
@[simp] theorem State.draw_ctr (s : State) : s.draw.ctr = s.ctr := (rfl)
@[simp] theorem State.draw_out (s : State) : s.draw.out = s.out := (rfl)
@[simp] theorem State.draw_wids (s : State) : s.draw.wids = s.wids := (rfl)
@[simp] theorem State.draw_stall (s : State) (j : Nat) : s.draw.stall j = s.stall j := (rfl)
@[simp] theorem State.draw_shed (s : State) (j : Nat) : s.draw.shed j = s.shed j := (rfl)
@[simp] theorem State.draw_engine (s : State) (j : Nat) : s.draw.engine j = s.engine j := (rfl)
@[simp] theorem State.draw_hbm (s : State) (j : Nat) : s.draw.hbm j = s.hbm j := (rfl)
@[simp] theorem State.draw_yard (s : State) (j : Nat) : s.draw.yard j = s.yard j := (rfl)
@[simp] theorem State.draw_part (s : State) (j : Nat) : s.draw.part j = s.part j := (rfl)
@[simp] theorem State.draw_port (s : State) (j : Nat) : s.draw.port j = s.port j := (rfl)
@[simp] theorem State.draw_log (s : State) (j : Nat) : s.draw.log j = s.log j := (rfl)
@[simp] theorem State.draw_perf (s : State) (j : Nat) : s.draw.perf j = s.perf j := (rfl)
@[simp] theorem State.draw_obj (s : State) (j : Nat) : s.draw.obj j = s.obj j := (rfl)
@[simp] theorem State.draw_byte (s : State) (j : Nat) : s.draw.byte j = s.byte j := (rfl)
@[simp] theorem State.draw_check (s : State) (j : Nat) : s.draw.check j = s.check j := (rfl)
@[simp] theorem State.draw_fn (s : State) (j : Nat) : s.draw.fn j = s.fn j := (rfl)
@[simp] theorem State.draw_sem (s : State) (j : Nat) : s.draw.sem j = s.sem j := (rfl)
@[simp] theorem State.draw_frame (s : State) (i j : Nat) : s.draw.frame i j = s.frame i j := (rfl)

end Sys2Proof.Machine
end

