-- ==== Sys2Proof/Laws/Ops.lean ====
section
/-!
SUPPORT. What the shared operations leave alone: an interrupt message, a log entry, the counting of an object, the end of
the leases that have run out, and the taking of a request.
-/

namespace Sys2Proof.Machine

/-! ### An interrupt message changes a function's pending bits or what is sent -/

@[simp] theorem State.raiseMsix_pending (s : State) (f v : Nat) :
    (s.raiseMsix f v).pending = s.pending := by
  unfold State.raiseMsix; split
  · rfl
  · split <;> rfl
@[simp] theorem State.raiseMsix_mem (s : State) (f v : Nat) :
    (s.raiseMsix f v).mem = s.mem := by
  unfold State.raiseMsix; split
  · rfl
  · split <;> rfl
@[simp] theorem State.raiseMsix_ecc (s : State) (f v : Nat) :
    (s.raiseMsix f v).ecc = s.ecc := by
  unfold State.raiseMsix; split
  · rfl
  · split <;> rfl
@[simp] theorem State.raiseMsix_stalls (s : State) (f v : Nat) :
    (s.raiseMsix f v).stalls = s.stalls := by
  unfold State.raiseMsix; split
  · rfl
  · split <;> rfl
@[simp] theorem State.raiseMsix_sheds (s : State) (f v : Nat) :
    (s.raiseMsix f v).sheds = s.sheds := by
  unfold State.raiseMsix; split
  · rfl
  · split <;> rfl
@[simp] theorem State.raiseMsix_mesh (s : State) (f v : Nat) :
    (s.raiseMsix f v).mesh = s.mesh := by
  unfold State.raiseMsix; split
  · rfl
  · split <;> rfl
@[simp] theorem State.raiseMsix_penOps (s : State) (f v : Nat) :
    (s.raiseMsix f v).penOps = s.penOps := by
  unfold State.raiseMsix; split
  · rfl
  · split <;> rfl
@[simp] theorem State.raiseMsix_pushes (s : State) (f v : Nat) :
    (s.raiseMsix f v).pushes = s.pushes := by
  unfold State.raiseMsix; split
  · rfl
  · split <;> rfl
@[simp] theorem State.raiseMsix_engines (s : State) (f v : Nat) :
    (s.raiseMsix f v).engines = s.engines := by
  unfold State.raiseMsix; split
  · rfl
  · split <;> rfl
@[simp] theorem State.raiseMsix_hints (s : State) (f v : Nat) :
    (s.raiseMsix f v).hints = s.hints := by
  unfold State.raiseMsix; split
  · rfl
  · split <;> rfl
@[simp] theorem State.raiseMsix_fwd (s : State) (f v : Nat) :
    (s.raiseMsix f v).fwd = s.fwd := by
  unfold State.raiseMsix; split
  · rfl
  · split <;> rfl
@[simp] theorem State.raiseMsix_hbms (s : State) (f v : Nat) :
    (s.raiseMsix f v).hbms = s.hbms := by
  unfold State.raiseMsix; split
  · rfl
  · split <;> rfl
@[simp] theorem State.raiseMsix_frames (s : State) (f v : Nat) :
    (s.raiseMsix f v).frames = s.frames := by
  unfold State.raiseMsix; split
  · rfl
  · split <;> rfl
@[simp] theorem State.raiseMsix_yards (s : State) (f v : Nat) :
    (s.raiseMsix f v).yards = s.yards := by
  unfold State.raiseMsix; split
  · rfl
  · split <;> rfl
@[simp] theorem State.raiseMsix_parts (s : State) (f v : Nat) :
    (s.raiseMsix f v).parts = s.parts := by
  unfold State.raiseMsix; split
  · rfl
  · split <;> rfl
@[simp] theorem State.raiseMsix_objs (s : State) (f v : Nat) :
    (s.raiseMsix f v).objs = s.objs := by
  unfold State.raiseMsix; split
  · rfl
  · split <;> rfl
@[simp] theorem State.raiseMsix_routes (s : State) (f v : Nat) :
    (s.raiseMsix f v).routes = s.routes := by
  unfold State.raiseMsix; split
  · rfl
  · split <;> rfl
@[simp] theorem State.raiseMsix_logs (s : State) (f v : Nat) :
    (s.raiseMsix f v).logs = s.logs := by
  unfold State.raiseMsix; split
  · rfl
  · split <;> rfl
@[simp] theorem State.raiseMsix_ports (s : State) (f v : Nat) :
    (s.raiseMsix f v).ports = s.ports := by
  unfold State.raiseMsix; split
  · rfl
  · split <;> rfl
@[simp] theorem State.raiseMsix_fabric (s : State) (f v : Nat) :
    (s.raiseMsix f v).fabric = s.fabric := by
  unfold State.raiseMsix; split
  · rfl
  · split <;> rfl
@[simp] theorem State.raiseMsix_season (s : State) (f v : Nat) :
    (s.raiseMsix f v).season = s.season := by
  unfold State.raiseMsix; split
  · rfl
  · split <;> rfl
@[simp] theorem State.raiseMsix_power (s : State) (f v : Nat) :
    (s.raiseMsix f v).power = s.power := by
  unfold State.raiseMsix; split
  · rfl
  · split <;> rfl
@[simp] theorem State.raiseMsix_perfs (s : State) (f v : Nat) :
    (s.raiseMsix f v).perfs = s.perfs := by
  unfold State.raiseMsix; split
  · rfl
  · split <;> rfl
@[simp] theorem State.raiseMsix_flash (s : State) (f v : Nat) :
    (s.raiseMsix f v).flash = s.flash := by
  unfold State.raiseMsix; split
  · rfl
  · split <;> rfl
@[simp] theorem State.raiseMsix_clock (s : State) (f v : Nat) :
    (s.raiseMsix f v).clock = s.clock := by
  unfold State.raiseMsix; split
  · rfl
  · split <;> rfl
@[simp] theorem State.raiseMsix_time (s : State) (f v : Nat) :
    (s.raiseMsix f v).time = s.time := by
  unfold State.raiseMsix; split
  · rfl
  · split <;> rfl
@[simp] theorem State.raiseMsix_ctr (s : State) (f v : Nat) :
    (s.raiseMsix f v).ctr = s.ctr := by
  unfold State.raiseMsix; split
  · rfl
  · split <;> rfl
@[simp] theorem State.raiseMsix_free (s : State) (f v : Nat) :
    (s.raiseMsix f v).free = s.free := by
  unfold State.raiseMsix; split
  · rfl
  · split <;> rfl
@[simp] theorem State.raiseMsix_host_numVfs (s : State) (f v : Nat) :
    (s.raiseMsix f v).host.numVfs = s.host.numVfs := by
  unfold State.raiseMsix; split
  · rfl
  · split <;> rfl
@[simp] theorem State.raiseMsix_host_msixEn (s : State) (f v : Nat) :
    (s.raiseMsix f v).host.msixEn = s.host.msixEn := by
  unfold State.raiseMsix; split
  · rfl
  · split <;> rfl
@[simp] theorem State.raiseMsix_host_linkUp (s : State) (f v : Nat) :
    (s.raiseMsix f v).host.linkUp = s.host.linkUp := by
  unfold State.raiseMsix; split
  · rfl
  · split <;> rfl
@[simp] theorem State.raiseMsix_host_perst (s : State) (f v : Nat) :
    (s.raiseMsix f v).host.perst = s.host.perst := by
  unfold State.raiseMsix; split
  · rfl
  · split <;> rfl
@[simp] theorem State.raiseMsix_host_sems (s : State) (f v : Nat) :
    (s.raiseMsix f v).host.sems = s.host.sems := by
  unfold State.raiseMsix; split
  · rfl
  · split <;> rfl
@[simp] theorem State.raiseMsix_host_mgmtQ (s : State) (f v : Nat) :
    (s.raiseMsix f v).host.mgmtQ = s.host.mgmtQ := by
  unfold State.raiseMsix; split
  · rfl
  · split <;> rfl
@[simp] theorem State.raiseMsix_host_llynQ (s : State) (f v : Nat) :
    (s.raiseMsix f v).host.llynQ = s.host.llynQ := by
  unfold State.raiseMsix; split
  · rfl
  · split <;> rfl
@[simp] theorem State.raiseMsix_host_store (s : State) (f v : Nat) :
    (s.raiseMsix f v).host.store = s.host.store := by
  unfold State.raiseMsix; split
  · rfl
  · split <;> rfl
@[simp] theorem State.raiseMsix_host_src (s : State) (f v : Nat) :
    (s.raiseMsix f v).host.src = s.host.src := by
  unfold State.raiseMsix; split
  · rfl
  · split <;> rfl
@[simp] theorem State.raiseMsix_host_fnNext (s : State) (f v : Nat) :
    (s.raiseMsix f v).host.fnNext = s.host.fnNext := by
  unfold State.raiseMsix; split
  · rfl
  · split <;> rfl
@[simp] theorem State.raiseMsix_host_mgmtUp (s : State) (f v : Nat) :
    (s.raiseMsix f v).host.mgmtUp = s.host.mgmtUp := by
  unfold State.raiseMsix; split
  · rfl
  · split <;> rfl

/-! ### An entry of the module log -/

@[simp] theorem State.logModule_pending (s : State) (code sev : Nat) (part : Option Nat) (kind idx detail : Nat) :
    (s.logModule code sev part kind idx detail).pending = s.pending := by
  unfold State.logModule; dsimp only; split
  · rw [State.raiseMsix_pending, State.setLog_pending]
  · rw [State.setLog_pending]
@[simp] theorem State.logModule_mem (s : State) (code sev : Nat) (part : Option Nat) (kind idx detail : Nat) :
    (s.logModule code sev part kind idx detail).mem = s.mem := by
  unfold State.logModule; dsimp only; split
  · rw [State.raiseMsix_mem, State.setLog_mem]
  · rw [State.setLog_mem]
@[simp] theorem State.logModule_ecc (s : State) (code sev : Nat) (part : Option Nat) (kind idx detail : Nat) :
    (s.logModule code sev part kind idx detail).ecc = s.ecc := by
  unfold State.logModule; dsimp only; split
  · rw [State.raiseMsix_ecc, State.setLog_ecc]
  · rw [State.setLog_ecc]
@[simp] theorem State.logModule_stalls (s : State) (code sev : Nat) (part : Option Nat) (kind idx detail : Nat) :
    (s.logModule code sev part kind idx detail).stalls = s.stalls := by
  unfold State.logModule; dsimp only; split
  · rw [State.raiseMsix_stalls, State.setLog_stalls]
  · rw [State.setLog_stalls]
@[simp] theorem State.logModule_sheds (s : State) (code sev : Nat) (part : Option Nat) (kind idx detail : Nat) :
    (s.logModule code sev part kind idx detail).sheds = s.sheds := by
  unfold State.logModule; dsimp only; split
  · rw [State.raiseMsix_sheds, State.setLog_sheds]
  · rw [State.setLog_sheds]
@[simp] theorem State.logModule_mesh (s : State) (code sev : Nat) (part : Option Nat) (kind idx detail : Nat) :
    (s.logModule code sev part kind idx detail).mesh = s.mesh := by
  unfold State.logModule; dsimp only; split
  · rw [State.raiseMsix_mesh, State.setLog_mesh]
  · rw [State.setLog_mesh]
@[simp] theorem State.logModule_penOps (s : State) (code sev : Nat) (part : Option Nat) (kind idx detail : Nat) :
    (s.logModule code sev part kind idx detail).penOps = s.penOps := by
  unfold State.logModule; dsimp only; split
  · rw [State.raiseMsix_penOps, State.setLog_penOps]
  · rw [State.setLog_penOps]
@[simp] theorem State.logModule_pushes (s : State) (code sev : Nat) (part : Option Nat) (kind idx detail : Nat) :
    (s.logModule code sev part kind idx detail).pushes = s.pushes := by
  unfold State.logModule; dsimp only; split
  · rw [State.raiseMsix_pushes, State.setLog_pushes]
  · rw [State.setLog_pushes]
@[simp] theorem State.logModule_engines (s : State) (code sev : Nat) (part : Option Nat) (kind idx detail : Nat) :
    (s.logModule code sev part kind idx detail).engines = s.engines := by
  unfold State.logModule; dsimp only; split
  · rw [State.raiseMsix_engines, State.setLog_engines]
  · rw [State.setLog_engines]
@[simp] theorem State.logModule_hints (s : State) (code sev : Nat) (part : Option Nat) (kind idx detail : Nat) :
    (s.logModule code sev part kind idx detail).hints = s.hints := by
  unfold State.logModule; dsimp only; split
  · rw [State.raiseMsix_hints, State.setLog_hints]
  · rw [State.setLog_hints]
@[simp] theorem State.logModule_fwd (s : State) (code sev : Nat) (part : Option Nat) (kind idx detail : Nat) :
    (s.logModule code sev part kind idx detail).fwd = s.fwd := by
  unfold State.logModule; dsimp only; split
  · rw [State.raiseMsix_fwd, State.setLog_fwd]
  · rw [State.setLog_fwd]
@[simp] theorem State.logModule_hbms (s : State) (code sev : Nat) (part : Option Nat) (kind idx detail : Nat) :
    (s.logModule code sev part kind idx detail).hbms = s.hbms := by
  unfold State.logModule; dsimp only; split
  · rw [State.raiseMsix_hbms, State.setLog_hbms]
  · rw [State.setLog_hbms]
@[simp] theorem State.logModule_frames (s : State) (code sev : Nat) (part : Option Nat) (kind idx detail : Nat) :
    (s.logModule code sev part kind idx detail).frames = s.frames := by
  unfold State.logModule; dsimp only; split
  · rw [State.raiseMsix_frames, State.setLog_frames]
  · rw [State.setLog_frames]
@[simp] theorem State.logModule_yards (s : State) (code sev : Nat) (part : Option Nat) (kind idx detail : Nat) :
    (s.logModule code sev part kind idx detail).yards = s.yards := by
  unfold State.logModule; dsimp only; split
  · rw [State.raiseMsix_yards, State.setLog_yards]
  · rw [State.setLog_yards]
@[simp] theorem State.logModule_parts (s : State) (code sev : Nat) (part : Option Nat) (kind idx detail : Nat) :
    (s.logModule code sev part kind idx detail).parts = s.parts := by
  unfold State.logModule; dsimp only; split
  · rw [State.raiseMsix_parts, State.setLog_parts]
  · rw [State.setLog_parts]
@[simp] theorem State.logModule_objs (s : State) (code sev : Nat) (part : Option Nat) (kind idx detail : Nat) :
    (s.logModule code sev part kind idx detail).objs = s.objs := by
  unfold State.logModule; dsimp only; split
  · rw [State.raiseMsix_objs, State.setLog_objs]
  · rw [State.setLog_objs]
@[simp] theorem State.logModule_routes (s : State) (code sev : Nat) (part : Option Nat) (kind idx detail : Nat) :
    (s.logModule code sev part kind idx detail).routes = s.routes := by
  unfold State.logModule; dsimp only; split
  · rw [State.raiseMsix_routes, State.setLog_routes]
  · rw [State.setLog_routes]
@[simp] theorem State.logModule_ports (s : State) (code sev : Nat) (part : Option Nat) (kind idx detail : Nat) :
    (s.logModule code sev part kind idx detail).ports = s.ports := by
  unfold State.logModule; dsimp only; split
  · rw [State.raiseMsix_ports, State.setLog_ports]
  · rw [State.setLog_ports]
@[simp] theorem State.logModule_fabric (s : State) (code sev : Nat) (part : Option Nat) (kind idx detail : Nat) :
    (s.logModule code sev part kind idx detail).fabric = s.fabric := by
  unfold State.logModule; dsimp only; split
  · rw [State.raiseMsix_fabric, State.setLog_fabric]
  · rw [State.setLog_fabric]
@[simp] theorem State.logModule_season (s : State) (code sev : Nat) (part : Option Nat) (kind idx detail : Nat) :
    (s.logModule code sev part kind idx detail).season = s.season := by
  unfold State.logModule; dsimp only; split
  · rw [State.raiseMsix_season, State.setLog_season]
  · rw [State.setLog_season]
@[simp] theorem State.logModule_power (s : State) (code sev : Nat) (part : Option Nat) (kind idx detail : Nat) :
    (s.logModule code sev part kind idx detail).power = s.power := by
  unfold State.logModule; dsimp only; split
  · rw [State.raiseMsix_power, State.setLog_power]
  · rw [State.setLog_power]
@[simp] theorem State.logModule_perfs (s : State) (code sev : Nat) (part : Option Nat) (kind idx detail : Nat) :
    (s.logModule code sev part kind idx detail).perfs = s.perfs := by
  unfold State.logModule; dsimp only; split
  · rw [State.raiseMsix_perfs, State.setLog_perfs]
  · rw [State.setLog_perfs]
@[simp] theorem State.logModule_flash (s : State) (code sev : Nat) (part : Option Nat) (kind idx detail : Nat) :
    (s.logModule code sev part kind idx detail).flash = s.flash := by
  unfold State.logModule; dsimp only; split
  · rw [State.raiseMsix_flash, State.setLog_flash]
  · rw [State.setLog_flash]
@[simp] theorem State.logModule_clock (s : State) (code sev : Nat) (part : Option Nat) (kind idx detail : Nat) :
    (s.logModule code sev part kind idx detail).clock = s.clock := by
  unfold State.logModule; dsimp only; split
  · rw [State.raiseMsix_clock, State.setLog_clock]
  · rw [State.setLog_clock]
@[simp] theorem State.logModule_time (s : State) (code sev : Nat) (part : Option Nat) (kind idx detail : Nat) :
    (s.logModule code sev part kind idx detail).time = s.time := by
  unfold State.logModule; dsimp only; split
  · rw [State.raiseMsix_time, State.setLog_time]
  · rw [State.setLog_time]
@[simp] theorem State.logModule_ctr (s : State) (code sev : Nat) (part : Option Nat) (kind idx detail : Nat) :
    (s.logModule code sev part kind idx detail).ctr = s.ctr := by
  unfold State.logModule; dsimp only; split
  · rw [State.raiseMsix_ctr, State.setLog_ctr]
  · rw [State.setLog_ctr]
@[simp] theorem State.logModule_free (s : State) (code sev : Nat) (part : Option Nat) (kind idx detail : Nat) :
    (s.logModule code sev part kind idx detail).free = s.free := by
  unfold State.logModule; dsimp only; split
  · rw [State.raiseMsix_free, State.setLog_free]
  · rw [State.setLog_free]
@[simp] theorem State.logModule_host_numVfs (s : State) (code sev : Nat) (part : Option Nat) (kind idx detail : Nat) :
    (s.logModule code sev part kind idx detail).host.numVfs = s.host.numVfs := by
  unfold State.logModule; dsimp only; split
  · rw [State.raiseMsix_host_numVfs, State.setLog_host]
  · rw [State.setLog_host]
@[simp] theorem State.logModule_host_msixEn (s : State) (code sev : Nat) (part : Option Nat) (kind idx detail : Nat) :
    (s.logModule code sev part kind idx detail).host.msixEn = s.host.msixEn := by
  unfold State.logModule; dsimp only; split
  · rw [State.raiseMsix_host_msixEn, State.setLog_host]
  · rw [State.setLog_host]
@[simp] theorem State.logModule_host_linkUp (s : State) (code sev : Nat) (part : Option Nat) (kind idx detail : Nat) :
    (s.logModule code sev part kind idx detail).host.linkUp = s.host.linkUp := by
  unfold State.logModule; dsimp only; split
  · rw [State.raiseMsix_host_linkUp, State.setLog_host]
  · rw [State.setLog_host]
@[simp] theorem State.logModule_host_perst (s : State) (code sev : Nat) (part : Option Nat) (kind idx detail : Nat) :
    (s.logModule code sev part kind idx detail).host.perst = s.host.perst := by
  unfold State.logModule; dsimp only; split
  · rw [State.raiseMsix_host_perst, State.setLog_host]
  · rw [State.setLog_host]
@[simp] theorem State.logModule_host_sems (s : State) (code sev : Nat) (part : Option Nat) (kind idx detail : Nat) :
    (s.logModule code sev part kind idx detail).host.sems = s.host.sems := by
  unfold State.logModule; dsimp only; split
  · rw [State.raiseMsix_host_sems, State.setLog_host]
  · rw [State.setLog_host]
@[simp] theorem State.logModule_host_mgmtQ (s : State) (code sev : Nat) (part : Option Nat) (kind idx detail : Nat) :
    (s.logModule code sev part kind idx detail).host.mgmtQ = s.host.mgmtQ := by
  unfold State.logModule; dsimp only; split
  · rw [State.raiseMsix_host_mgmtQ, State.setLog_host]
  · rw [State.setLog_host]
@[simp] theorem State.logModule_host_llynQ (s : State) (code sev : Nat) (part : Option Nat) (kind idx detail : Nat) :
    (s.logModule code sev part kind idx detail).host.llynQ = s.host.llynQ := by
  unfold State.logModule; dsimp only; split
  · rw [State.raiseMsix_host_llynQ, State.setLog_host]
  · rw [State.setLog_host]
@[simp] theorem State.logModule_host_store (s : State) (code sev : Nat) (part : Option Nat) (kind idx detail : Nat) :
    (s.logModule code sev part kind idx detail).host.store = s.host.store := by
  unfold State.logModule; dsimp only; split
  · rw [State.raiseMsix_host_store, State.setLog_host]
  · rw [State.setLog_host]
@[simp] theorem State.logModule_host_src (s : State) (code sev : Nat) (part : Option Nat) (kind idx detail : Nat) :
    (s.logModule code sev part kind idx detail).host.src = s.host.src := by
  unfold State.logModule; dsimp only; split
  · rw [State.raiseMsix_host_src, State.setLog_host]
  · rw [State.setLog_host]
@[simp] theorem State.logModule_host_fnNext (s : State) (code sev : Nat) (part : Option Nat) (kind idx detail : Nat) :
    (s.logModule code sev part kind idx detail).host.fnNext = s.host.fnNext := by
  unfold State.logModule; dsimp only; split
  · rw [State.raiseMsix_host_fnNext, State.setLog_host]
  · rw [State.setLog_host]
@[simp] theorem State.logModule_host_mgmtUp (s : State) (code sev : Nat) (part : Option Nat) (kind idx detail : Nat) :
    (s.logModule code sev part kind idx detail).host.mgmtUp = s.host.mgmtUp := by
  unfold State.logModule; dsimp only; split
  · rw [State.raiseMsix_host_mgmtUp, State.setLog_host]
  · rw [State.setLog_host]

/-! ### An entry of a partition log -/

@[simp] theorem State.logPart_pending (s : State) (p code sev kind idx detail : Nat) :
    (s.logPart p code sev kind idx detail).pending = s.pending := by
  rw [State.logPart, State.raiseMsix_pending, State.setLog_pending]
@[simp] theorem State.logPart_mem (s : State) (p code sev kind idx detail : Nat) :
    (s.logPart p code sev kind idx detail).mem = s.mem := by
  rw [State.logPart, State.raiseMsix_mem, State.setLog_mem]
@[simp] theorem State.logPart_ecc (s : State) (p code sev kind idx detail : Nat) :
    (s.logPart p code sev kind idx detail).ecc = s.ecc := by
  rw [State.logPart, State.raiseMsix_ecc, State.setLog_ecc]
@[simp] theorem State.logPart_stalls (s : State) (p code sev kind idx detail : Nat) :
    (s.logPart p code sev kind idx detail).stalls = s.stalls := by
  rw [State.logPart, State.raiseMsix_stalls, State.setLog_stalls]
@[simp] theorem State.logPart_sheds (s : State) (p code sev kind idx detail : Nat) :
    (s.logPart p code sev kind idx detail).sheds = s.sheds := by
  rw [State.logPart, State.raiseMsix_sheds, State.setLog_sheds]
@[simp] theorem State.logPart_mesh (s : State) (p code sev kind idx detail : Nat) :
    (s.logPart p code sev kind idx detail).mesh = s.mesh := by
  rw [State.logPart, State.raiseMsix_mesh, State.setLog_mesh]
@[simp] theorem State.logPart_penOps (s : State) (p code sev kind idx detail : Nat) :
    (s.logPart p code sev kind idx detail).penOps = s.penOps := by
  rw [State.logPart, State.raiseMsix_penOps, State.setLog_penOps]
@[simp] theorem State.logPart_pushes (s : State) (p code sev kind idx detail : Nat) :
    (s.logPart p code sev kind idx detail).pushes = s.pushes := by
  rw [State.logPart, State.raiseMsix_pushes, State.setLog_pushes]
@[simp] theorem State.logPart_engines (s : State) (p code sev kind idx detail : Nat) :
    (s.logPart p code sev kind idx detail).engines = s.engines := by
  rw [State.logPart, State.raiseMsix_engines, State.setLog_engines]
@[simp] theorem State.logPart_hints (s : State) (p code sev kind idx detail : Nat) :
    (s.logPart p code sev kind idx detail).hints = s.hints := by
  rw [State.logPart, State.raiseMsix_hints, State.setLog_hints]
@[simp] theorem State.logPart_fwd (s : State) (p code sev kind idx detail : Nat) :
    (s.logPart p code sev kind idx detail).fwd = s.fwd := by
  rw [State.logPart, State.raiseMsix_fwd, State.setLog_fwd]
@[simp] theorem State.logPart_hbms (s : State) (p code sev kind idx detail : Nat) :
    (s.logPart p code sev kind idx detail).hbms = s.hbms := by
  rw [State.logPart, State.raiseMsix_hbms, State.setLog_hbms]
@[simp] theorem State.logPart_frames (s : State) (p code sev kind idx detail : Nat) :
    (s.logPart p code sev kind idx detail).frames = s.frames := by
  rw [State.logPart, State.raiseMsix_frames, State.setLog_frames]
@[simp] theorem State.logPart_yards (s : State) (p code sev kind idx detail : Nat) :
    (s.logPart p code sev kind idx detail).yards = s.yards := by
  rw [State.logPart, State.raiseMsix_yards, State.setLog_yards]
@[simp] theorem State.logPart_parts (s : State) (p code sev kind idx detail : Nat) :
    (s.logPart p code sev kind idx detail).parts = s.parts := by
  rw [State.logPart, State.raiseMsix_parts, State.setLog_parts]
@[simp] theorem State.logPart_objs (s : State) (p code sev kind idx detail : Nat) :
    (s.logPart p code sev kind idx detail).objs = s.objs := by
  rw [State.logPart, State.raiseMsix_objs, State.setLog_objs]
@[simp] theorem State.logPart_routes (s : State) (p code sev kind idx detail : Nat) :
    (s.logPart p code sev kind idx detail).routes = s.routes := by
  rw [State.logPart, State.raiseMsix_routes, State.setLog_routes]
@[simp] theorem State.logPart_ports (s : State) (p code sev kind idx detail : Nat) :
    (s.logPart p code sev kind idx detail).ports = s.ports := by
  rw [State.logPart, State.raiseMsix_ports, State.setLog_ports]
@[simp] theorem State.logPart_fabric (s : State) (p code sev kind idx detail : Nat) :
    (s.logPart p code sev kind idx detail).fabric = s.fabric := by
  rw [State.logPart, State.raiseMsix_fabric, State.setLog_fabric]
@[simp] theorem State.logPart_season (s : State) (p code sev kind idx detail : Nat) :
    (s.logPart p code sev kind idx detail).season = s.season := by
  rw [State.logPart, State.raiseMsix_season, State.setLog_season]
@[simp] theorem State.logPart_power (s : State) (p code sev kind idx detail : Nat) :
    (s.logPart p code sev kind idx detail).power = s.power := by
  rw [State.logPart, State.raiseMsix_power, State.setLog_power]
@[simp] theorem State.logPart_perfs (s : State) (p code sev kind idx detail : Nat) :
    (s.logPart p code sev kind idx detail).perfs = s.perfs := by
  rw [State.logPart, State.raiseMsix_perfs, State.setLog_perfs]
@[simp] theorem State.logPart_flash (s : State) (p code sev kind idx detail : Nat) :
    (s.logPart p code sev kind idx detail).flash = s.flash := by
  rw [State.logPart, State.raiseMsix_flash, State.setLog_flash]
@[simp] theorem State.logPart_clock (s : State) (p code sev kind idx detail : Nat) :
    (s.logPart p code sev kind idx detail).clock = s.clock := by
  rw [State.logPart, State.raiseMsix_clock, State.setLog_clock]
@[simp] theorem State.logPart_time (s : State) (p code sev kind idx detail : Nat) :
    (s.logPart p code sev kind idx detail).time = s.time := by
  rw [State.logPart, State.raiseMsix_time, State.setLog_time]
@[simp] theorem State.logPart_ctr (s : State) (p code sev kind idx detail : Nat) :
    (s.logPart p code sev kind idx detail).ctr = s.ctr := by
  rw [State.logPart, State.raiseMsix_ctr, State.setLog_ctr]
@[simp] theorem State.logPart_free (s : State) (p code sev kind idx detail : Nat) :
    (s.logPart p code sev kind idx detail).free = s.free := by
  rw [State.logPart, State.raiseMsix_free, State.setLog_free]
@[simp] theorem State.logPart_host_numVfs (s : State) (p code sev kind idx detail : Nat) :
    (s.logPart p code sev kind idx detail).host.numVfs = s.host.numVfs := by
  rw [State.logPart, State.raiseMsix_host_numVfs, State.setLog_host]
@[simp] theorem State.logPart_host_msixEn (s : State) (p code sev kind idx detail : Nat) :
    (s.logPart p code sev kind idx detail).host.msixEn = s.host.msixEn := by
  rw [State.logPart, State.raiseMsix_host_msixEn, State.setLog_host]
@[simp] theorem State.logPart_host_linkUp (s : State) (p code sev kind idx detail : Nat) :
    (s.logPart p code sev kind idx detail).host.linkUp = s.host.linkUp := by
  rw [State.logPart, State.raiseMsix_host_linkUp, State.setLog_host]
@[simp] theorem State.logPart_host_perst (s : State) (p code sev kind idx detail : Nat) :
    (s.logPart p code sev kind idx detail).host.perst = s.host.perst := by
  rw [State.logPart, State.raiseMsix_host_perst, State.setLog_host]
@[simp] theorem State.logPart_host_sems (s : State) (p code sev kind idx detail : Nat) :
    (s.logPart p code sev kind idx detail).host.sems = s.host.sems := by
  rw [State.logPart, State.raiseMsix_host_sems, State.setLog_host]
@[simp] theorem State.logPart_host_mgmtQ (s : State) (p code sev kind idx detail : Nat) :
    (s.logPart p code sev kind idx detail).host.mgmtQ = s.host.mgmtQ := by
  rw [State.logPart, State.raiseMsix_host_mgmtQ, State.setLog_host]
@[simp] theorem State.logPart_host_llynQ (s : State) (p code sev kind idx detail : Nat) :
    (s.logPart p code sev kind idx detail).host.llynQ = s.host.llynQ := by
  rw [State.logPart, State.raiseMsix_host_llynQ, State.setLog_host]
@[simp] theorem State.logPart_host_store (s : State) (p code sev kind idx detail : Nat) :
    (s.logPart p code sev kind idx detail).host.store = s.host.store := by
  rw [State.logPart, State.raiseMsix_host_store, State.setLog_host]
@[simp] theorem State.logPart_host_src (s : State) (p code sev kind idx detail : Nat) :
    (s.logPart p code sev kind idx detail).host.src = s.host.src := by
  rw [State.logPart, State.raiseMsix_host_src, State.setLog_host]
@[simp] theorem State.logPart_host_fnNext (s : State) (p code sev kind idx detail : Nat) :
    (s.logPart p code sev kind idx detail).host.fnNext = s.host.fnNext := by
  rw [State.logPart, State.raiseMsix_host_fnNext, State.setLog_host]
@[simp] theorem State.logPart_host_mgmtUp (s : State) (p code sev kind idx detail : Nat) :
    (s.logPart p code sev kind idx detail).host.mgmtUp = s.host.mgmtUp := by
  rw [State.logPart, State.raiseMsix_host_mgmtUp, State.setLog_host]

/-! ### Counts -/

@[simp] theorem State.obj_bumpObj (s : State) (k n j : Nat) :
    (s.bumpObj k n).obj j = if j = k then sat32 (s.obj k) n else s.obj j := by
  rw [State.bumpObj, State.setObj_obj]

/-! ### Leases and requests (R326, R328) -/

@[simp] theorem State.expireLease_pending (s : State) (n : Nat) : (s.expireLease n).pending = s.pending := by
  unfold State.expireLease; dsimp only; split
  · rfl
  · rw [State.bumpObj, State.setObj_pending, State.logModule_pending, State.setSem_pending]
@[simp] theorem State.expireLeases_pending (s : State) : s.expireLeases.pending = s.pending := by
  unfold State.expireLeases
  generalize List.range 33 = l
  induction l generalizing s with
  | nil => rfl
  | cons n l ih => rw [List.foldl_cons, ih, State.expireLease_pending]
/-- The taking of a request changes the host interface, and frees the receive buffer of a packet that it came in. -/
theorem State.taken_eq (s : State) (w : Requester) :
    ∃ (h : HostPort) (q : List (Nat × Port)), s.taken w = { s with host := { h with store := s.host.store }, ports := q } := by
  refine ⟨(s.taken w).host, (s.taken w).ports, ?_⟩
  unfold State.taken
  split
  · rfl
  · rfl
  · dsimp only
    split
    · split <;> rfl
    · rfl
@[simp] theorem State.taken_pending (s : State) (w : Requester) : (s.taken w).pending = s.pending := by
  obtain ⟨h, q, e⟩ := s.taken_eq w; rw [e]
@[simp] theorem State.expireLease_mem (s : State) (n : Nat) : (s.expireLease n).mem = s.mem := by
  unfold State.expireLease; dsimp only; split
  · rfl
  · rw [State.bumpObj, State.setObj_mem, State.logModule_mem, State.setSem_mem]
@[simp] theorem State.expireLeases_mem (s : State) : s.expireLeases.mem = s.mem := by
  unfold State.expireLeases
  generalize List.range 33 = l
  induction l generalizing s with
  | nil => rfl
  | cons n l ih => rw [List.foldl_cons, ih, State.expireLease_mem]
@[simp] theorem State.taken_mem (s : State) (w : Requester) : (s.taken w).mem = s.mem := by
  obtain ⟨h, q, e⟩ := s.taken_eq w; rw [e]
@[simp] theorem State.expireLease_ecc (s : State) (n : Nat) : (s.expireLease n).ecc = s.ecc := by
  unfold State.expireLease; dsimp only; split
  · rfl
  · rw [State.bumpObj, State.setObj_ecc, State.logModule_ecc, State.setSem_ecc]
@[simp] theorem State.expireLeases_ecc (s : State) : s.expireLeases.ecc = s.ecc := by
  unfold State.expireLeases
  generalize List.range 33 = l
  induction l generalizing s with
  | nil => rfl
  | cons n l ih => rw [List.foldl_cons, ih, State.expireLease_ecc]
@[simp] theorem State.taken_ecc (s : State) (w : Requester) : (s.taken w).ecc = s.ecc := by
  obtain ⟨h, q, e⟩ := s.taken_eq w; rw [e]
@[simp] theorem State.expireLease_stalls (s : State) (n : Nat) : (s.expireLease n).stalls = s.stalls := by
  unfold State.expireLease; dsimp only; split
  · rfl
  · rw [State.bumpObj, State.setObj_stalls, State.logModule_stalls, State.setSem_stalls]
@[simp] theorem State.expireLeases_stalls (s : State) : s.expireLeases.stalls = s.stalls := by
  unfold State.expireLeases
  generalize List.range 33 = l
  induction l generalizing s with
  | nil => rfl
  | cons n l ih => rw [List.foldl_cons, ih, State.expireLease_stalls]
@[simp] theorem State.taken_stalls (s : State) (w : Requester) : (s.taken w).stalls = s.stalls := by
  obtain ⟨h, q, e⟩ := s.taken_eq w; rw [e]
@[simp] theorem State.expireLease_sheds (s : State) (n : Nat) : (s.expireLease n).sheds = s.sheds := by
  unfold State.expireLease; dsimp only; split
  · rfl
  · rw [State.bumpObj, State.setObj_sheds, State.logModule_sheds, State.setSem_sheds]
@[simp] theorem State.expireLeases_sheds (s : State) : s.expireLeases.sheds = s.sheds := by
  unfold State.expireLeases
  generalize List.range 33 = l
  induction l generalizing s with
  | nil => rfl
  | cons n l ih => rw [List.foldl_cons, ih, State.expireLease_sheds]
@[simp] theorem State.taken_sheds (s : State) (w : Requester) : (s.taken w).sheds = s.sheds := by
  obtain ⟨h, q, e⟩ := s.taken_eq w; rw [e]
@[simp] theorem State.expireLease_mesh (s : State) (n : Nat) : (s.expireLease n).mesh = s.mesh := by
  unfold State.expireLease; dsimp only; split
  · rfl
  · rw [State.bumpObj, State.setObj_mesh, State.logModule_mesh, State.setSem_mesh]
@[simp] theorem State.expireLeases_mesh (s : State) : s.expireLeases.mesh = s.mesh := by
  unfold State.expireLeases
  generalize List.range 33 = l
  induction l generalizing s with
  | nil => rfl
  | cons n l ih => rw [List.foldl_cons, ih, State.expireLease_mesh]
@[simp] theorem State.taken_mesh (s : State) (w : Requester) : (s.taken w).mesh = s.mesh := by
  obtain ⟨h, q, e⟩ := s.taken_eq w; rw [e]
@[simp] theorem State.expireLease_penOps (s : State) (n : Nat) : (s.expireLease n).penOps = s.penOps := by
  unfold State.expireLease; dsimp only; split
  · rfl
  · rw [State.bumpObj, State.setObj_penOps, State.logModule_penOps, State.setSem_penOps]
@[simp] theorem State.expireLeases_penOps (s : State) : s.expireLeases.penOps = s.penOps := by
  unfold State.expireLeases
  generalize List.range 33 = l
  induction l generalizing s with
  | nil => rfl
  | cons n l ih => rw [List.foldl_cons, ih, State.expireLease_penOps]
@[simp] theorem State.taken_penOps (s : State) (w : Requester) : (s.taken w).penOps = s.penOps := by
  obtain ⟨h, q, e⟩ := s.taken_eq w; rw [e]
@[simp] theorem State.expireLease_pushes (s : State) (n : Nat) : (s.expireLease n).pushes = s.pushes := by
  unfold State.expireLease; dsimp only; split
  · rfl
  · rw [State.bumpObj, State.setObj_pushes, State.logModule_pushes, State.setSem_pushes]
@[simp] theorem State.expireLeases_pushes (s : State) : s.expireLeases.pushes = s.pushes := by
  unfold State.expireLeases
  generalize List.range 33 = l
  induction l generalizing s with
  | nil => rfl
  | cons n l ih => rw [List.foldl_cons, ih, State.expireLease_pushes]
@[simp] theorem State.taken_pushes (s : State) (w : Requester) : (s.taken w).pushes = s.pushes := by
  obtain ⟨h, q, e⟩ := s.taken_eq w; rw [e]
@[simp] theorem State.expireLease_engines (s : State) (n : Nat) : (s.expireLease n).engines = s.engines := by
  unfold State.expireLease; dsimp only; split
  · rfl
  · rw [State.bumpObj, State.setObj_engines, State.logModule_engines, State.setSem_engines]
@[simp] theorem State.expireLeases_engines (s : State) : s.expireLeases.engines = s.engines := by
  unfold State.expireLeases
  generalize List.range 33 = l
  induction l generalizing s with
  | nil => rfl
  | cons n l ih => rw [List.foldl_cons, ih, State.expireLease_engines]
@[simp] theorem State.taken_engines (s : State) (w : Requester) : (s.taken w).engines = s.engines := by
  obtain ⟨h, q, e⟩ := s.taken_eq w; rw [e]
@[simp] theorem State.expireLease_hints (s : State) (n : Nat) : (s.expireLease n).hints = s.hints := by
  unfold State.expireLease; dsimp only; split
  · rfl
  · rw [State.bumpObj, State.setObj_hints, State.logModule_hints, State.setSem_hints]
@[simp] theorem State.expireLeases_hints (s : State) : s.expireLeases.hints = s.hints := by
  unfold State.expireLeases
  generalize List.range 33 = l
  induction l generalizing s with
  | nil => rfl
  | cons n l ih => rw [List.foldl_cons, ih, State.expireLease_hints]
@[simp] theorem State.taken_hints (s : State) (w : Requester) : (s.taken w).hints = s.hints := by
  obtain ⟨h, q, e⟩ := s.taken_eq w; rw [e]
@[simp] theorem State.expireLease_fwd (s : State) (n : Nat) : (s.expireLease n).fwd = s.fwd := by
  unfold State.expireLease; dsimp only; split
  · rfl
  · rw [State.bumpObj, State.setObj_fwd, State.logModule_fwd, State.setSem_fwd]
@[simp] theorem State.expireLeases_fwd (s : State) : s.expireLeases.fwd = s.fwd := by
  unfold State.expireLeases
  generalize List.range 33 = l
  induction l generalizing s with
  | nil => rfl
  | cons n l ih => rw [List.foldl_cons, ih, State.expireLease_fwd]
@[simp] theorem State.taken_fwd (s : State) (w : Requester) : (s.taken w).fwd = s.fwd := by
  obtain ⟨h, q, e⟩ := s.taken_eq w; rw [e]
@[simp] theorem State.expireLease_hbms (s : State) (n : Nat) : (s.expireLease n).hbms = s.hbms := by
  unfold State.expireLease; dsimp only; split
  · rfl
  · rw [State.bumpObj, State.setObj_hbms, State.logModule_hbms, State.setSem_hbms]
@[simp] theorem State.expireLeases_hbms (s : State) : s.expireLeases.hbms = s.hbms := by
  unfold State.expireLeases
  generalize List.range 33 = l
  induction l generalizing s with
  | nil => rfl
  | cons n l ih => rw [List.foldl_cons, ih, State.expireLease_hbms]
@[simp] theorem State.taken_hbms (s : State) (w : Requester) : (s.taken w).hbms = s.hbms := by
  obtain ⟨h, q, e⟩ := s.taken_eq w; rw [e]
@[simp] theorem State.expireLease_frames (s : State) (n : Nat) : (s.expireLease n).frames = s.frames := by
  unfold State.expireLease; dsimp only; split
  · rfl
  · rw [State.bumpObj, State.setObj_frames, State.logModule_frames, State.setSem_frames]
@[simp] theorem State.expireLeases_frames (s : State) : s.expireLeases.frames = s.frames := by
  unfold State.expireLeases
  generalize List.range 33 = l
  induction l generalizing s with
  | nil => rfl
  | cons n l ih => rw [List.foldl_cons, ih, State.expireLease_frames]
@[simp] theorem State.taken_frames (s : State) (w : Requester) : (s.taken w).frames = s.frames := by
  obtain ⟨h, q, e⟩ := s.taken_eq w; rw [e]
@[simp] theorem State.expireLease_yards (s : State) (n : Nat) : (s.expireLease n).yards = s.yards := by
  unfold State.expireLease; dsimp only; split
  · rfl
  · rw [State.bumpObj, State.setObj_yards, State.logModule_yards, State.setSem_yards]
@[simp] theorem State.expireLeases_yards (s : State) : s.expireLeases.yards = s.yards := by
  unfold State.expireLeases
  generalize List.range 33 = l
  induction l generalizing s with
  | nil => rfl
  | cons n l ih => rw [List.foldl_cons, ih, State.expireLease_yards]
@[simp] theorem State.taken_yards (s : State) (w : Requester) : (s.taken w).yards = s.yards := by
  obtain ⟨h, q, e⟩ := s.taken_eq w; rw [e]
@[simp] theorem State.expireLease_parts (s : State) (n : Nat) : (s.expireLease n).parts = s.parts := by
  unfold State.expireLease; dsimp only; split
  · rfl
  · rw [State.bumpObj, State.setObj_parts, State.logModule_parts, State.setSem_parts]
@[simp] theorem State.expireLeases_parts (s : State) : s.expireLeases.parts = s.parts := by
  unfold State.expireLeases
  generalize List.range 33 = l
  induction l generalizing s with
  | nil => rfl
  | cons n l ih => rw [List.foldl_cons, ih, State.expireLease_parts]
@[simp] theorem State.taken_parts (s : State) (w : Requester) : (s.taken w).parts = s.parts := by
  obtain ⟨h, q, e⟩ := s.taken_eq w; rw [e]
@[simp] theorem State.expireLease_routes (s : State) (n : Nat) : (s.expireLease n).routes = s.routes := by
  unfold State.expireLease; dsimp only; split
  · rfl
  · rw [State.bumpObj, State.setObj_routes, State.logModule_routes, State.setSem_routes]
@[simp] theorem State.expireLeases_routes (s : State) : s.expireLeases.routes = s.routes := by
  unfold State.expireLeases
  generalize List.range 33 = l
  induction l generalizing s with
  | nil => rfl
  | cons n l ih => rw [List.foldl_cons, ih, State.expireLease_routes]
@[simp] theorem State.taken_routes (s : State) (w : Requester) : (s.taken w).routes = s.routes := by
  obtain ⟨h, q, e⟩ := s.taken_eq w; rw [e]
@[simp] theorem State.expireLease_ports (s : State) (n : Nat) : (s.expireLease n).ports = s.ports := by
  unfold State.expireLease; dsimp only; split
  · rfl
  · rw [State.bumpObj, State.setObj_ports, State.logModule_ports, State.setSem_ports]
@[simp] theorem State.expireLeases_ports (s : State) : s.expireLeases.ports = s.ports := by
  unfold State.expireLeases
  generalize List.range 33 = l
  induction l generalizing s with
  | nil => rfl
  | cons n l ih => rw [List.foldl_cons, ih, State.expireLease_ports]
@[simp] theorem State.expireLease_fabric (s : State) (n : Nat) : (s.expireLease n).fabric = s.fabric := by
  unfold State.expireLease; dsimp only; split
  · rfl
  · rw [State.bumpObj, State.setObj_fabric, State.logModule_fabric, State.setSem_fabric]
@[simp] theorem State.expireLeases_fabric (s : State) : s.expireLeases.fabric = s.fabric := by
  unfold State.expireLeases
  generalize List.range 33 = l
  induction l generalizing s with
  | nil => rfl
  | cons n l ih => rw [List.foldl_cons, ih, State.expireLease_fabric]
@[simp] theorem State.taken_fabric (s : State) (w : Requester) : (s.taken w).fabric = s.fabric := by
  obtain ⟨h, q, e⟩ := s.taken_eq w; rw [e]
@[simp] theorem State.expireLease_season (s : State) (n : Nat) : (s.expireLease n).season = s.season := by
  unfold State.expireLease; dsimp only; split
  · rfl
  · rw [State.bumpObj, State.setObj_season, State.logModule_season, State.setSem_season]
@[simp] theorem State.expireLeases_season (s : State) : s.expireLeases.season = s.season := by
  unfold State.expireLeases
  generalize List.range 33 = l
  induction l generalizing s with
  | nil => rfl
  | cons n l ih => rw [List.foldl_cons, ih, State.expireLease_season]
@[simp] theorem State.taken_season (s : State) (w : Requester) : (s.taken w).season = s.season := by
  obtain ⟨h, q, e⟩ := s.taken_eq w; rw [e]
@[simp] theorem State.expireLease_power (s : State) (n : Nat) : (s.expireLease n).power = s.power := by
  unfold State.expireLease; dsimp only; split
  · rfl
  · rw [State.bumpObj, State.setObj_power, State.logModule_power, State.setSem_power]
@[simp] theorem State.expireLeases_power (s : State) : s.expireLeases.power = s.power := by
  unfold State.expireLeases
  generalize List.range 33 = l
  induction l generalizing s with
  | nil => rfl
  | cons n l ih => rw [List.foldl_cons, ih, State.expireLease_power]
@[simp] theorem State.taken_power (s : State) (w : Requester) : (s.taken w).power = s.power := by
  obtain ⟨h, q, e⟩ := s.taken_eq w; rw [e]
@[simp] theorem State.expireLease_perfs (s : State) (n : Nat) : (s.expireLease n).perfs = s.perfs := by
  unfold State.expireLease; dsimp only; split
  · rfl
  · rw [State.bumpObj, State.setObj_perfs, State.logModule_perfs, State.setSem_perfs]
@[simp] theorem State.expireLeases_perfs (s : State) : s.expireLeases.perfs = s.perfs := by
  unfold State.expireLeases
  generalize List.range 33 = l
  induction l generalizing s with
  | nil => rfl
  | cons n l ih => rw [List.foldl_cons, ih, State.expireLease_perfs]
@[simp] theorem State.taken_perfs (s : State) (w : Requester) : (s.taken w).perfs = s.perfs := by
  obtain ⟨h, q, e⟩ := s.taken_eq w; rw [e]
@[simp] theorem State.expireLease_flash (s : State) (n : Nat) : (s.expireLease n).flash = s.flash := by
  unfold State.expireLease; dsimp only; split
  · rfl
  · rw [State.bumpObj, State.setObj_flash, State.logModule_flash, State.setSem_flash]
@[simp] theorem State.expireLeases_flash (s : State) : s.expireLeases.flash = s.flash := by
  unfold State.expireLeases
  generalize List.range 33 = l
  induction l generalizing s with
  | nil => rfl
  | cons n l ih => rw [List.foldl_cons, ih, State.expireLease_flash]
@[simp] theorem State.taken_flash (s : State) (w : Requester) : (s.taken w).flash = s.flash := by
  obtain ⟨h, q, e⟩ := s.taken_eq w; rw [e]
@[simp] theorem State.expireLease_clock (s : State) (n : Nat) : (s.expireLease n).clock = s.clock := by
  unfold State.expireLease; dsimp only; split
  · rfl
  · rw [State.bumpObj, State.setObj_clock, State.logModule_clock, State.setSem_clock]
@[simp] theorem State.expireLeases_clock (s : State) : s.expireLeases.clock = s.clock := by
  unfold State.expireLeases
  generalize List.range 33 = l
  induction l generalizing s with
  | nil => rfl
  | cons n l ih => rw [List.foldl_cons, ih, State.expireLease_clock]
@[simp] theorem State.taken_clock (s : State) (w : Requester) : (s.taken w).clock = s.clock := by
  obtain ⟨h, q, e⟩ := s.taken_eq w; rw [e]
@[simp] theorem State.expireLease_time (s : State) (n : Nat) : (s.expireLease n).time = s.time := by
  unfold State.expireLease; dsimp only; split
  · rfl
  · rw [State.bumpObj, State.setObj_time, State.logModule_time, State.setSem_time]
@[simp] theorem State.expireLeases_time (s : State) : s.expireLeases.time = s.time := by
  unfold State.expireLeases
  generalize List.range 33 = l
  induction l generalizing s with
  | nil => rfl
  | cons n l ih => rw [List.foldl_cons, ih, State.expireLease_time]
@[simp] theorem State.taken_time (s : State) (w : Requester) : (s.taken w).time = s.time := by
  obtain ⟨h, q, e⟩ := s.taken_eq w; rw [e]
@[simp] theorem State.expireLease_ctr (s : State) (n : Nat) : (s.expireLease n).ctr = s.ctr := by
  unfold State.expireLease; dsimp only; split
  · rfl
  · rw [State.bumpObj, State.setObj_ctr, State.logModule_ctr, State.setSem_ctr]
@[simp] theorem State.expireLeases_ctr (s : State) : s.expireLeases.ctr = s.ctr := by
  unfold State.expireLeases
  generalize List.range 33 = l
  induction l generalizing s with
  | nil => rfl
  | cons n l ih => rw [List.foldl_cons, ih, State.expireLease_ctr]
@[simp] theorem State.taken_ctr (s : State) (w : Requester) : (s.taken w).ctr = s.ctr := by
  obtain ⟨h, q, e⟩ := s.taken_eq w; rw [e]
@[simp] theorem State.expireLease_free (s : State) (n : Nat) : (s.expireLease n).free = s.free := by
  unfold State.expireLease; dsimp only; split
  · rfl
  · rw [State.bumpObj, State.setObj_free, State.logModule_free, State.setSem_free]
@[simp] theorem State.expireLeases_free (s : State) : s.expireLeases.free = s.free := by
  unfold State.expireLeases
  generalize List.range 33 = l
  induction l generalizing s with
  | nil => rfl
  | cons n l ih => rw [List.foldl_cons, ih, State.expireLease_free]
@[simp] theorem State.taken_free (s : State) (w : Requester) : (s.taken w).free = s.free := by
  obtain ⟨h, q, e⟩ := s.taken_eq w; rw [e]
@[simp] theorem State.expireLease_store (s : State) (n : Nat) : (s.expireLease n).host.store = s.host.store := by
  unfold State.expireLease; dsimp only; split
  · rfl
  · rw [State.bumpObj, State.setObj_host, State.logModule_host_store, State.setSem]
@[simp] theorem State.expireLeases_store (s : State) : s.expireLeases.host.store = s.host.store := by
  unfold State.expireLeases
  generalize List.range 33 = l
  induction l generalizing s with
  | nil => rfl
  | cons n l ih => rw [List.foldl_cons, ih, State.expireLease_store]
@[simp] theorem State.taken_store (s : State) (w : Requester) : (s.taken w).host.store = s.host.store := by
  obtain ⟨h, q, e⟩ := s.taken_eq w; rw [e]

/-- Whether a request is resent does not depend on the rotation or on leases that run out. -/
theorem State.resent_taken (s : State) (who : Requester) (m : List Byte) :
    (s.taken who).expireLeases.resent who m = s.resent who m := by
  unfold State.resent State.stored
  simp

end Sys2Proof.Machine
end

