-- ==== Sys2Proof/Laws/Memory.lean ====
section
/-!
SUPPORT. Memory: a read after a write, the bytes a write leaves alone, and that every memory operation keeps the canonical
form.
-/

namespace Sys2Proof.Machine

/-! ### One byte -/

/-- A read after the write of one byte. -/
@[simp] theorem State.byte_setByte (s : State) (k j : Nat) (v : Byte) :
    (s.setByte k v).byte j = if j = k then v else s.byte j := FMap.get_set memReset s.mem k j v

theorem State.wf_setByte (s : State) (k : Nat) (v : Byte) (h : Memory.wf s.mem = true) :
    Memory.wf (s.setByte k v).mem = true := FMap.wf_set memReset s.mem k v h

@[simp] theorem State.mem_setCheck (s : State) (n : Nat) (v : BitVec 288) : (s.setCheck n v).mem = s.mem := rfl

/-! ### Ranges -/

theorem State.wf_putBytes (bs : List Byte) :
    ∀ (s : State) (k : Nat), Memory.wf s.mem = true → Memory.wf (s.putBytes k bs).mem = true := by
  induction bs with
  | nil => exact fun _ _ h => h
  | cons b bs ih => exact fun s k h => ih _ _ (s.wf_setByte k b h)

/-- A byte outside the range written keeps its value. -/
theorem State.byte_putBytes_out (bs : List Byte) :
    ∀ (s : State) (k j : Nat), j < k ∨ k + bs.length ≤ j → (s.putBytes k bs).byte j = s.byte j := by
  induction bs with
  | nil => exact fun _ _ _ _ => rfl
  | cons b bs ih =>
    intro s k j h
    simp only [List.length_cons] at h
    rw [State.putBytes, ih _ _ _ (by omega), State.byte_setByte, if_neg (by omega)]

/-- What every step of a fold keeps, the fold keeps. -/
theorem keeps_foldl {α β : Type} {P : α → Prop} {f : α → β → α} (h : ∀ a b, P a → P (f a b)) :
    ∀ (l : List β) (a : α), P a → P (l.foldl f a)
  | [], _, ha => ha
  | b :: l, a, ha => keeps_foldl h l _ (h a b ha)

/-! ### Error correction -/

@[simp] theorem State.mem_countPoison (s : State) (k : Nat) : (s.countPoison k).mem = s.mem := by
  simp [State.countPoison, State.bumpStack, State.bumpObj]

@[simp] theorem State.mem_countCe (s : State) (k : Nat) : (s.countCe k).mem = s.mem := by
  unfold State.countCe
  dsimp only
  split <;> simp [State.bumpStack, State.bumpObj]

@[simp] theorem State.mem_poisonNew (s : State) (key : Nat) (data : List Byte) :
    (s.poisonNew key data).mem = (s.putBytes key data).mem := by
  unfold State.poisonNew
  dsimp only
  split <;> simp [State.bumpStack, State.bumpObj, State.modHbm]

/-- Decoding a sector writes that sector at most. -/
theorem State.wf_decodeSector (s : State) (key : Nat) (errs : List (Nat × Byte)) (h : Memory.wf s.mem = true) :
    Memory.wf (s.decodeSector key errs).1.mem = true := by
  have hd : Memory.wf s.draw.mem = true := h
  unfold State.decodeSector
  dsimp only
  split
  · simpa using h
  · split
    · exact h
    · split
      · simpa using h
      · split
        · simpa using State.wf_putBytes _ _ _ hd
        · simpa using State.wf_putBytes _ _ _ hd

theorem State.wf_sense (s : State) (secs : List Nat) (h : Memory.wf s.mem = true) :
    Memory.wf (s.sense secs).1.mem = true := by
  unfold State.sense
  refine keeps_foldl (P := fun a : State × Bool => Memory.wf a.1.mem = true) ?_ secs (s, false) h
  exact fun a c ha => State.wf_decodeSector a.1 (32 * c) [] ha

/-! ### Keyed bytes -/

theorem State.wf_putKeyed (s : State) (kvs : List (Nat × Byte)) (h : Memory.wf s.mem = true) :
    Memory.wf (s.putKeyed kvs).mem = true := by
  refine keeps_foldl (P := fun s : State => Memory.wf s.mem = true) (fun s kv hs => s.wf_setByte _ _ hs) kvs _ ?_
  split <;> exact h

theorem State.wf_writeKeys (s : State) (kvs : List (Nat × Byte)) (h : Memory.wf s.mem = true) :
    Memory.wf (s.writeKeys kvs).1.mem = true := by
  have hd : ∀ k, Memory.wf (s.decodeSector k []).1.mem = true := fun k => s.wf_decodeSector k [] h
  unfold State.writeKeys
  split
  · exact h
  · dsimp only
    split
    · split
      · exact hd _
      · exact State.wf_putKeyed _ _ (hd _)
    · split
      · exact h
      · exact State.wf_putKeyed _ _ h

theorem State.wf_writeAll (s : State) (kvs : List (Nat × Byte)) (h : Memory.wf s.mem = true) :
    Memory.wf (s.writeAll kvs).1.mem = true := by
  unfold State.writeAll
  refine keeps_foldl (P := fun a : State × Bool => Memory.wf a.1.mem = true) ?_ (bySector kvs) (s, false) h
  exact fun a g ha => State.wf_writeKeys a.1 g ha

/-! ### Accesses that pass their engines -/

@[simp] theorem State.mem_passAll (s : State) (back : Bool) (ts : List Touch) : (s.passAll back ts).mem = s.mem := by
  unfold State.passAll
  exact keeps_foldl (P := fun a : State => a.mem = s.mem) (f := fun s t => s.pass back t) (fun _ _ ha => ha) ts s rfl

theorem State.wf_readThrough (s : State) (p : Nat) (ks : List Nat) (h : Memory.wf s.mem = true) :
    Memory.wf (s.readThrough p ks).1.mem = true := by
  simpa [State.readThrough] using s.wf_sense _ h

theorem State.wf_writeThrough (s : State) (p : Nat) (kvs : List (Nat × Byte)) (h : Memory.wf s.mem = true) :
    Memory.wf (s.writeThrough p kvs).1.mem = true := by
  simpa [State.writeThrough] using s.wf_writeAll _ h

theorem State.wf_poke (s : State) (p a : Nat) (bs : List Byte) (h : Memory.wf s.mem = true) :
    Memory.wf (s.poke p a bs).mem = true := by
  unfold State.poke
  split
  · exact h
  · exact s.wf_writeThrough _ _ h

theorem State.wf_wipe (s : State) (key n : Nat) (h : Memory.wf s.mem = true) : Memory.wf (s.wipe key n).mem = true :=
  FMap.wf_filter memReset _ s.mem h

/-- Memory after reset is in its canonical form. -/
theorem State.wf_reset : Memory.wf State.reset.mem = true := rfl

end Sys2Proof.Machine
end

