-- ==== Sys2Proof/Laws/Registers.lean ====
section
/-!
SUPPORT. The registers of a stall: what a read gives after each named write, and the one lemma for each shared operand form
(Machine/Operands.lean) that says what an instruction of that form does when the stall can run.
-/

namespace Sys2Proof.Machine

/-! ### Superseded results -/

theorem Stall.supersede_g (x : Stall) (r : Nat) : (x.supersede r).g = x.g := rfl
theorem Stall.supersede_v (x : Stall) (r : Nat) : (x.supersede r).v = x.v := rfl
theorem Stall.supersede_p (x : Stall) (r : Nat) : (x.supersede r).p = x.p := rfl

/-- Nothing outstanding goes to a register once it is superseded. -/
theorem Stall.supersede_waiting (x : Stall) (r : Nat) : (x.supersede r).waiting r = false := by
  have h1 : ∀ l : List Access, (l.map (fun a => if a.dst = some r then { a with dst := none, was := some (r, x.seq) } else a)).any
      (fun a => decide (a.dst = some r)) = false := by
    intro l
    induction l with
    | nil => rfl
    | cons a l ih => by_cases h : a.dst = some r <;> simp_all
  have h2 : ∀ l : List Wait, (l.map (fun w => if w.dst = some r then { w with dst := none, was := some (r, x.seq) } else w)).any
      (fun w => decide (w.dst = some r)) = false := by
    intro l
    induction l with
    | nil => rfl
    | cons a l ih => by_cases h : a.dst = some r <;> simp_all
  simp only [Stall.waiting, Stall.supersede, Stall.supersedeAt, h1, h2, Bool.or_self]

/-! ### Reads after writes -/

theorem Stall.getG_31 (x : Stall) : x.getG 31 = 0 := by simp [Stall.getG]

theorem Stall.getG_setG (x : Stall) (d i : BitVec 5) (v : BitVec 64) :
    (x.setG d v).getG i = if i = 31 then 0 else if i = d then v else x.getG i := by
  unfold Stall.getG Stall.setG Stall.putG
  by_cases hi : i = 31
  · rw [if_pos hi, if_pos hi]
  · rw [if_neg hi, if_neg hi, if_neg hi]
    by_cases he : i = d
    · subst he
      have hn : ¬ i.toNat = 31 := fun h => hi (BitVec.eq_of_toNat_eq h)
      rw [if_pos rfl, if_neg hn]
      exact FMap.get_set_same _ _ _ _
    · rw [if_neg he]
      split
      · rfl
      · exact FMap.get_set_ne _ _ _ (fun h => he (BitVec.eq_of_toNat_eq h))

theorem Stall.getV_setV (x : Stall) (d j : BitVec 5) (v : BitVec 1024) :
    (x.setV d v).getV j = if j = d then v else x.getV j := by
  by_cases he : j = d
  · subst he; simp [Stall.getV, Stall.setV, Stall.putV]
  · have hne : j.toNat ≠ d.toNat := fun h => he (BitVec.eq_of_toNat_eq h)
    simp [Stall.getV, Stall.setV, Stall.putV, he, FMap.get_set_ne _ _ _ hne, Stall.supersede, Stall.supersedeAt]

theorem Stall.getP_setP (x : Stall) (d i : Nat) (v : BitVec 128) :
    (x.setP d v).getP i = if i = 0 then BitVec.allOnes 128 else if i = d then v else x.getP i := by
  by_cases hi : i = 0
  · simp [Stall.getP, hi]
  · by_cases hd : d = 0
    · subst hd; simp [Stall.getP, Stall.setP, hi]
    · by_cases he : i = d
      · subst he; simp [Stall.getP, Stall.setP, hi]
      · simp [Stall.getP, Stall.setP, hi, hd, he, FMap.get_set_ne _ _ _ he]

/-! ### The frames of Safety.lean -/

/-- An instruction that only computes gd and status meets its frame. -/
theorem Stall.doG_gwrite (x : Stall) (d : BitVec 5) (r : GRes) : GWrite x (x.doG d r) d r.1 r.2 where
  reads i := by
    have h := x.getG_setG d i r.1
    simpa [Stall.doG, Stall.flag, Stall.advance, Stall.getG] using h
  free := by
    have h := x.supersede_waiting d.toNat
    by_cases hd : d.toNat = 31
    · simpa [Stall.doG, Stall.flag, Stall.advance, Stall.setG, Stall.putG, Stall.waiting, hd] using h
    · simpa [Stall.doG, Stall.flag, Stall.advance, Stall.setG, Stall.putG, Stall.waiting, hd] using h
  rest := by
    by_cases hd : d.toNat = 31 <;>
      simp [Stall.doG, Stall.flag, Stall.advance, Stall.setG, Stall.putG, hd, Stall.supersede, Stall.supersedeAt]

/-- A predicate write that goes on meets its frame. -/
theorem Stall.setP_pwrite (x : Stall) (d : Nat) (v : BitVec 128) : PWrite x ((x.setP d v).advance) d v where
  reads i := by simpa [Stall.advance, Stall.getP] using x.getP_setP d i v
  rest := by by_cases hd : d = 0 <;> simp [Stall.setP, hd, Stall.advance]

/-! ### Instructions that can run -/

/-- An instruction whose stall can run has the effect of its body. -/
theorem issue_run {s : State} {t p : Nat} {rs : List Nat} (h : s.canRun t p rs) (k : Nat → Stall → Out1) :
    issue t rs s k = k p (s.stall t) := by
  obtain ⟨ht, hr, hd⟩ := h
  simp [issue, Nat.not_le.mpr ht, hr, hd]

/-- An instruction is a fault for a stall that does not exist, leaves the state alone when the stall cannot run, and
otherwise has the effect of its body. -/
theorem issue_cases (t : Nat) (rs : List Nat) (s : State) (k : Nat → Stall → Out1) :
    (1024 ≤ t ∧ issue t rs s k = .fault .noSuchUnit) ∨ (t < 1024 ∧ issue t rs s k = .next s) ∨
      ∃ p, s.canRun t p rs ∧ issue t rs s k = k p (s.stall t) := by
  by_cases ht : 1024 ≤ t
  · exact .inl ⟨ht, by simp [issue, ht]⟩
  · have ht' := Nat.lt_of_not_le ht
    rcases hr : s.runner t with _ | p
    · exact .inr (.inl ⟨ht', by simp [issue, ht, hr]⟩)
    · by_cases hd : (s.stall t).ready rs = true
      · exact .inr (.inr ⟨p, ⟨ht', hr, hd⟩, by simp [issue, ht, hr, hd]⟩)
      · exact .inr (.inl ⟨ht', by simp [issue, ht, hr, hd]⟩)

/-- gd and status of an instruction that can run (R107). -/
theorem execG_run {s : State} {t p : Nat} {rs : List Nat} (d : BitVec 5) (f : Stall → GRes) (h : s.canRun t p rs) :
    Alters s t (execG t d rs f s) fun y => GWrite (s.stall t) y d (f (s.stall t)).1 (f (s.stall t)).2 :=
  ⟨_, by unfold execG; rw [issue_run h], Stall.doG_gwrite _ _ _⟩

/-- The registers an instruction reads may be fewer than those known to be ready. -/
theorem State.canRun.mono {s : State} {t p : Nat} {rs qs : List Nat} (h : s.canRun t p rs) (hq : ∀ r ∈ qs, r ∈ rs) :
    s.canRun t p qs := by
  refine ⟨h.1, h.2.1, ?_⟩
  have hr := h.2.2
  simp only [Stall.ready, List.all_eq_true] at hr ⊢
  exact fun r hqr => hr r (hq r hqr)

end Sys2Proof.Machine
end

