-- ==== Sys2Proof/Laws/Words.lean ====
section
/-!
SUPPORT. The fields of an encoded word read back, one lemma for each field of each format (R104).
-/

namespace Sys2Proof

/-- A field of `w` bits at place `k` of a number. -/
theorem field_read (hi x lo k w : Nat) (hx : x < 2 ^ w) (hlo : lo < 2 ^ k) :
    (hi * 2 ^ (k + w) + x * 2 ^ k + lo) / 2 ^ k % 2 ^ w = x := by
  have h : (hi * 2 ^ (k + w) + x * 2 ^ k + lo) / 2 ^ k = hi * 2 ^ w + x := by
    rw [show hi * 2 ^ (k + w) + x * 2 ^ k + lo = lo + 2 ^ k * (hi * 2 ^ w + x) by rw [pow_add]; ring,
      Nat.add_mul_div_left _ _ (by positivity), Nat.div_eq_of_lt hlo, Nat.zero_add]
  rw [h, Nat.add_comm, Nat.add_mul_mod_self_right, Nat.mod_eq_of_lt hx]

/-- The same for the field of a word. -/
theorem word_field (n hi x lo k w : Nat) (hn : n < 2 ^ 32) (he : n = hi * 2 ^ (k + w) + x * 2 ^ k + lo) (hx : x < 2 ^ w)
    (hlo : lo < 2 ^ k) : ((BitVec.ofNat 32 n).extractLsb' k w).toNat = x := by
  rw [BitVec.extractLsb'_toNat, BitVec.toNat_ofNat, Nat.mod_eq_of_lt hn, Nat.shiftRight_eq_div_pow, he,
    field_read _ _ _ _ _ hx hlo]

/-! Format R -/

@[simp] theorem encR_opcF (op : Nat) (hop : op < 128) (d a b : BitVec 5) (fn : Nat) (hf : fn < 1024) : opcF (encR op d a b fn) = op := by
  have hd := d.isLt
  have ha := a.isLt
  have hb := b.isLt
  refine word_field _ (0) (op) (d.toNat * 2 ^ 20 + a.toNat * 2 ^ 15 + b.toNat * 2 ^ 10 + fn) 25 7 ?_ ?_ ?_ ?_ <;> (try simp only [encHead]) <;> omega
@[simp] theorem encR_f20 (op : Nat) (hop : op < 128) (d a b : BitVec 5) (fn : Nat) (hf : fn < 1024) : f20 (encR op d a b fn) = d := by
  have hd := d.isLt
  have ha := a.isLt
  have hb := b.isLt
  apply BitVec.eq_of_toNat_eq
  refine word_field _ (op) (d.toNat) (a.toNat * 2 ^ 15 + b.toNat * 2 ^ 10 + fn) 20 5 ?_ ?_ ?_ ?_ <;> (try simp only [encHead]) <;> omega
@[simp] theorem encR_f15 (op : Nat) (hop : op < 128) (d a b : BitVec 5) (fn : Nat) (hf : fn < 1024) : f15 (encR op d a b fn) = a := by
  have hd := d.isLt
  have ha := a.isLt
  have hb := b.isLt
  apply BitVec.eq_of_toNat_eq
  refine word_field _ (op * 2 ^ 5 + d.toNat) (a.toNat) (b.toNat * 2 ^ 10 + fn) 15 5 ?_ ?_ ?_ ?_ <;> (try simp only [encHead]) <;> omega
@[simp] theorem encR_f10 (op : Nat) (hop : op < 128) (d a b : BitVec 5) (fn : Nat) (hf : fn < 1024) : f10 (encR op d a b fn) = b := by
  have hd := d.isLt
  have ha := a.isLt
  have hb := b.isLt
  apply BitVec.eq_of_toNat_eq
  refine word_field _ (op * 2 ^ 10 + d.toNat * 2 ^ 5 + a.toNat) (b.toNat) (fn) 10 5 ?_ ?_ ?_ ?_ <;> (try simp only [encHead]) <;> omega
@[simp] theorem encR_fnR (op : Nat) (hop : op < 128) (d a b : BitVec 5) (fn : Nat) (hf : fn < 1024) : fnR (encR op d a b fn) = fn := by
  have hd := d.isLt
  have ha := a.isLt
  have hb := b.isLt
  refine word_field _ (op * 2 ^ 15 + d.toNat * 2 ^ 10 + a.toNat * 2 ^ 5 + b.toNat) (fn) (0) 0 10 ?_ ?_ ?_ ?_ <;> (try simp only [encHead]) <;> omega

/-! Format I -/

@[simp] theorem encI_opcF (op : Nat) (hop : op < 128) (d a : BitVec 5) (imm : BitVec 15) : opcF (encI op d a imm) = op := by
  have hd := d.isLt
  have ha := a.isLt
  have himm := imm.isLt
  refine word_field _ (0) (op) (d.toNat * 2 ^ 20 + a.toNat * 2 ^ 15 + imm.toNat) 25 7 ?_ ?_ ?_ ?_ <;> (try simp only [encHead]) <;> omega
@[simp] theorem encI_f20 (op : Nat) (hop : op < 128) (d a : BitVec 5) (imm : BitVec 15) : f20 (encI op d a imm) = d := by
  have hd := d.isLt
  have ha := a.isLt
  have himm := imm.isLt
  apply BitVec.eq_of_toNat_eq
  refine word_field _ (op) (d.toNat) (a.toNat * 2 ^ 15 + imm.toNat) 20 5 ?_ ?_ ?_ ?_ <;> (try simp only [encHead]) <;> omega
@[simp] theorem encI_f15 (op : Nat) (hop : op < 128) (d a : BitVec 5) (imm : BitVec 15) : f15 (encI op d a imm) = a := by
  have hd := d.isLt
  have ha := a.isLt
  have himm := imm.isLt
  apply BitVec.eq_of_toNat_eq
  refine word_field _ (op * 2 ^ 5 + d.toNat) (a.toNat) (imm.toNat) 15 5 ?_ ?_ ?_ ?_ <;> (try simp only [encHead]) <;> omega
@[simp] theorem encI_immF (op : Nat) (hop : op < 128) (d a : BitVec 5) (imm : BitVec 15) : immF (encI op d a imm) = imm := by
  have hd := d.isLt
  have ha := a.isLt
  have himm := imm.isLt
  apply BitVec.eq_of_toNat_eq
  refine word_field _ (op * 2 ^ 10 + d.toNat * 2 ^ 5 + a.toNat) (imm.toNat) (0) 0 15 ?_ ?_ ?_ ?_ <;> (try simp only [encHead]) <;> omega

/-! Format J -/

@[simp] theorem encJ_opcF (op : Nat) (hop : op < 128) (d : BitVec 5) (off : BitVec 20) : opcF (encJ op d off) = op := by
  have hd := d.isLt
  have hoff := off.isLt
  refine word_field _ (0) (op) (d.toNat * 2 ^ 20 + off.toNat) 25 7 ?_ ?_ ?_ ?_ <;> (try simp only [encHead]) <;> omega
@[simp] theorem encJ_f20 (op : Nat) (hop : op < 128) (d : BitVec 5) (off : BitVec 20) : f20 (encJ op d off) = d := by
  have hd := d.isLt
  have hoff := off.isLt
  apply BitVec.eq_of_toNat_eq
  refine word_field _ (op) (d.toNat) (off.toNat) 20 5 ?_ ?_ ?_ ?_ <;> (try simp only [encHead]) <;> omega
@[simp] theorem encJ_offF (op : Nat) (hop : op < 128) (d : BitVec 5) (off : BitVec 20) : offF (encJ op d off) = off := by
  have hd := d.isLt
  have hoff := off.isLt
  apply BitVec.eq_of_toNat_eq
  refine word_field _ (op * 2 ^ 5 + d.toNat) (off.toNat) (0) 0 20 ?_ ?_ ?_ ?_ <;> (try simp only [encHead]) <;> omega

/-! Format X -/

@[simp] theorem encX_opcF (op : Nat) (hop : op < 128) (d a b : BitVec 5) (p et : BitVec 3) (fn : BitVec 4) : opcF (encX op d a b p et fn) = op := by
  have hd := d.isLt
  have ha := a.isLt
  have hb := b.isLt
  have hp := p.isLt
  have het := et.isLt
  have hfn := fn.isLt
  refine word_field _ (0) (op) (d.toNat * 2 ^ 20 + a.toNat * 2 ^ 15 + b.toNat * 2 ^ 10 + p.toNat * 2 ^ 7 + et.toNat * 2 ^ 4 + fn.toNat) 25 7 ?_ ?_ ?_ ?_ <;> (try simp only [encHead]) <;> omega
@[simp] theorem encX_f20 (op : Nat) (hop : op < 128) (d a b : BitVec 5) (p et : BitVec 3) (fn : BitVec 4) : f20 (encX op d a b p et fn) = d := by
  have hd := d.isLt
  have ha := a.isLt
  have hb := b.isLt
  have hp := p.isLt
  have het := et.isLt
  have hfn := fn.isLt
  apply BitVec.eq_of_toNat_eq
  refine word_field _ (op) (d.toNat) (a.toNat * 2 ^ 15 + b.toNat * 2 ^ 10 + p.toNat * 2 ^ 7 + et.toNat * 2 ^ 4 + fn.toNat) 20 5 ?_ ?_ ?_ ?_ <;> (try simp only [encHead]) <;> omega
@[simp] theorem encX_f15 (op : Nat) (hop : op < 128) (d a b : BitVec 5) (p et : BitVec 3) (fn : BitVec 4) : f15 (encX op d a b p et fn) = a := by
  have hd := d.isLt
  have ha := a.isLt
  have hb := b.isLt
  have hp := p.isLt
  have het := et.isLt
  have hfn := fn.isLt
  apply BitVec.eq_of_toNat_eq
  refine word_field _ (op * 2 ^ 5 + d.toNat) (a.toNat) (b.toNat * 2 ^ 10 + p.toNat * 2 ^ 7 + et.toNat * 2 ^ 4 + fn.toNat) 15 5 ?_ ?_ ?_ ?_ <;> (try simp only [encHead]) <;> omega
@[simp] theorem encX_f10 (op : Nat) (hop : op < 128) (d a b : BitVec 5) (p et : BitVec 3) (fn : BitVec 4) : f10 (encX op d a b p et fn) = b := by
  have hd := d.isLt
  have ha := a.isLt
  have hb := b.isLt
  have hp := p.isLt
  have het := et.isLt
  have hfn := fn.isLt
  apply BitVec.eq_of_toNat_eq
  refine word_field _ (op * 2 ^ 10 + d.toNat * 2 ^ 5 + a.toNat) (b.toNat) (p.toNat * 2 ^ 7 + et.toNat * 2 ^ 4 + fn.toNat) 10 5 ?_ ?_ ?_ ?_ <;> (try simp only [encHead]) <;> omega
@[simp] theorem encX_pF (op : Nat) (hop : op < 128) (d a b : BitVec 5) (p et : BitVec 3) (fn : BitVec 4) : pF (encX op d a b p et fn) = p := by
  have hd := d.isLt
  have ha := a.isLt
  have hb := b.isLt
  have hp := p.isLt
  have het := et.isLt
  have hfn := fn.isLt
  apply BitVec.eq_of_toNat_eq
  refine word_field _ (op * 2 ^ 15 + d.toNat * 2 ^ 10 + a.toNat * 2 ^ 5 + b.toNat) (p.toNat) (et.toNat * 2 ^ 4 + fn.toNat) 7 3 ?_ ?_ ?_ ?_ <;> (try simp only [encHead]) <;> omega
@[simp] theorem encX_etF (op : Nat) (hop : op < 128) (d a b : BitVec 5) (p et : BitVec 3) (fn : BitVec 4) : etF (encX op d a b p et fn) = et := by
  have hd := d.isLt
  have ha := a.isLt
  have hb := b.isLt
  have hp := p.isLt
  have het := et.isLt
  have hfn := fn.isLt
  apply BitVec.eq_of_toNat_eq
  refine word_field _ (op * 2 ^ 18 + d.toNat * 2 ^ 13 + a.toNat * 2 ^ 8 + b.toNat * 2 ^ 3 + p.toNat) (et.toNat) (fn.toNat) 4 3 ?_ ?_ ?_ ?_ <;> (try simp only [encHead]) <;> omega
@[simp] theorem encX_fnV (op : Nat) (hop : op < 128) (d a b : BitVec 5) (p et : BitVec 3) (fn : BitVec 4) : fnV (encX op d a b p et fn) = fn := by
  have hd := d.isLt
  have ha := a.isLt
  have hb := b.isLt
  have hp := p.isLt
  have het := et.isLt
  have hfn := fn.isLt
  apply BitVec.eq_of_toNat_eq
  refine word_field _ (op * 2 ^ 21 + d.toNat * 2 ^ 16 + a.toNat * 2 ^ 11 + b.toNat * 2 ^ 6 + p.toNat * 2 ^ 3 + et.toNat) (fn.toNat) (0) 0 4 ?_ ?_ ?_ ?_ <;> (try simp only [encHead]) <;> omega

/-! Format W -/

@[simp] theorem encW_opcF (op : Nat) (hop : op < 128) (d a b c : BitVec 5) (p : BitVec 3) (ft : BitVec 2) : opcF (encW op d a b c p ft) = op := by
  have hd := d.isLt
  have ha := a.isLt
  have hb := b.isLt
  have hc := c.isLt
  have hp := p.isLt
  have hft := ft.isLt
  refine word_field _ (0) (op) (d.toNat * 2 ^ 20 + a.toNat * 2 ^ 15 + b.toNat * 2 ^ 10 + c.toNat * 2 ^ 5 + p.toNat * 2 ^ 2 + ft.toNat) 25 7 ?_ ?_ ?_ ?_ <;> (try simp only [encHead]) <;> omega
@[simp] theorem encW_f20 (op : Nat) (hop : op < 128) (d a b c : BitVec 5) (p : BitVec 3) (ft : BitVec 2) : f20 (encW op d a b c p ft) = d := by
  have hd := d.isLt
  have ha := a.isLt
  have hb := b.isLt
  have hc := c.isLt
  have hp := p.isLt
  have hft := ft.isLt
  apply BitVec.eq_of_toNat_eq
  refine word_field _ (op) (d.toNat) (a.toNat * 2 ^ 15 + b.toNat * 2 ^ 10 + c.toNat * 2 ^ 5 + p.toNat * 2 ^ 2 + ft.toNat) 20 5 ?_ ?_ ?_ ?_ <;> (try simp only [encHead]) <;> omega
@[simp] theorem encW_f15 (op : Nat) (hop : op < 128) (d a b c : BitVec 5) (p : BitVec 3) (ft : BitVec 2) : f15 (encW op d a b c p ft) = a := by
  have hd := d.isLt
  have ha := a.isLt
  have hb := b.isLt
  have hc := c.isLt
  have hp := p.isLt
  have hft := ft.isLt
  apply BitVec.eq_of_toNat_eq
  refine word_field _ (op * 2 ^ 5 + d.toNat) (a.toNat) (b.toNat * 2 ^ 10 + c.toNat * 2 ^ 5 + p.toNat * 2 ^ 2 + ft.toNat) 15 5 ?_ ?_ ?_ ?_ <;> (try simp only [encHead]) <;> omega
@[simp] theorem encW_f10 (op : Nat) (hop : op < 128) (d a b c : BitVec 5) (p : BitVec 3) (ft : BitVec 2) : f10 (encW op d a b c p ft) = b := by
  have hd := d.isLt
  have ha := a.isLt
  have hb := b.isLt
  have hc := c.isLt
  have hp := p.isLt
  have hft := ft.isLt
  apply BitVec.eq_of_toNat_eq
  refine word_field _ (op * 2 ^ 10 + d.toNat * 2 ^ 5 + a.toNat) (b.toNat) (c.toNat * 2 ^ 5 + p.toNat * 2 ^ 2 + ft.toNat) 10 5 ?_ ?_ ?_ ?_ <;> (try simp only [encHead]) <;> omega
@[simp] theorem encW_f5 (op : Nat) (hop : op < 128) (d a b c : BitVec 5) (p : BitVec 3) (ft : BitVec 2) : f5 (encW op d a b c p ft) = c := by
  have hd := d.isLt
  have ha := a.isLt
  have hb := b.isLt
  have hc := c.isLt
  have hp := p.isLt
  have hft := ft.isLt
  apply BitVec.eq_of_toNat_eq
  refine word_field _ (op * 2 ^ 15 + d.toNat * 2 ^ 10 + a.toNat * 2 ^ 5 + b.toNat) (c.toNat) (p.toNat * 2 ^ 2 + ft.toNat) 5 5 ?_ ?_ ?_ ?_ <;> (try simp only [encHead]) <;> omega
@[simp] theorem encW_pW (op : Nat) (hop : op < 128) (d a b c : BitVec 5) (p : BitVec 3) (ft : BitVec 2) : pW (encW op d a b c p ft) = p := by
  have hd := d.isLt
  have ha := a.isLt
  have hb := b.isLt
  have hc := c.isLt
  have hp := p.isLt
  have hft := ft.isLt
  apply BitVec.eq_of_toNat_eq
  refine word_field _ (op * 2 ^ 20 + d.toNat * 2 ^ 15 + a.toNat * 2 ^ 10 + b.toNat * 2 ^ 5 + c.toNat) (p.toNat) (ft.toNat) 2 3 ?_ ?_ ?_ ?_ <;> (try simp only [encHead]) <;> omega
@[simp] theorem encW_ftF (op : Nat) (hop : op < 128) (d a b c : BitVec 5) (p : BitVec 3) (ft : BitVec 2) : ftF (encW op d a b c p ft) = ft := by
  have hd := d.isLt
  have ha := a.isLt
  have hb := b.isLt
  have hc := c.isLt
  have hp := p.isLt
  have hft := ft.isLt
  apply BitVec.eq_of_toNat_eq
  refine word_field _ (op * 2 ^ 23 + d.toNat * 2 ^ 18 + a.toNat * 2 ^ 13 + b.toNat * 2 ^ 8 + c.toNat * 2 ^ 3 + p.toNat) (ft.toNat) (0) 0 2 ?_ ?_ ?_ ?_ <;> (try simp only [encHead]) <;> omega

/-! Format U -/

@[simp] theorem encU_opcF (op : Nat) (hop : op < 128) (d a b c fn : BitVec 5) : opcF (encU op d a b c fn) = op := by
  have hd := d.isLt
  have ha := a.isLt
  have hb := b.isLt
  have hc := c.isLt
  have hfn := fn.isLt
  refine word_field _ (0) (op) (d.toNat * 2 ^ 20 + a.toNat * 2 ^ 15 + b.toNat * 2 ^ 10 + c.toNat * 2 ^ 5 + fn.toNat) 25 7 ?_ ?_ ?_ ?_ <;> (try simp only [encHead]) <;> omega
@[simp] theorem encU_f20 (op : Nat) (hop : op < 128) (d a b c fn : BitVec 5) : f20 (encU op d a b c fn) = d := by
  have hd := d.isLt
  have ha := a.isLt
  have hb := b.isLt
  have hc := c.isLt
  have hfn := fn.isLt
  apply BitVec.eq_of_toNat_eq
  refine word_field _ (op) (d.toNat) (a.toNat * 2 ^ 15 + b.toNat * 2 ^ 10 + c.toNat * 2 ^ 5 + fn.toNat) 20 5 ?_ ?_ ?_ ?_ <;> (try simp only [encHead]) <;> omega
@[simp] theorem encU_f15 (op : Nat) (hop : op < 128) (d a b c fn : BitVec 5) : f15 (encU op d a b c fn) = a := by
  have hd := d.isLt
  have ha := a.isLt
  have hb := b.isLt
  have hc := c.isLt
  have hfn := fn.isLt
  apply BitVec.eq_of_toNat_eq
  refine word_field _ (op * 2 ^ 5 + d.toNat) (a.toNat) (b.toNat * 2 ^ 10 + c.toNat * 2 ^ 5 + fn.toNat) 15 5 ?_ ?_ ?_ ?_ <;> (try simp only [encHead]) <;> omega
@[simp] theorem encU_f10 (op : Nat) (hop : op < 128) (d a b c fn : BitVec 5) : f10 (encU op d a b c fn) = b := by
  have hd := d.isLt
  have ha := a.isLt
  have hb := b.isLt
  have hc := c.isLt
  have hfn := fn.isLt
  apply BitVec.eq_of_toNat_eq
  refine word_field _ (op * 2 ^ 10 + d.toNat * 2 ^ 5 + a.toNat) (b.toNat) (c.toNat * 2 ^ 5 + fn.toNat) 10 5 ?_ ?_ ?_ ?_ <;> (try simp only [encHead]) <;> omega
@[simp] theorem encU_f5 (op : Nat) (hop : op < 128) (d a b c fn : BitVec 5) : f5 (encU op d a b c fn) = c := by
  have hd := d.isLt
  have ha := a.isLt
  have hb := b.isLt
  have hc := c.isLt
  have hfn := fn.isLt
  apply BitVec.eq_of_toNat_eq
  refine word_field _ (op * 2 ^ 15 + d.toNat * 2 ^ 10 + a.toNat * 2 ^ 5 + b.toNat) (c.toNat) (fn.toNat) 5 5 ?_ ?_ ?_ ?_ <;> (try simp only [encHead]) <;> omega
@[simp] theorem encU_f0 (op : Nat) (hop : op < 128) (d a b c fn : BitVec 5) : f0 (encU op d a b c fn) = fn := by
  have hd := d.isLt
  have ha := a.isLt
  have hb := b.isLt
  have hc := c.isLt
  have hfn := fn.isLt
  apply BitVec.eq_of_toNat_eq
  refine word_field _ (op * 2 ^ 20 + d.toNat * 2 ^ 15 + a.toNat * 2 ^ 10 + b.toNat * 2 ^ 5 + c.toNat) (fn.toNat) (0) 0 5 ?_ ?_ ?_ ?_ <;> (try simp only [encHead]) <;> omega

end Sys2Proof
end

