-- ==== Sys2Proof/Tests/Slice0.lean ====
section
/-!
SUPPORT. The model's own tests: ill-formed terms that the checks refuse, words of the spec's encodings, single steps with
results from the spec, and for each statement a state and operands that meet its hypotheses.
-/

set_option Elab.async false

namespace Sys2Proof.Tests

open Sys2Proof.Machine

/-! ### Small states -/

/-- A module in Summer, a second after power good, whose partition 0 runs on shed 0, with the host port up. -/
def base : State :=
  { State.reset with
    season := { State.reset.season with phase := .summer },
    flash := { State.reset.flash with booted := true },
    host := { State.reset.host with perst := false, linkUp := true, mgmtUp := true },
    parts := [(0, { Part.reset with phase := .running, sheds := 1 })],
    clock := 1000000000, time := 1000000000 }

/-- A stall that runs. -/
def runner : Stall := { Stall.reset with mode := .running }

/-- `base` with stall 0 as given. -/
def withStall (x : Stall) : State := { base with stalls := [(0, x)] }
/-- `base` with a running stall 0 whose g1 and g2 are `a` and `b`. -/
def withG (a b : BitVec 64) : State := withStall { runner with g := [(1, a), (2, b)] }
/-- `base` with shed 0 as given. -/
def withShed (x : Shed) : State := { base with sheds := [(0, x)] }
/-- `base` with partition 0 as given. -/
def withPart (x : Part) : State := { base with parts := [(0, x)] }
/-- `base` with these objects. -/
def withObjs (o : FMap Nat) : State := { base with objs := o }

/-- What a step answers, read from its next state; `d` when there is none. -/
def after {α : Type} (o : Out1) (d : α) (f : State → α) : α := match o with | .next t => f t | _ => d

/-- What holds of a map's default and of all its entries holds of every value read. -/
theorem get_all {α : Type} (q : α → Bool) (d : Nat → α) (hd : ∀ k, q (d k) = true) :
    ∀ (m : FMap α), m.all (fun e => q e.2) = true → ∀ k, q (FMap.get d m k) = true
  | [], _, k => hd k
  | (i, x) :: m, h, k => by
    simp only [List.all_cons, Bool.and_eq_true] at h
    unfold FMap.get
    split
    · exact h.1
    · exact get_all q d hd m h.2 k

/-- A stack whose refreshes and recalibrations are as they were when its clock began. -/
def calm (x : Stack) : Bool := decide (x.debt = [] ∧ x.calAt = [] ∧ x.calDue = [])

/-- A module whose engines have served nothing, in its first second, keeps no access to HBM waiting. -/
theorem Idle (s : State) (he : s.engines = []) (hh : s.hbms.all (fun e => calm e.2) = true) (hc : s.clock < 1100000000) :
    s.idleHbm := by
  intro e
  have h : (s.hbm (e / 32)).debt = [] ∧ (s.hbm (e / 32)).calAt = [] ∧ (s.hbm (e / 32)).calDue = [] :=
    of_decide_eq_true (get_all calm (fun _ => Stack.reset) (fun _ => rfl) s.hbms hh (e / 32))
  have hg : s.engine e = Engine.reset := by unfold State.engine; rw [he]; rfl
  have hu (pc : Nat) : s.unforced e pc = true := by
    simp only [State.unforced, State.refreshForced, State.calForced, Stack.debtOf, Stack.calDueAt, h.1, h.2.1, h.2.2]
    simp [FMap.get]
    omega
  simp only [State.openEngine, State.frontSlot, State.scrubDue, State.backDue, hu, hg]
  rfl

/-- Where no symbol error is listed every sector is clean. -/
theorem Clean (s : State) (h : s.ecc = []) (k : Nat) : s.check k = 0 := by unfold State.check; rw [h]; rfl

theorem Runs (a b : BitVec 64) (rs : List Nat) : (withG a b).canRun 0 0 rs := by
  have ho : (withG a b).owner (0 / 32) = base.owner 0 := rfl
  have hr : (withG a b).partRuns 0 = base.partRuns 0 := rfl
  have h : (withG a b).runner 0 = some 0 := by
    unfold State.runner
    rw [ho, show base.owner 0 = some 0 from by decide +kernel]
    simp only [hr, show base.partRuns 0 = true from by decide +kernel]
    rfl
  refine ⟨by decide, h, ?_⟩
  show rs.all (fun r => !(Stall.waiting { runner with g := [(1, a), (2, b)] } r)) = true
  rw [List.all_eq_true]
  intro r _
  rfl

/-! ### Ill-formed commands are refused -/

theorem test_wf_units : (Instr.wf (.add 1023 3 1 2), Instr.wf (.add 1024 3 1 2)) = (true, false) := by decide
theorem test_wf_shed : (Instr.wf (.dispatch 31), Instr.wf (.dispatch 32)) = (true, false) := by decide
theorem test_wf_engine : (Instr.wf (.cacheCounterHalve 383), Instr.wf (.cacheCounterHalve 384)) = (true, false) := by decide
theorem test_wf_engine_part : (Instr.wf (.migrateCopy 383 31), Instr.wf (.migrateCopy 0 32)) = (true, false) := by decide
theorem test_wf_channel : (Instr.wf (.refresh 11 31 1 true), Instr.wf (.refresh 0 32 0 true), Instr.wf (.refresh 0 0 2 true),
    Instr.wf (.refresh 12 0 0 true)) = (true, false, false, false) := by decide
theorem test_wf_frame : (Instr.wf (.frameClearing 3 714), Instr.wf (.frameClearing 3 715)) = (true, false) := by decide
theorem test_wf_port : (Instr.wf (.flitSend 11), Instr.wf (.flitSend 12)) = (true, false) := by decide
theorem test_wf_packet : (Instr.wf (.pktWrite 12 0), Instr.wf (.pktWrite 13 0)) = (true, false) := by decide
theorem test_wf_plan : (Instr.wf (.collectiveStart 31 63), Instr.wf (.collectiveStart 0 64)) = (true, false) := by decide
theorem test_wf_partition : (Instr.wf (.verdict 31), Instr.wf (.verdict 32)) = (true, false) := by decide
theorem test_wf_semaphore : (Instr.wf (.leaseExpiry 32), Instr.wf (.leaseExpiry 33)) = (true, false) := by decide
theorem test_wf_function : (Instr.wf (.mboxGo 32), Instr.wf (.mboxGo 33)) = (true, false) := by decide
theorem test_wf_yard : (Instr.wf (.droop 3), Instr.wf (.droop 4)) = (true, false) := by decide
theorem test_wf_retry : (Instr.wf (.backgroundRetry true 11 true), Instr.wf (.backgroundRetry true 12 true),
    Instr.wf (.backgroundRetry false 31 true)) = (true, false, true) := by decide
theorem test_wf_counter : (Instr.wf (.counterWrap 1 15), Instr.wf (.counterWrap 1 16), Instr.wf (.counterWrap 2 0)) =
    (true, false, false) := by decide
theorem test_wf_shift : (Instr.wf (.shli 0 1 1 63), Instr.wf (.shli 0 1 1 64)) = (true, false) := by decide
theorem test_wf_special : (Instr.wf (.srd 0 1 10), Instr.wf (.srd 0 1 6), Instr.wf (.srd 0 1 11)) = (true, false, false) := by
  decide
theorem test_wf_aadd : (Instr.wf (.aadd 0 1 2 4), Instr.wf (.aadd 0 1 2 5)) = (true, false) := by decide
theorem test_wf_watch : (Instr.wf (.watch 0 1 2 3 4 1), Instr.wf (.watch 0 1 2 3 4 2)) = (true, false) := by decide
theorem test_wf_ucmd : (Instr.wf (.ucmd 0 1 2 3), Instr.wf (.ucmd 0 1 2 4)) = (true, false) := by decide
theorem test_wf_mx : (Instr.wf (.mxInstruction 0 1 2 5), Instr.wf (.mxInstruction 0 1 2 0)) = (true, false) := by decide
theorem test_wf_et : (Instr.wf (.vadd 0 1 2 3 0 6), Instr.wf (.vadd 0 1 2 3 0 7)) = (true, false) := by decide
theorem test_wf_integer : (Instr.wf (.vadds 0 1 2 3 0 3), Instr.wf (.vadds 0 1 2 3 0 2)) = (true, false) := by decide
theorem test_wf_float : (Instr.wf (.vdiv 0 1 2 3 0 2), Instr.wf (.vdiv 0 1 2 3 0 3)) = (true, false) := by decide
theorem test_wf_pred : (Instr.wf (.pand 0 7 7 7), Instr.wf (.pand 0 8 0 0)) = (true, false) := by decide
theorem test_wf_compare : (Instr.wf (.vcmpEq 0 7 1 2 0 6), Instr.wf (.vcmpEq 0 8 1 2 0 0),
    Instr.wf (.vcmpLtu 0 1 1 2 0 0)) = (true, false, false) := by decide
theorem test_wf_convert : (Instr.wf (.vcvt 0 1 2 1 0 0 1), Instr.wf (.vcvt 0 1 2 1 0 0 2), Instr.wf (.vcvt 0 1 2 7 0 0 0)) =
    (true, false, false) := by decide
theorem test_wf_ft : (Instr.wf (.vfma 0 1 2 3 4 0 2), Instr.wf (.vfma 0 1 2 3 4 0 3)) = (true, false) := by decide
theorem test_wf_random : (Instr.wf (.vrand 0 1 1), Instr.wf (.vrand 0 1 2)) = (true, false) := by decide
theorem test_wf_mxblock : (Instr.wf (.vcvtmx 0 1 2 3 5), Instr.wf (.vcvtmx 0 1 2 3 6)) = (true, false) := by decide

/-! ### Words of the spec's encodings (R104, R105) -/

/-- R105's examples: ADD g3, g1, g2 and VFMA v4, v1, v2, v3 under p2 on BF16. -/
theorem test_word_add : decodeStallWord 5 0x02308800 = some (.add 5 3 1 2) := by decide
theorem test_word_vfma : decodeStallWord 5 0x88408869 = some (.vfma 5 4 1 2 3 2 1) := by decide
/-- ADDI g2, g1, 5: OPC 0x02, D 2, A 1, IMM 5. -/
theorem test_word_addi : decodeStallWord 0 0x04208005 = some (.addi 0 2 1 5) := by decide
/-- EVDONE: OPC 0x31 and every other field zero. -/
theorem test_word_evdone : decodeStallWord 0 0x62000000 = some (.evdone 0) := by decide
theorem test_word_zero : decodeStallWord 0 0 = none := by decide
theorem test_word_fence_bits : decodeStallWord 0 0x50000010 = none := by decide
theorem test_word_fence : decodeStallWord 0 0x5000000F = some (.fence 0 15) := by decide

/-! ### Single steps with results from the spec -/

/-- R57: the sum of the greatest signed number and 1 wraps and sets OVF. -/
theorem test_add_wraps : after (exec (.add 0 3 1 2) (withG 0x7FFFFFFFFFFFFFFF 1)) (0, 0)
    (fun t => ((t.stall 0).getG 3, (t.stall 0).astat)) = (0x8000000000000000, fOVF) := by decide +kernel
/-- R57: signed division by zero gives -1 and sets DZ. -/
theorem test_div_zero : after (exec (.div 0 3 1 2) (withG 5 0)) (0, 0)
    (fun t => ((t.stall 0).getG 3, (t.stall 0).astat)) = (BitVec.allOnes 64, fDZ) := by decide +kernel
/-- A source that is also the destination is read before it is written. -/
theorem test_sub_self : after (exec (.sub 0 1 1 2) (withG 7 3)) 0 (fun t => (t.stall 0).getG 1) = 4 := by decide +kernel
/-- R108: 1.5 + 2.25 in FP32. -/
theorem test_fadd : after (exec (.fadd 0 3 1 2) (withG 0x3FC00000 0x40100000)) 0 (fun t => (t.stall 0).getG 3) =
    0x40700000 := by decide +kernel
/-- R99: g31 discards a write and the pc goes on. -/
theorem test_g31 : after (exec (.add 0 31 1 2) (withG 1 1)) (1, 0) (fun t => ((t.stall 0).getG 31, (t.stall 0).pc)) =
    (0, 4) := by decide +kernel
/-- R131: a misaligned word load stops the stall. -/
theorem test_align : after (exec (.ldW 0 3 1 0) (withG 2 0)) .running (fun t => (t.stall 0).mode) = .faulted := by
  decide +kernel
/-- A store is read back, least significant byte first. -/
theorem test_store : after (exec (.stW 0 2 1 0) (withG 8 0x11223344)) [] (fun t => t.getBytes (stallKey 0 8) 4) =
    [0x44, 0x33, 0x22, 0x11] := by decide +kernel
/-- R104: a taken branch goes 4 bytes back from pc 0, which is E_FETCH's address at the next step. -/
theorem test_branch : after (exec (.beq 0 1 2 0x7FFF) (withG 9 9)) 0 (fun t => (t.stall 0).pc) = 0xFFFFFFFC := by
  decide +kernel
/-- A command is taken from the front of the queue, first in, first out. -/
theorem test_queue : after (step { withG 1 2 with pending := [.add 0 3 1 2, .add 0 4 1 2] }) []
    (fun t => t.pending) = [.add 0 4 1 2] := by decide +kernel

/-! ### Witnesses: stalls -/

theorem witness_decode : Instr.wf (.vfma 1023 4 1 2 3 2 1) = true ∧
    encodeStall (.vfma 1023 4 1 2 3 2 1) = some (1023, 0x88408869) := by decide
/-- ScalarIntegerRules, ScalarImmediates, ScalarFloats, VectorFloats, VectorReductions, BranchesAndJumps and every other
statement about a stall that can run: all registers are ready. -/
theorem witness_runs : (withG 0 0).canRun 0 0 [0, 31, vreg 0, vreg 31] ∧ (63 : BitVec 15).toNat < 64 ∧
    64 ≤ (64 : BitVec 15).toNat := ⟨Runs 0 0 _, by decide, by decide⟩
theorem witness_rounding : (-1 : Int) < 0 := by decide
/-- VectorIntegerResults at the first and last integer type, with its greatest codes; VectorFused; VectorCompares. -/
theorem witness_elements : etInt 3 = true ∧ etInt 6 = true ∧ 2 ^ 64 - 1 < 2 ^ etWidth 6 ∧ etInt 2 = false ∧ (2 : Nat) ≤ 2 ∧
    fmtOf 2 ≠ none ∧ (7 : BitVec 5).toNat < 8 ∧ (6 : BitVec 3).toNat ≤ 6 := by decide
/-- VectorConvertsAndRandoms: a narrowing and a widening conversion, the last block format, both forms of VRAND. -/
theorem witness_convert : cvtForm 0 1 1 ≠ none ∧ cvtForm 1 0 0 ≠ none ∧ (5 : BitVec 5).toNat % 8 < 6 ∧
    (1 : BitVec 4).toNat ≤ 1 := by decide
/-- SpecialRegisters: the indices on each side of every clause. -/
theorem witness_special : (10 : BitVec 8).toNat = 10 ∧ (6 : BitVec 8).toNat ∉ [0, 1, 2, 3, 4, 5, 8, 9, 10] ∧
    (1 : BitVec 8).toNat ∉ [0, 2, 8, 9, 10] := by decide
/-- StallFaults: the last pc of local memory with a word no instruction has, and the first pc beyond. -/
theorem witness_faults : (withStall { runner with pc := 0x3FFFC }).owner 0 = some 0 ∧
    (withStall { runner with pc := 0x3FFFC }).partRuns 0 = true ∧ ((0x3FFFC : BitVec 32).toNat < 2 ^ 18) ∧
    decodeStallWord 0 0 = none ∧ 2 ^ 18 ≤ (0x40000 : BitVec 32).toNat ∧
    bit (base.obj (kStallFault 0)) 31 = false ∧ bit ((withObjs [(kStallFault 0, 2 ^ 31)]).obj (kStallFault 0)) 31 = true := by
  decide +kernel
/-- LocalLoads and LocalStores: the last bytes of local memory. -/
theorem witness_local : let s := withG (2 ^ 18 - 128) 0
    (s.stall 0).acc = [] ∧ (s.stall 0).waits = [] ∧ ((s.stall 0).getG 1 + (127 : BitVec 15).signExtend 64).toNat = 2 ^ 18 - 1 ∧
    ((s.stall 0).getG 1 + (0 : BitVec 15).signExtend 64).toNat + 128 ≤ 2 ^ 18 ∧ (2 ^ 18 - 128) % 32 = 0 ∧
    s.poisoned (stallKey 0 (2 ^ 18 - 128)) = false := by decide +kernel
/-- AccessChecks: the first address beyond local memory, and a misaligned one within it. -/
theorem witness_checks : (withG (2 ^ 18) 0).mapped 0 (some 0) (2 ^ 18) 4 = false ∧
    (withG 2 0).mapped 0 (some 0) 2 4 = true ∧ 2 % 4 ≠ 0 := by decide +kernel
/-- RemoteAccessesAndAtomics: the loft of shed 0, with no tag and with all 128 held. -/
theorem witness_remote : let s := withG (2 ^ 32) 0
    2 ^ 18 ≤ ((s.stall 0).getG 1 + (0 : BitVec 15).signExtend 64).toNat ∧ s.mapped 0 (some 0) (2 ^ 32) 8 = true ∧
    (∀ i, i < 8 → s.phys 0 (some 0) (2 ^ 32 + i) ≠ some (stallKey 0 ((2 ^ 32 + i) % 2 ^ 18))) ∧
    (s.stall 0).tags 0 < 128 ∧ 128 ≤ ((withStall { runner with descs := 128 }).stall 0).tags 0 ∧
    aaddSize 4 = some 8 ∧ s.checkAccess 0 0 (2 ^ 32) 8 8 = 0 := by decide +kernel

/-- An access of one part. -/
def oneAccess (k : AccKind) (fmt phys len : Nat) (stage : Stage) : Access :=
  { seq := 0, kind := k, dst := some 3, signed := true, size := len, addr := 0,
    parts := [{ phys := phys, len := len, off := 0, stage := stage, data := [] }], value := 1, mask := BitVec.allOnes 128,
    fmt := fmt, expect := 0, poison := false, pc := 0 }

/-- AtomicAtHome: an AADD and an ACAS in the loft. -/
theorem witness_atomic : let a := oneAccess .aadd 4 (loftKey 0 0) 8 .issued
    let b := oneAccess .acas 0 (loftKey 0 0) 8 .issued
    let s := withStall { runner with acc := [a] }
    (s.stall 0).acc[0]? = some a ∧ a.parts[0]? ≠ none ∧
    (∀ q ∈ a.parts, q.open = true ∧ (s.stall 0).mayPerform a q = true ∧ isHbm q.phys = false ∧ s.poisoned q.phys = false) ∧
    a.kind = .aadd ∧ a.fmt = 4 ∧ b.kind = .acas := by decide +kernel
/-- AccessCompletes: a load all of whose parts are performed. -/
theorem witness_completes : let a := oneAccess .load 0 (loftKey 0 0) 8 .done
    ((withStall { runner with acc := [a] }).stall 0).acc[0]? = some a ∧ a.poison = false ∧
    (∀ q ∈ a.parts, q.open = false) ∧ a.dst = some (3 : BitVec 5).toNat := by decide +kernel
/-- AccessCompletes: a load that met poison in a stall that runs, with its registers as they were (R132). -/
theorem witness_poison : let a := { oneAccess .load 0 (loftKey 0 0) 8 .done with
        poison := true, pc := 8, ctx := { Ctx.empty with g := [(4, 7)] } }
    let s := withStall { runner with acc := [a], pc := 16 }
    a.isLoad = true ∧ (s.stall 0).mode ≠ .faulted ∧ (∀ q ∈ a.parts, q.open = false) ∧
    bit (s.obj (kStallFault 0)) 31 = false ∧
    after (exec (.loadValueReturn 0 0) s) (0, 0) (fun t => ((t.stall 0).pc, (t.stall 0).getG 4)) = (8, 7) := by decide +kernel
/-- FencesAndControl: nothing outstanding, a load, a store; an empty and a full control issue queue. -/
theorem witness_fences : let l := oneAccess .load 0 (loftKey 0 0) 8 .issued
    let w := oneAccess .store 0 (loftKey 0 0) 8 .issued
    (runner.acc = [] ∧ (1 : BitVec 4).toNat % 4 ≠ 0 ∧ 4 ≤ (4 : BitVec 4).toNat) ∧ (∃ a ∈ [l], a.kind = AccKind.load) ∧
    (∃ a ∈ [w], a.kind = AccKind.store) ∧ (∀ a ∈ [l], a.kind = AccKind.load) ∧
    (withStall runner).inFlight 0 + 0 < 16 ∧ (1 : BitVec 5).toNat < 2 ∧ (5 : BitVec 5).toNat < 6 ∧
    uaKind (BitVec.ofNat 64 (uaMake 0 5 0)).toNat = 5 := by decide +kernel

/-! ### Witnesses: control mesh, queues, watches -/

/-- An operation on INDEX `i` of KIND `k` of partition 0. -/
def meshOp (op : MOp) (k i : Nat) (reply : Reply) : Mesh :=
  { op := op, target := BitVec.ofNat 64 (uaMake 0 k i), a2 := BitVec.ofNat 64 (uaMake 0 3 0), data := 0, n := 1, stall := 0,
    pc := 0, part := 0, dev := none, depth := 0, reply := reply }

/-- A queue of 16 enabled for consumer 0, with these events. -/
def queue16 (es : List Event) : Queue := { desc := BitVec.ofNat 128 (16 + 2 ^ 13), items := es }
def event0 : Event := { prio := 0, key := 0, kind := 1, h := 0, stamp := 0 }
def busyQueue : Queue := { desc := BitVec.ofNat 128 (16 + 2 ^ 13), items := List.replicate 16 event0 }

/-- ControlIssue: an earlier access outstanding; nothing outstanding with a flag operation, and with an EVPUSH to a plain
queue with room. -/
theorem witness_control : let l := oneAccess .load 0 (loftKey 0 0) 8 .issued
    let s := withShed { Shed.reset with queues := [(0, queue16 [])] }
    (∃ a ∈ [l], a.seq < 1) ∧ (∀ a ∈ ([] : List Access), 1 ≤ a.seq) ∧ s.ctlClear 0 = true ∧
    s.resolve 0 (uaMake 0 2 4095) MOp.set.fits = .plain 2 4095 ∧ s.resolve 0 (uaMake 0 3 0) [3] = .plain 3 0 ∧
    (let q := (s.shed 0).queue 0
     qEnable q = true ∧ qJoined q = false ∧ (s.shed 0).isPartner 0 = false ∧ q.items.length < qDepth q) ∧
    evReserved 0 = 0 ∧ evDelay 0 = 0 ∧ s.dueTo 0 (.queue 0) = false := by decide +kernel
/-- FlagOperations: SET, CLEAR and TEST of the last flag of shed 0, TEST with a stall that waits. -/
theorem witness_flags : let m := meshOp .test 2 4095 (.stall 0 5)
    let w : Wait := { seq := 5, dst := some 3, acquire := true }
    let s := { withStall { runner with waits := [w] } with mesh := [m] }
    s.mesh[0]? = some m ∧ m.kind = 2 ∧ s.leafTurn 0 m = true ∧
    (s.stall 0).waits.find? (fun w => decide (w.seq = 5)) = some w ∧ w.dst = some (3 : BitVec 5).toNat ∧
    (meshOp .set 2 0 .none).kind = 2 ∧ (meshOp .clear 2 0 .none).kind = 2 := by decide +kernel

/-- A watch of flag 7 of shed 0. -/
def watch7 : Watch :=
  { id := 1, wid := 9, part := 0, value := true, queue := BitVec.ofNat 64 (uaMake 0 3 0), event := 0, kind := .plain 7,
    fired := false, stall := 0 }

/-- FlagOperations: a SET of flag 7 with a watch that fires, one for the other value, one that has fired and one of
another flag; R139: the first is marked, and its event is on its way to its queue. -/
theorem witness_firing : let m := meshOp .set 2 7 .none
    let ws := [watch7, { watch7 with id := 2, value := false }, { watch7 with id := 3, fired := true },
      { watch7 with id := 4, kind := .plain 8 }]
    let s := { withShed { Shed.reset with watches := ws } with mesh := [m] }
    s.leafTurn 0 m = true ∧ m.op = .set ∧ (s.shed 0).watches = ws ∧ (∀ w ∈ ws, ∀ u ∈ ws, u.id = w.id → u = w) ∧
    s.resolve (watch7.part % 32) watch7.queue.toNat [3] = .plain 3 0 ∧
    after (exec (.flagSet 0) s) false (fun t =>
      decide ((t.shed 0).watches = { watch7 with fired := true } :: ws.drop 1 ∧ t.pushes.length = 1)) = true := by
  decide +kernel

/-- Watches: arming with a flag that has and that has not the value, with all slots held; cancelling a known and an
unknown identifier. -/
theorem witness_watches : let m := meshOp .watch 2 7 .none
    let c := { meshOp .cancel 2 7 (.stall 0 5) with a2 := 9 }
    let s := { base with mesh := [m] }
    let f := { withShed { Shed.reset with flags := [(7, true)] } with mesh := [m] }
    let full := withShed { Shed.reset with watches := List.replicate 2048 watch7 }
    let one := { withShed { Shed.reset with watches := [watch7] } with mesh := [c] }
    m.kind = 2 ∧ s.leafTurn 0 m = true ∧ (s.shed 0).watches.length < 2048 ∧ s.flag 7 = false ∧ f.flag 7 = true ∧
    f.resolve (partKey m.dev m.part % 32) m.a2.toNat [3] = .plain 3 0 ∧ 2048 ≤ (full.shed 0).watches.length ∧
    (s.wids.length < 2 ^ 64 - 1 ∧ ∀ w ∈ (f.shed 0).watches, w.id ≠ f.ctr) ∧
    one.allWatches = [(0, watch7)] ∧ c.a2 = watch7.wid ∧ c.a2 ≠ 0 ∧ (one.shed 0).watches = [watch7] ∧
    s.allWatches = [] ∧ s.fabric.homes = [] := by decide +kernel
/-- Watches: a WATCH whose stall waits for its identifier; a CANCEL of one watch among others, of one that has fired. -/
theorem witness_cancel : let w : Wait := { seq := 5, dst := some 3, acquire := false }
    let m := meshOp .watch 2 7 (.stall 0 5)
    let s := { withStall { runner with waits := [w] } with mesh := [m] }
    let c := { meshOp .cancel 2 0 (.stall 0 5) with a2 := 9 }
    let more := { withStall { runner with waits := [w] } with mesh := [c], sheds := [(0, { Shed.reset with
      watches := [watch7, { watch7 with id := 2, wid := 8 }] })] }
    let fired := { more with sheds := [(0, { Shed.reset with watches := [{ watch7 with fired := true }] })] }
    s.leafTurn 0 m = true ∧ (s.stall 0).waits.find? (fun w => decide (w.seq = 5)) = some w ∧ m.dev = none ∧
    more.leafTurn 0 c = true ∧ (0, watch7) ∈ more.allWatches ∧ watch7.wid = c.a2 ∧ watch7.part = c.part ∧
    (∀ e ∈ more.allWatches, e.2.wid = c.a2 ∨ e.2.id = watch7.id → e = (0, watch7)) ∧
    (∀ e ∈ more.allWatches, e.2.kind.up = none) ∧
    (∀ e ∈ fired.allWatches, e.2.wid = c.a2 → e.2.part = c.part → e.2.fired = true) ∧
    after (exec (.watchCancel 0) more) (0, 0) (fun t => ((t.stall 0).getG 3, (t.shed 0).watches.length)) = (1, 1) ∧
    after (exec (.watchCancel 0) fired) (1, 0) (fun t => ((t.stall 0).getG 3, (t.shed 0).watches.length)) = (0, 1) := by
  decide +kernel
/-- PenOperations: a pen of two flags, and a depth of 8. -/
theorem witness_pen : let m := meshOp .set 7 0 .none
    let s := { withShed { Shed.reset with pens := [(0, [BitVec.ofNat 64 (uaMake 0 2 1), BitVec.ofNat 64 (uaMake 0 2 2)])] }
      with mesh := [m] }
    m.toPen = true ∧ s.leafTurn 0 m = true ∧ m.depth < 8 ∧ s.penFits m.idx m.op = true ∧ m.op = .set ∧
    (s.penMembers m.idx).all (fun a => uaLocal a.toNat) = true ∧ s.resolveHere 0 (uaMake 0 2 1) [2] = .plain 2 1 ∧
    8 ≤ ({ m with depth := 8 } : Mesh).depth := by decide +kernel
/-- ReportsAndPushes: a top watch waiting for one and for two reports; a push to a queue with room and without, to a
mailbox with room and without; a delay entry that is due and one that is not. -/
theorem witness_reports : let w1 := { watch7 with kind := .top 0 1 }
    let m := { meshOp .report 2 7 .none with a2 := 1 }
    let s1 := { withShed { Shed.reset with watches := [w1] } with mesh := [m] }
    s1.watchById m.a2.toNat = some (0, w1) ∧ w1.fired = false ∧ s1.leafTurn 0 m = true ∧
    (let u : Push := { queue := 0, kind := 1, ev := 0, stall := 0, part := 0, reply := .none }
     (∀ v ∈ [u].take 0, v.queue ≠ u.queue) ∧ u.kind.toNat ≤ 1 ∧
     (queue16 []).items.length < qDepth (queue16 []) ∧ qDepth busyQueue ≤ busyQueue.items.length) ∧
    runner.mail.length < 16 ∧ 16 ≤ (List.replicate 16 event0).length ∧
    (let d : Delayed := { deadline := 0, target := .queue 0, kind := 1, ev := 0, stall := 0, part := 0 }
     dueIn base { d with deadline := base.deadline 0 } ≤ 0 ∧ 0 < dueIn base { d with deadline := base.deadline 1 } ∧
     d.kind.toNat ≠ 5 ∧ base.dueTo 0 (.queue 0) = false ∧ base.dueTo 0 (.mail 0) = false ∧
     (withShed { Shed.reset with delay := [{ d with deadline := base.deadline 0 }] }).dueTo 0 (.queue 0) = true) := by decide +kernel
/-- DispatchAndSleep: an event with a stall that waits and without; a quiet shed that has been so for 20 µs, one that has
not, a sleeping shed with a command. -/
theorem witness_dispatch : let q : Queue := { desc := BitVec.ofNat 128 (16 + 2 ^ 13 + 2 ^ 64), items := [event0] }
    let s := { withShed { Shed.reset with queues := [(0, q)] } with stalls := [(0, { runner with mode := .getWork 1 2 0 })] }
    (s.shed 0).asleep = false ∧ (∃ c ∈ s.cands 0, qConsumers q % 2 = 1 → 0 ∈ c.takers) ∧
    base.cands 0 = [] ∧ base.quiet 0 = true ∧ (base.shed 0).busyAt + 20000 ≤ base.clock ∧
    (withStall runner).quiet 0 = false ∧
    (let z := withShed { Shed.reset with asleep := true, mxa := { Mxa.reset with queue := [{ bits := 1, n := 1, stall := 0, pc := 0, part := 0 }] } }
     (z.shed 0).asleep = true ∧ (z.shed 0).mxa.queue ≠ []) := by decide +kernel

/-! ### Witnesses: HBM -/

/-- A load of the first sector of HBM by stall 0, in its engine's window. -/
def hbmLoad (st : Stage) : Access := oneAccess .load 0 (hbmKey 0 0) 8 st
def hbmState (st : Stage) (w : List WinReq) : State :=
  { withStall { runner with acc := [hbmLoad st] } with
    engines := [(engineOf (hbmKey 0 0), { Engine.reset with window := w })],
    hbms := [(0, Stack.raise { Stack.reset with temp := 800 } 0)] }
def hbmReq : WinReq := { stall := 0, seq := 0, part := 0, sector := hbmKey 0 0 / 32, write := false, since := 1000000000 }

/-- A window with all its entries taken. -/
def fullWindow : List WinReq := (List.range 256).map (fun i => { hbmReq with seq := i })

/-- WindowsAndSectors: a window with room and a full one; a request whose turn it is, with its clean sector, and the
symbol numbers of one and of two errors at the ends of the sector. -/
theorem witness_window : let s := hbmState .issued []
    let f := hbmState .issued (fullWindow)
    let w := hbmState .windowed [hbmReq]
    let e := engineOf (hbmKey 0 0)
    e < 384 ∧ isHbm (hbmKey 0 0) = true ∧ (s.engine e).occupied < 256 ∧ 256 ≤ (f.engine e).occupied ∧
    (∀ b ∈ (hbmLoad .issued).parts, b.stage = .issued ∧ (s.stall 0).mayPerform (hbmLoad .issued) b = true) ∧
    (w.engine e).window[0]? = some hbmReq ∧ w.windowTurn e 0 = true ∧
    (∀ b ∈ (hbmLoad .windowed).parts, (w.stall 0).mayPerform (hbmLoad .windowed) b = true ∧ b.phys / 32 = hbmReq.sector ∧
      b.phys % 32 + b.len ≤ 32) ∧ w.check hbmReq.sector = 0 ∧ 35 < 36 ∧ ¬ ((0 : Nat) = 32 ∧ (35 : Nat) = 33) := by
  decide +kernel
/-- RowCache: counters due and not due; a hint with a full window and with room. -/
theorem witness_cache : 2 ^ 24 ≤ ({ Engine.reset with accesses := 2 ^ 24 } : Engine).accesses ∧
    Engine.reset.accesses < 2 ^ 24 ∧ 256 ≤ ({ Engine.reset with window := fullWindow } : Engine).occupied ∧
    Engine.reset.occupied < 256 ∧ Engine.reset.hints < 2 ^ 48 ∧
    (withObjs [(kCacheCtrl 0, 0)]).cachePolicy 0 = 0 := by decide +kernel
/-- StackUpkeepAndRefresh: a ready stack with debts of 0 and 16, a channel due and not due, readings on each side of the
bounds, the last sector, a frame being cleared. -/
theorem witness_stack : let x := Stack.raise { Stack.reset with temp := 800 } 0
    let d := { x with debt := [(0, 16)] }
    let s := { base with hbms := [(0, x)], clock := 10 ^ 13, frames := [(714, ⟨none, true⟩)] }
    (s.hbm 0).phase = .ready ∧ x.debtOf 0 0 < 16 ∧ (∃ v, v ≤ d.debtOf 0 0 ∧ v = 16) ∧
    x.calDueAt 0 ≤ s.clock ∧ (s.engine 0).emptyAt + 2000 ≤ s.clock ∧ (s.engine 0).window = [] ∧ 0 < x.calDueAt 0 ∧
    (1328 : Int) ≤ 1680 ∧ s.season.phase ≠ .noPower ∧ s.scrubTurn 0 = true ∧ x.scrub < stackSectors ∧
    s.check (sectorKey 0 0 0 0 / 32) = 0 ∧ (s.frame 0 714).clearing = true := by decide +kernel

/-! ### Witnesses: units -/

/-- Whether a unit's work has its turn and succeeds, with a result and a state of which `f` holds. -/
def works {α : Type} (o : Option (Except Nat α × State)) (f : α → State → Bool) : Bool :=
  match o with | some (.ok r, t) => f r t | _ => false
/-- A word with these values at these places. -/
def word (fs : List (Nat × Nat)) : Nat := (fs.map (fun f => f.2 * 2 ^ f.1)).sum
/-- A near granule of the first four frames of yard 0. -/
def near : Granule := { near := some 0, frames := [(0, 0), (0, 1), (0, 2), (0, 3)] }
/-- Partition 0 with shed 0 and one granule. -/
def poolPart : Part := { Part.reset with phase := .running, sheds := 1, grans := [near] }
def pool : State :=
  { withPart poolPart with hbms := (List.range 3).map (fun k => (k, Stack.raise Stack.reset 0)) }
/-- A queued descriptor of stall 0. -/
def desc (w : Nat) : Desc := { bits := BitVec.ofNat 1024 w, n := 2, stall := 0, pc := 0, part := 0 }

def loadw : Nat := word [(0, 1), (16, 31), (64, 128)]
def score : Nat := word [(0, 2), (128, 0x3F800000), (160, 0x3F800000), (384, 2 ^ 32), (448, 32), (512, 2 ^ 32 + 4096)]
def copyD : Nat := word [(0, 1), (64, 2 ^ 32), (128, 2 ^ 32 + 4096), (256, 1), (288, 64)]
def replayD : Nat := word [(0, 3), (10, 2), (32, 1), (64, 2 ^ 32), (128, 2 ^ 32 + 4096), (256, 2 ^ 32 + 8192), (416, 255)]
def gatherD : Nat := word [(0, 1), (12, 3), (32, 1), (64, 2 ^ 32), (256, 2 ^ 32 + 8192), (416, 255)]
def tswitchD : Nat := word [(0, 8), (128, 2 ^ 48), (400, 1), (416, 255)]

/-- Arrivals: a command for each unit that passes its checks and one that fails them, at a leaf whose turn it is. -/
theorem witness_arrivals : let m := { meshOp .mx 4 0 .none with data := BitVec.ofNat 1024 loadw }
    let u := { meshOp .ucmd 5 0 .none with data := BitVec.ofNat 1024 score, n := 3 }
    let s := { base with mesh := [m] }
    let t := { base with mesh := [u] }
    s.leafTurn 0 m = true ∧ m.op = .mx ∧ m.kind = 4 ∧ m.reply = .none ∧ (s.mxa 0).queue.length < 32 ∧
    t.leafTurn 0 u = true ∧ u.op = .ucmd ∧ u.kind = 5 ∧ u.idx = 0 ∧
    (s.mxIssueCheck 0 loadw, s.mxIssueCheck 0 5, s.mxIssueCheck 0 6) = (0, 0, 0x0301) ∧
    (s.saCheck 0 score 3, s.saCheck 0 score 4, s.dmCheck 0 copyD 2, s.dmCheck 0 copyD 3) = (0, 0x0601, 0, 0x0701) ∧
    (s.reCheck 0 replayD 2, s.reCheck 0 gatherD 2, pool.reCheck 0 tswitchD 2, s.reCheck 0 0 2) = (0, 0, 0, 0x0701) := by
  decide +kernel

def withMxa (x : Mxa) : State := withShed { Shed.reset with mxa := x }
def emptyTile : Tile :=
  { rows := 1, nCols := 32, isInt := false, tot := 0, totPitch := 0, p := 0, totInit := false, runs := [], touched := [],
    chunks := 0, first := true, cols := [], final := 0, totals := [] }

/-- MatrixStarts: MX.LOADW of the loft's first rows, MX.RESET and a drain of an empty tile at idle engines; its E_BOUNDS
hypothesis at the last base that fits. -/
theorem witness_matrix_start : let s := withMxa { Mxa.reset with queue := [desc loadw, desc 5, desc 4] }
    (s.mxa 0).queue = desc loadw :: [desc 5, desc 4] ∧ (s.shed 0).asleep = false ∧ (s.mxa 0).held = [] ∧
    (s.mxa 0).load = none ∧ (s.mxa 0).stream = none ∧ (s.mxa 0).drain = none ∧ (s.mxa 0).ctrl = none ∧
    (s.mxa 0).halted = false ∧ (s.mxa 0).tile false = none ∧ mxaIsMx (mxFmtF loadw) = false ∧ mxaBits (mxFmtF loadw) ≠ 0 ∧
    lwIdxv loadw = false ∧ mxOp loadw = 1 ∧ lwBase (loadw + (2 ^ 32 - 32) * 2 ^ 160) + lwEntries loadw = 2 ^ 32 ∧
    mxOp 5 = 5 ∧ mxOp 4 = 4 := by decide +kernel
/-- MatrixCompletes: a tile with a row to go and a stream and a drain that run, with and without a flag. -/
theorem witness_matrix_complete : let r : MxRun := { cmd := desc (4 + 2 ^ 8), size := 0, sat := true }
    let s := withMxa { Mxa.reset with tileA := some emptyTile, stream := some { r with cmd := desc 2 }, drain := some r }
    (s.mxa 0).tile false = some emptyTile ∧ emptyTile.final < emptyTile.rows ∧ (s.mxa 0).runOf 2 = some r ∧
    dCmpl (4 + 2 ^ 8) = 1 ∧ (s.mxa 0).runOf 1 = some { r with cmd := desc 2 } ∧ dCmpl 2 < 2 := by decide +kernel

def withSampler (x : Sampler) : State := withShed { Shed.reset with sampler := x }
/-- A SAMPLE of one vertex over table 0, with its seeds in table 1. -/
def sampleD (step : Nat) : Nat := word [(0, 1), (80, 1), (88, 255), (96, 255), (128, step), (384, 2 ^ 32), (448, 2 ^ 32 + 4096),
  (512, 2 ^ 32 + 8192), (576, 16), (608, 64), (640, 16)]
/-- A graph without vertices in table 0, one seed in table 1, and run-ahead one step deep. -/
def graphState : State :=
  let s := ((pool.poke 0 (2 ^ 48) (toBytes 8 (2 ^ 48 + 4096))).poke 0 (2 ^ 48 + 8192) (toBytes 8 (2 ^ 48 + 12288))).poke 0
    (2 ^ 48 + 8200) [1]
  (((s.setObj (kTable 0 0) (2 ^ 48 + 2 ^ 80)).setObj (kTable 0 1) (2 ^ 48 + 8192 + 2 * 2 ^ 80)).setObj (kRunahead 0) 1).setObj
    (kRaGranules 0) 1

/-- Samplers: a SCORE that runs and writes, one without a draw count it may have, a SAMPLE without its tables. -/
theorem witness_sampler : let s := withSampler { Sampler.reset with queue := [desc score] }
    let s0 := (s.modSampler 0 (fun x => { x with queue := [] })).touch 0
    (s.shed 0).asleep = false ∧ (s.sampler 0).cur = none ∧ (s.sampler 0).queue = desc score :: [] ∧ bits score 0 8 = 2 ∧
    works ((saWork 0 score (scoreWork 0 score)).run plainly s0) (fun r _ => decide (r.nTrail = 4)) = true ∧
    badScore 0 0 0 1 = true ∧ s.saTables 0 (sampleD 0) = false ∧ s.adopts 0 (desc (sampleD 0)) = none ∧
    dCmpl score < 2 := by decide +kernel
/-- Samplers: a fresh SAMPLE, with no held result, that has its turn; the same at an engine that keeps it waiting. -/
theorem witness_sample_fresh : let d := desc (sampleD 1)
    let s := graphState.modSampler 0 (fun x => { x with queue := [d] })
    let s0 := (s.modSampler 0 (fun x => { x with queue := [] })).touch 0
    let w (u : State) := (saWork 0 (sampleD 1) (sampleWork s.device 0 .fore (sampleD 1))).run plainly (u.discardFor 0 d)
    (s.sampler 0).cur = none ∧ (s.sampler 0).queue = [d] ∧ bits (sampleD 1) 0 8 = 1 ∧ s.adopts 0 d = none ∧
    works (w s0) (fun r _ => r.fits (sampleD 1)) = true ∧
    (w { s0 with clock := 2 * 10 ^ 9 }).isNone = true := by decide +kernel
/-- Samplers: run-ahead for the step after a template's, and a SAMPLE that adopts the result held for its step. -/
theorem witness_runahead : let s := graphState.modSampler 0 (fun x => { x with tmpl := some (desc (sampleD 0)) })
    (s.sampler 0).queue = [] ∧ (s.sampler 0).held = [] ∧ s.partRuns 0 = true ∧ 1 ≤ s.raDepth 0 ∧
    works ((sampleWork s.device 0 .ahead (sampleD 1)).run plainly s) (fun r s1 =>
      let a : Ahead := { step := 1, caps := s.capture 0 (saCaps (sampleD 1)), res := r }
      let z := s.modSampler 0 (fun x => { x with held := [a] })
      let y := (z.bumpObj (kRaAdopted 0) 1).modSampler 0 (fun x => { x with held := [] })
      decide (r.size ≤ s1.raSlot 0 ∧ z.adopts 0 (desc (sampleD 1)) = some a ∧
        a.res.fits (sampleD 1) = true) && works ((saWork 0 (sampleD 1) (pure a.res)).run plainly y) (fun _ _ => true)) = true := by
  decide +kernel
/-- Samplers: a hop without sources. -/
theorem witness_hop : (match ((hopOf 0 .fore 0 ⟨0, 0, 0, 0, 0, 0, 0, 0, []⟩ 0 0 []).on plainly base).1 with
    | .ok r => decide (r.1 = []) | .error _ => false) = true := by decide +kernel

/-- A row-table header whose one row is at home here, with its pool, and a MIGRATE entry for row 0. -/
def rowState : State :=
  let s := ((((pool.poke 0 (2 ^ 48) (toBytes 8 (2 ^ 48 + 16384))).poke 0 (2 ^ 48 + 16) [1]).poke 0 (2 ^ 48 + 33) [1]).poke 0
    (2 ^ 48 + 36) [1]).poke 0 (2 ^ 48 + 40) (toBytes 8 (2 ^ 48 + 20480))
  ((s.poke 0 (2 ^ 48 + 24) [1, 0, 0, 0, 32]).poke 0 (2 ^ 48 + 64) (toBytes 8 (2 ^ 48 + 24576))).setObj (kTable 0 0)
    (2 ^ 48 + 4 * 2 ^ 80)
def migrateD : Nat := word [(0, 10), (10, 3), (32, 1), (64, 2 ^ 48 + 28672), (416, 255)]
def rcur (w : Nat) (ready bound : Bool) : RCur :=
  { desc := desc w, caps := [], bases := [(0, 2 ^ 48)], err := 0, errIdx := noEntry, fcode := 0, tags := [], todo := [],
    reads := [], ready := ready, bound := bound, next := 0, size := 0 }

/-- RowDescriptors: a TSWITCH of a row table, a GATHER of no table, a REPLAY that runs, a descriptor to complete. -/
theorem witness_rows : let s := rowState.setRowQueue 383 0 [desc tswitchD]
    s.rcur 383 0 = none ∧ s.rowQueue 383 0 = desc tswitchD :: [] ∧ reOp tswitchD = 8 ∧
    tdKind (s.obj (kTable 0 (reTable tswitchD))) ≠ 0 ∧ s.versionLive 0 0 (reVersion tswitchD) = false ∧
    (s.part 0).phase = .running ∧ reNamesTable gatherD = true ∧ tdKind (base.obj (kTable 0 (reTable gatherD))) ≠ 4 ∧
    reOp replayD = 3 ∧ reBadFmt replayD none = false ∧ reNamesTable replayD = false ∧
    (let c := { rcur replayD false false with bases := [] }
     (works ((rePrep 0 replayD 0 .fore).run (reHow replayD) base) (fun o s1 => o.isNone &&
        decide ((s1.setRcur 0 0 (some c)).reMissing 0 c = some []) &&
        works ((reWork 0 0 c).run (reHow replayD) (s1.setRcur 0 0 (some c)))
          (fun _ s2 => decide (s2.rcur 0 0 = some c ∧ c.err = 0 ∧ c.tags = [] ∧ c.todo = []))) = true)) ∧
    (let c := rcur (replayD + 2 ^ 8) true false
     c.ready = true ∧ c.todo = [] ∧ c.tags = [] ∧ c.err = 0 ∧ dCmpl (replayD + 2 ^ 8) = 1) := by decide +kernel
/-- RowDescriptors: a MIGRATE before and after its step boundary. -/
theorem witness_migrate : let c := rcur migrateD false true
    let s := ({ rowState with clock := 9 * 10 ^ 8 } : State).setRcur 0 0 (some c)
    s.rcur 0 0 = some c ∧ reOp migrateD = 10 ∧ c.ready = false ∧ (rcur migrateD false false).bound = false ∧
    s.orderCount 0 (reTable migrateD) = 0 ∧
    works ((migrateEntry 0 0 c).run (reHow migrateD) s) (fun _ _ => true) = true ∧ c.err = 0 ∧ c.todo = [] ∧
    (match (rdEntry 0 migrateD c.next).look s with | .ok n => s.routable (bits n 40 17) | .error _ => false) = true ∧
    (({ s with parts := [(0, { poolPart with phase := .stopping })] } : State).partRuns 0 = false) := by decide +kernel
/-- RowDescriptors: a GATHER of the table whose row is here, with its turn and, a second later, without. -/
theorem witness_gather : let d := word [(0, 1), (12, 1), (32, 1), (64, 2 ^ 48 + 28672), (256, 2 ^ 32), (416, 255)]
    let c := rcur d false false
    let w (u : State) := (rePrep 0 d (c.base 0) .fore).run (reHow d) u
    let s := rowState.setObj (kCacheCtrl 0) 2
    reNamesTable d = true ∧ reCaps d = [0] ∧ tdKind (s.obj (kTable 0 0)) = 4 ∧
    works (w s) (fun o s1 => match o with
      | some x => (match (reNeeds 0 d x).look s1 with | .ok rows => decide (s1.reReads 0 d x rows = []) | .error _ => false) &&
          decide ((s1.setRcur 0 0 (some c)).reMissing 0 c = some []) &&
          works ((reWork 0 0 c).run (reHow d) (s1.setRcur 0 0 (some c)))
            (fun _ s2 => decide (s2.rcur 0 0 = some c))
      | none => false) = true ∧
    (w { s with clock := 2 * 10 ^ 9 }).isNone = true := by decide +kernel
/-- RowDescriptors: a segment of one pair, and one of 128. -/
theorem witness_segment : (segElem [(0x3F800000, [fp32.decode 0x40000000])] 0).1 = 0x40000000 := by decide +kernel
theorem witness_chunk : (List.replicate 128 (0x3F800000, [fp32.decode 0x40000000])).length ≤ 128 := by decide +kernel

/-- DmaDescriptors: a COPY within the loft whose source is its last bytes, and one that has run, with and without tags. -/
theorem witness_dma : let w := word [(0, 1), (64, 2 ^ 32 + 2 ^ 25 - 64), (128, 2 ^ 32), (256, 1), (288, 64)]
    let s := base.modShed 0 (fun x => { x with dma := { queue := [desc w], cur := none } })
    let c := rcur copyD true false
    (s.dma 0).queue = desc w :: [] ∧ (s.dma 0).cur = none ∧ (s.shed 0).asleep = false ∧ reOp w = 1 ∧ dmRemote w = false ∧
    dmRows w = 1 ∧ dmBytes w = 64 ∧ s.owns 0 0 = true ∧ dmSrc w = 2 ^ 32 + 0 * 2 ^ 25 + (2 ^ 25 - 64) ∧
    dmDst w = 2 ^ 32 + 0 * 2 ^ 25 + 0 ∧ (2 ^ 25 - 64) + dmBytes w = 2 ^ 25 ∧
    (∀ k, k < 64 → s.poisoned (loftKey 0 (2 ^ 25 - 64 + k)) = false ∧ s.poisoned (loftKey 0 k) = false) ∧
    c.tags = [] ∧ c.err = 0 ∧ dCmpl copyD < 2 ∧ ({ c with tags := [1] } : RCur).tags ≠ [] := by decide +kernel

/-! ### Witnesses: Llyn and the packets -/

def withPort (k : Nat) (x : Port) : State := { base with ports := [(k, x)] }
def portUp : Port := { Port.reset with phase := .up }
def sentFlit : Sent := { seq := 5, area := [1], time := 0, flows := [] }

/-- FlitsInOrder: a port that is up with nothing and with a packet to send, one that replays, one whose replay has timed
out for the last time it is repeated and for the time it retrains. -/
theorem witness_flits : let x := { portUp with tx := [((0, 1, 0), zeros 240)] }
    let r := { portUp with replay := [sentFlit], resend := 1, count := 16, start := 5 }
    let s := withPort 11 x
    (s.port 11).phase = .up ∧ x.resume = false ∧ x.resend = 0 ∧ x.await = false ∧ x.replay.length < 4096 ∧ x.txq = [] ∧
    x.tx.flatMap Prod.snd ≠ [] ∧ portUp.tx.flatMap Prod.snd = [] ∧ x.linked = true ∧
    0 < r.resend ∧ r.resend ≤ r.replay.length ∧ r.replay[r.replay.length - r.resend]? = some sentFlit ∧
    sentFlit.time + 2000 ≤ s.clock ∧ 16 ≤ r.count ∧ r.start = sentFlit.seq ∧ (15 : Nat) < 16 ∧
    ({ portUp with phase := .notReady } : Port).nrdyAt + 100000 ≤ s.clock ∧ s.intakeClosed = false := by decide +kernel
/-- A CRC whose value is found byte by byte. -/
def crcEager (p : Nat) : List Byte → Nat → Nat
  | [], a => a
  | b :: bs, 0 => crcEager p bs (crcByte p 0 b)
  | b :: bs, n + 1 => crcEager p bs (crcByte p (n + 1) b)
theorem crcEager_eq (p : Nat) : ∀ (bs : List Byte) (a : Nat), crcEager p bs a = bs.foldl (crcByte p) a
  | [], _ => rfl
  | _ :: bs, 0 => crcEager_eq p bs _
  | _ :: bs, _ + 1 => crcEager_eq p bs _
theorem crc64_eager (bs : List Byte) :
    crc64 bs = crcEager 0xC96C5795D7870F42 bs 0xFFFFFFFFFFFFFFFF ^^^ 0xFFFFFFFFFFFFFFFF := by rw [crcEager_eq]; rfl
/-- R255: the check value of CRC-64/XZ. -/
theorem test_crc64 : crc64 (toBytes 9 0x393837363534333231) = 0x995DC9BBDF1939FA := by rw [crc64_eager]; decide +kernel

/-- A data flit of SEQ 0 with 8 bytes of stream, all zero. -/
def flit0 : BitVec 2048 := BitVec.ofNat 2048 (0xFFFF * 2 ^ 16 + 8 * 2 ^ 72 + 3840428799936407193 * 2 ^ 1984)
/-- FlitsInOrder: a flit with a good CRC and the expected SEQ that ends no packet, one with a bad CRC, and SEQs on each
side of the one that asks for a replay. -/
theorem witness_flit_receive : crc64 ((toBytes 256 flit0.toNat).take 248) = ofBytes ((toBytes 256 flit0.toNat).drop 248) ∧
    crc64 ((toBytes 256 1).take 248) ≠ ofBytes ((toBytes 256 1).drop 248) := by
  rw [crc64_eager, crc64_eager]; decide +kernel
theorem witness_flit_order : let l := linkField (ofBytes ((toBytes 256 flit0.toNat).take 16))
    l.ftype = 0 ∧ l.nak = false ∧ l.fill = 8 ∧ (portUp.rxSeq.toNat + 65536 - l.seq) % 65536 = 0 ∧
    (cutPackets 40 (portUp.rx ++ zeros 8)).1 = [] ∧ portUp.skipping = false ∧
    (portUp.rxSeq.toNat + 65536 - 32768) % 65536 = 32768 ∧ 32768 < (portUp.rxSeq.toNat + 65536 - 32767) % 65536 := by
  decide +kernel
/-- LinksAndTime: a port that trains, waits, is down and is up; a parent in fabric time reached over the port. -/
theorem witness_links : let s := { withPort 0 { Port.reset with phase := .training } with
        objs := [(kTimeCtrl, 2), (kTopology, 1)], routes := [(1, 0xF0)] }
    let u := { s with ports := [(0, portUp)] }
    (s.port 0).phase = .training ∧ (s.port 0).nextTry ≤ s.clock ∧ bit (s.obj (kPort 0 2)) 0 = true ∧
    2 ^ 17 - 1 < 2 ^ 17 ∧ 15 < 16 ∧ (s.port 0).trained = false ∧ (s.port 0).linked = false ∧
    (s.port 0).downAt + s.obj kFailoverMs * 1000000 ≤ s.clock ∧ (u.port 0).linked = true ∧
    bit (u.obj kTimeCtrl) 0 = false ∧ u.twins (bits (u.obj kTimeCtrl) 1 17) = [0] ∧ u.season.phase ≠ .noPower ∧
    u.season.everSummer = false := by decide +kernel

/-- A packet from this module's partition 0 to itself, waiting at the module's own port. -/
def own (h : HSpec) (pay : List Byte) : Packet := mkPacket 0 h pay none
/-- A packet as it arrived, admitted or not. -/
def arrived (s : State) (p : Packet) : Arrived := { pkt := p, stamp := 0, code := s.admission p.h, busy := false }
def holding (p : Packet) (s : State) : State := { s with ports := [(12, { Port.reset with ing := [arrived s p] })] }
def writeP : Packet := own { kind := 0, vl := 2, last := true, dev := 0, part := 0, src := 0, addr := 0, aux := 32 * 2 ^ 32 } (zeros 32)
def readP : Packet := own { kind := 1, vl := 2, dev := 0, part := 0, src := 0, tag := 1, addr := 2 ^ 30 - 32, aux := 32 } []
def tag1 (u : TagUse) (s : State) : State :=
  { s with fabric := { s.fabric with tags := [{ tag := 1, part := 0, use := u, since := 0, got := [] }] } }

/-- PacketsToMemory: a WRITE of the first sector and a READ of the last one of the partition, each admitted. -/
theorem witness_write_read : let s := holding writeP pool
    (s.port 12).ing[0]? = some (arrived pool writeP) ∧ s.waitsFor 12 (arrived pool writeP) = false ∧ hKind writeP.h = 0 ∧
    s.writeCode (arrived pool writeP) = 0 ∧ s.oldRow 0 (hAddr writeP.h) writeP.pay.length = none ∧
    (match s.hbmRange 0 (hAddr writeP.h) 32 with
     | some ks => decide (ks.Nodup) && ks.all (fun a => decide (s.check (a / 32) = 0))
     | none => false) = true ∧
    hKind readP.h = 1 ∧ hSub readP.h = 0 ∧ pool.admission readP.h = 0 ∧ bits (hAux readP.h) 0 32 = 32 ∧
    pool.readMoved readP.h = none ∧
    (match pool.hbmRange 0 (hAddr readP.h) 32 with
     | some ks => ks.all (fun a => decide (s.check (a / 32) = 0))
     | none => false) = true ∧
    hSrcDev readP.h = pool.device ∧ pool.admission (readP.h + 2 ^ 30) ≠ 0 ∧
    (let far := { pool with routes := [(5, 0xF0)], objs := [(kTopology, 1)] }
     (mkPacket 5 { kind := 1, vl := 2, dev := 0, part := 0, src := 0, tag := 1, addr := 0, aux := 32 } [] none).h ≠ readP.h ∧
     far.routePort (0, 5, 1) ≠ none) := by decide +kernel
theorem witness_packet_idle : (holding writeP pool).idleHbm ∧ (holding readP pool).idleHbm :=
  ⟨Idle _ rfl (by decide +kernel) (by decide), Idle _ rfl (by decide +kernel) (by decide)⟩
/-- PacketsToMemory: a row of partition 0 that has moved, and one that is being copied. -/
theorem witness_moved :
    let f : Fwd := ⟨0, 0, 0, 0, 1, 0, 0, 2 ^ 48, 32, none⟩
    let s := { holding writeP pool with fwd := [f] }
    let t := { s with fwd := [{ f with copier := some (0, 0) }] }
    s.oldRow 0 (hAddr writeP.h) 32 = some f ∧ f.copier = none ∧ t.oldRow 0 (hAddr writeP.h) 32 ≠ none ∧
    after (exec (.pktWrite 12 0) t) false (fun u => decide (u = t)) = true ∧
    after (exec (.pktWrite 12 0) s) false (fun u => decide (u.mem = s.mem ∧ (u.port 12).ing.length = 1)) = true := by
  decide +kernel
/-- PacketsToMemory: a ROW_ATOMIC to a table that is none, a READ_RESP with a tag and without, a trailer whose transfer is
whole. -/
theorem witness_responses : let h := (own { kind := 3, vl := 2, dev := 0, part := 0, src := 0, addr := 0, aux := 0 } []).h
    let r := (own { kind := 2, vl := 3, dev := 0, part := 0, src := 0, tag := 1 } (zeros 8)).h
    let s := tag1 (.row 0 0 0 0 32 0) base
    let w := BitVec.ofNat 256 (uaMake 0 2 7)
    let g : Trailer := ⟨0, 0, 1, 32, some 32, some w, 0, 0, 2, false⟩
    hKind h = 3 ∧ base.admission h = 0 ∧ base.fwd = [] ∧
    (match (servedAdd (own { kind := 3, vl := 2, dev := 0, part := 0, src := 0, addr := 0, aux := 0 } [])).run plainly base with
     | some (.error _, _) => true | _ => false) = true ∧ tdKind (base.obj (kTable 0 0)) ≠ 4 ∧
    hKind r = 2 ∧ hErr r = false ∧ base.tagOf r = none ∧ (s.tagOf r).isSome = true ∧ g.total = some g.bytes ∧
    trOp w < 2 ∧ base.resolveHere 0 (base.localForm (trTarget w)) [2] =
      .plain 2 7 := by decide +kernel

/-- Messages: an EVPUSH and an HPUSH to a queue with room, a SEND, a FLAG_SET, and results, acknowledgements and refusals
of the transaction with tag 1; a transaction within its limit and beyond it. -/
theorem witness_messages : let s := withShed { Shed.reset with queues := [(0, queue16 [])] }
    let dest (sub i : Nat) : HSpec := { kind := 4, sub := sub, vl := 0, dev := 0, part := 0, src := 0, tag := 1, addr := uaMake 0 i 0 }
    let e := (own (dest 0 3) (zeros 32)).h
    let p := (own { dest 1 3 with aux := 5 } []).h
    let m := (own (dest 2 1) (zeros 32)).h
    let f := (own { dest 0 2 with kind := 5, sub := 2 } []).h
    let k (sub vl code : Nat) := (own { kind := 4, sub := sub, vl := vl, dev := 0, part := 0, src := 0, tag := 1, code := code } []).h
    let g := tag1 (.mirror 0) base
    hKind e = 4 ∧ hSub e = 0 ∧ s.admission e = 0 ∧ uaLocal (s.localForm (hAddr e)) = true ∧
    s.resolveHere 0 (s.localForm (hAddr e)) [3] = .plain 3 0 ∧ s.pushes = [] ∧ hSub p = 1 ∧ s.admission p = 0 ∧
    hSub m = 2 ∧ s.admission m = 0 ∧ s.resolveHere 0 (s.localForm (hAddr m)) [1] = .plain 1 0 ∧
    hKind f = 5 ∧ hSub f = 2 ∧ s.admission f = 0 ∧ s.resolveHere 0 (s.localForm (hAddr f)) [2] = .plain 2 0 ∧ s.mesh = [] ∧
    s.dueTo 0 (.queue 0) = false ∧ s.dueTo 0 (.mail 0) = false ∧
    (g.tagOf (k 3 0 0)).isSome = true ∧ hSub (k 3 0 0) = 3 ∧ (g.tagOf (k 4 3 0)).isSome = true ∧ hSub (k 4 3 0) = 4 ∧
    hCode (k 5 3 0x0902) ≠ 0 ∧ hSub (k 5 3 0x0902) = 5 ∧ base.tagOf (k 4 3 0) = none ∧
    hBadField (own { kind := 7, sub := 0, vl := 1, dev := 0, part := 0, src := 0 } (zeros 32)).h = false ∧
    g.obj kTxnLimit = 0 ∧
    (let l := { g with objs := [(kTxnLimit, 1)] }
     l.obj kTxnLimit ≠ 0 ∧ 0 + l.obj kTxnLimit * 1000000 < l.clock) := by decide +kernel

/-- A plan of one rank in mode `m`: START is flag 1, DONE flag 2. -/
def planW (m : Nat) : Nat := word [(0, m), (10, 1), (96, 8), (640, 1), (672, 2)]
def collP (sub inst : Nat) (pay : List Byte) : Packet :=
  own { kind := 6, sub := sub, vl := 2, dev := 0, part := 0, src := 0, aux := inst * 2 ^ 23 } pay

/-- Collectives: a plan whose flag is set; a contribution, a result, a chain sum and a sidecar of the instance in progress,
and packets of no instance and of no plan. -/
theorem witness_collectives : let s := { withShed { Shed.reset with flags := [(1, true)] } with objs := [(kPlan 0 0, planW 0)] }
    let d := s.planDesc 0 0
    let b : PlanSt := { PlanSt.reset with busy := true, inst := 1 }
    plValid d = true ∧ (s.plan 0 0).busy = false ∧ plStart d = 1 ∧ s.flag 1 = true ∧ s.owns 0 0 = true ∧
    (s.part 0).phase = .running ∧ s.collCode (arrived s (collP 0 0 [])) = 0 ∧
    base.collCode (arrived base (collP 0 0 [])) = 0x0909 ∧
    plMode d = 0 ∧ auxRank (hAux (collP 0 0 []).h) < plN d ∧ auxInst (hAux (collP 0 0 []).h) = (s.plan 0 0).zeroed % 2 ^ 41 ∧
    (contribElems d (collP 0 0 (zeros 8))).isSome = true ∧ auxInst (hAux (collP 0 5 []).h) ≠ (s.plan 0 0).zeroed % 2 ^ 41 ∧
    b.isNow (collP 1 0 []).h = true ∧ b.isNow (collP 1 1 []).h = false ∧ b.isNext (collP 2 1 []).h = true ∧
    plMode (planW 2) = 2 ∧ plRank d + 1 = plN d ∧ b.held + (codes (plOfmt d) (zeros 8)).length < plElems d ∧
    b.sides + 1 < plSides (d + (1 + 2 ^ 32)) ∧ (PlanSt.reset.turn (planW 1)) ≠ some 1 := by decide +kernel

/-- A verdict configuration on flags 8 to 11. -/
def verdictW : Nat := word [(0, 1), (32, 8), (64, 9), (96, 10), (128, 11), (256, 0)]
def plan1 : PlanTot := { inst := 0, sqn := 0, mb := [0, 0, 0, 0], nonfin := false, sqnInf := false, mbInf := 0 }
/-- Partition 0 with the verdict engine in a state. -/
def training (t : Train) (h : List PlanTot) : State :=
  { withPart { Part.reset with phase := .running, sheds := 1, train := t,
                               plans := [(0, { PlanSt.reset with hist := h })] } with
    sheds := [(0, { Shed.reset with flags := [(8, true), (10, true)] })],
    objs := [(kVerdictCfg 0, verdictW), (kGroup 0 0, 3)] }
/-- TrainingStep: the engine idle, reducing, with its tail plan's totals, and with a verdict formed. -/
theorem witness_training : let t := Part.reset.train
    let s := training { t with state := 1 } []
    let v := training { t with state := 3 } [plan1]
    let z := training { t with state := 4, formed := true } []
    s.cfgFlag 0 (vcVstart verdictW) = some 8 ∧ (s.part 0).train.state = 1 ∧ s.flag 8 = true ∧ base.flag 8 = false ∧
    s.vplans 0 = [] ∧ s.mirrorDue 0 (s.stepOf 0 + 1) = false ∧ vcRegions verdictW = 0 ∧
    s.cfgFlag 0 (plStart (s.obj (kPlan 0 0))) = some 0 ∧ (v.plan 0 (vcTail verdictW)).hist = [plan1] ∧
    (z.part 0).train.formed = true ∧ z.cfgFlag 0 (vcApply verdictW) = some 10 ∧ z.flag 10 = true ∧ z.flipTables 0 = [] ∧
    z.specGroups 0 = [0] := by decide +kernel
/-- MirrorAndAlternates: ALT_FREE clear with a speculative group; an idle mirror engine with a mirror that waits, one whose
COMMIT is acknowledged, one that failed. -/
theorem witness_mirror : let s := training Part.reset.train []
    let m := Part.reset.mirror
    let w := withPart { Part.reset with mirror := { m with waitSched := [{ step := 1, srcs := [], copies := [], snap := [] }] } }
    s.cfgFlag 0 (vcAltFree verdictW) = some 11 ∧ vcEnable verdictW = true ∧ s.flag 11 = false ∧ (s.part 0).mirror.phase = 0 ∧
    (w.part 0).mirror.phase = 0 ∧ (w.part 0).mirror.waitSched ≠ [] ∧ w.routable (mcDev (w.obj (kMirrorCfg 0))) = true ∧
    w.freeTag = some 1 ∧ ({ m with phase := 3 } : Mirror).tags = [] ∧ m.fail = false ∧
    ({ m with phase := 1, fail := true } : Mirror).fail = true := by decide +kernel

/-! ### Witnesses: the dictionary and the host -/

def client : Requester := .mgmt 0xFFFF00000001 7
/-- A message of the management port: version, OP, lease, index, subindex, offset, DLEN, data. -/
def message (ver op idx sub off dlen : Nat) (d : List Byte) : List Byte :=
  toBytes 1 ver ++ toBytes 1 op ++ toBytes 2 (32 + d.length) ++ toBytes 4 1 ++ toBytes 4 9 ++ toBytes 2 idx ++ toBytes 1 sub ++
    toBytes 1 0 ++ toBytes 8 off ++ toBytes 4 dlen ++ toBytes 4 0 ++ d
/-- `s` with a message waiting, its sender holding the module's semaphore. -/
def asked (m : List Byte) (s : State) : State :=
  { s with host := { s.host with mgmtQ := [{ ip := 0xFFFF00000001, port := 7, msg := m }],
                                 sems := [(0, { holder := some client, lease := 9, until_ := 10 ^ 12 })] } }
/-- Whether the message waits in turn at a dictionary that is up, well formed, and not a repeat. -/
def served (m : List Byte) (s : State) : Bool :=
  let t := asked m s
  decide (t.nextRequest = some (client, m)) && t.dictUp && decide (t.resent client m = none) && decide (msVer m = 1) &&
    !(msMalformed client m) && mayReach client (msIndex m) (msSub m)
/-- Whether a write passes the shared checks. -/
def writes (m : List Byte) (s : State) : Bool :=
  let u := ((asked m s).taken client).expireLeases
  match objDef (msIndex m) (msSub m) with
  | none => false
  | some d =>
    served m s && decide (d.size ≤ 1024 ∧ msOp m = 2 ∧ msDlen m = d.size) && !d.all &&
      (!d.rws || u.granted client (msLease m) (msIndex m) (msSub m)) && !(u.notYet (msIndex m)) &&
      decide (ofBytes (msData m) &&& d.rsv = 0) && decide ((ofBytes (msData m) ^^^ u.valueOf (msIndex m) (msSub m)) &&& d.ro = 0)

/-- DictionaryServes: a message of another version, a malformed one, one to no object, one of no right, writes of a wrong
length, of a read-only object, without a lease, and of a partition's object in Winter. -/
theorem witness_refusals : let winter := { base with season := { base.season with phase := .winter } }
    (asked (message 2 1 0x1202 0 0 0 []) base).nextRequest = some (client, message 2 1 0x1202 0 0 0 []) ∧
    base.dictUp = true ∧ base.nextRequest = none ∧ msVer (message 2 1 0x1202 0 0 0 []) ≠ 1 ∧
    msMalformed client (message 1 0 0x1202 0 0 0 []) = true ∧ served (message 1 5 0x1101 0 0 0 []) base = true ∧
    objDef 0x1FFF 0 = none ∧ mayReach (.fn 1) 0x1202 0 = false ∧ mayReach (.fn 1) 0x1100 2 = false ∧
    served (message 1 2 0x1202 0 0 3 (zeros 3)) base = true ∧ (objDef 0x1202 0).isSome = true ∧
    base.granted client 9 0x1202 0 = false ∧ (asked [] base).granted client 9 0x1202 0 = true ∧
    served (message 1 2 0x2400 1 0 4 (zeros 4)) winter = true ∧ winter.season.phase ≠ .summer := by decide +kernel
/-- DictionaryReads: reads of an object, of a BLOB up to its end, of HOT_ROWS; ACQUIRE of a free semaphore, of one's own
and of another's; a lease in its last nanosecond and after it. -/
theorem witness_reads : served (message 1 1 0x1202 0 0 0 []) base = true ∧ served (message 1 3 0x1110 4 0 16 []) base = true ∧
    (match objDef 0x1110 4 with | some d => decide (d.kind = .blob ∧ 0 + 16 ≤ d.size) | none => false) = true ∧
    served (message 1 3 0x2360 63 0 1024 []) base = true ∧ 0 + 1024 ≤ 1024 ∧
    served (message 1 5 0x1100 32 0 0 []) base = true ∧ (asked [] base).expireLeases.sem 32 = ⟨none, 0, 0⟩ ∧
    served (message 1 6 0x1100 0 0 0 []) base = true ∧ ((asked [] base).expireLeases.sem 0).holder = some client ∧
    (asked [] { base with clock := 10 ^ 12 }).clock ≤ ((asked [] base).sem 0).until_ ∧
    ((asked [] base).sem 0).until_ < (asked [] { base with clock := 10 ^ 12 + 1 }).clock := by decide +kernel
/-- DictionaryWritesAndBlobs: a write of each object the statement names passes the checks. -/
theorem witness_writes : writes (message 1 2 0x1202 0 0 2 (toBytes 2 400)) base = true ∧
    writes (message 1 2 0x2400 1 0 4 (toBytes 4 0x3F800000)) base = true ∧ f32pos 0x3F800000 = true ∧
    writes (message 1 2 0x2000 2 0 4 (toBytes 4 1)) base = true ∧ writes (message 1 2 0x2000 1 0 4 (toBytes 4 1)) base = true ∧
    writes (message 1 2 0x2001 0x09 0 4 (toBytes 4 65536)) base = true ∧ ringBad 65536 = false ∧ ringBad 8 = true ∧
    (base.part 1).phase = .free ∧ base.shedsTaken 1 2 = false ∧ base.shedsTaken 1 1 = true ∧
    writes (message 1 2 0x1200 1 0 4 (toBytes 4 2)) base = true ∧ writes (message 1 2 0x4000 3 0 4 (toBytes 4 1)) base = true ∧
    writes (message 1 2 0x2401 0x41 0 4 (toBytes 4 1)) base = true ∧ writes (message 1 2 0x1311 15 0 4 (toBytes 4 7)) base = true := by
  decide +kernel
theorem witness_blobs : served (message 1 4 0x1110 4 15 1 [7]) base = true ∧ 15 + 1 = 16 ∧ 16 < 16 + 1 ∧
    served (message 1 4 0x4000 2 (slotSize - 1) 1 [7]) base = true ∧ base.flash.running = 2 ∧
    (asked [] base).granted client 9 0x4000 2 = true := by decide +kernel

/-- HostAccesses: a management datagram that is taken, one that is short, one that was answered before; function 32 with
its virtual functions on; a BAR4 access within the module's HBM and one beyond. -/
theorem witness_host : let s := { base with objs := [(objKey 0x1110 2, 1)], host := { base.host with numVfs := 32 } }
    let r := pool
    let far := r.setFn 0 { r.fn 0 with window := 178 * 2 ^ 30 }
    0xFFFF00000001 / 2 ^ 32 = 0xFFFF ∧ s.host.mgmtUp = true ∧ s.flash.booted = true ∧ bit (s.obj kNetCtrl) 0 = true ∧
    s.obj (objKey 0x1110 2) ≠ 0 ∧ s.stored 0xFFFF00000001 7 = none ∧ s.host.mgmtQ.length < 16 ∧ s.hostUp = true ∧
    32 ≤ s.host.numVfs ∧ s.host.perst = false ∧ 3 * 2 ^ 28 + 1 ≤ (far.fn 0).barSize ∧
    far.bar4Keys 0 (3 * 2 ^ 28 - 7) 8 = none ∧ (far.bar4Keys 0 (3 * 2 ^ 28 - 8) 8).isSome = true ∧
    (s.fn 0).barSize < 2 ^ 30 + 8 ∧ (s.bar0Read 0 0x100000 20).isSome = true ∧ (s.bar0Read 32 0x9000 8).isSome = true ∧
    (match r.bar4Keys 0 0 8 with
     | some ks => decide ks.Nodup && r.hbmUp ks && ks.all (fun k => decide (r.check (k / 32) = 0))
     | none => false) = true := by decide +kernel
theorem witness_host_idle : pool.idleHbm := Idle _ rfl (by decide +kernel) (by decide)
/-- HostAccesses: the host link down with and without power. -/
theorem witness_host_link : let d := { base with host := { base.host with linkUp := false } }
    let w := { d with season := { d.season with phase := .winter } }
    d.host.perst = false ∧ d.season.phase = .summer ∧ w.season.phase = .winter ∧ d.host.linkUp = false := by decide +kernel
/-- Doorbells: a ring of 4 entries, all of them rung and one more. -/
theorem witness_doorbells : let s := withObjs [(kSqSize 0, 4), (kCqSize 0, 4)]
    let r := (s.part 0).rings
    s.hostUp = true ∧ (4 - r.sqHead).toNat ≤ s.obj (kSqSize 0) ∧ (4 - r.sqTail).toNat < 2 ^ 31 ∧
    s.obj (kSqSize 0) < (5 - r.sqHead).toNat ∧ (r.cqTail - 0).toNat ≤ s.obj (kCqSize 0) ∧
    s.obj (kCqSize 0) < (r.cqTail - 1).toNat := by decide +kernel

/-- A partition whose rings are as given, with an enabled queue 0 in shed 0. -/
def ringing (r : Rings) : State :=
  { withPart { Part.reset with phase := .running, sheds := 1, rings := r } with
    sheds := [(0, { Shed.reset with queues := [(0, queue16 [])] })], objs := [(kSqSize 0, 4), (kCqSize 0, 4)] }
/-- Rings: an entry to fetch that is good, one that is not, one for a queue that is not open; a completion to write, from
an entry and from a state, and a full ring; completions that await their interrupt. -/
theorem witness_rings : let r := Part.reset.rings
    let s := ringing { r with sqTail := 1 }
    let c := ringing { r with pendEntry := some 0, unsig := 1 }
    s.hostUp = true ∧ (s.part 0).rings.heldEntry = none ∧ (s.part 0).rings.fetched ≠ (s.part 0).rings.sqTail ∧
    (s.part 0).rings.pendEntry = none ∧ s.partRuns 0 = true ∧ s.season.phase = .summer ∧ entryBad 0 = true ∧
    entryBad (2 * 2 ^ 24) = false ∧ s.queueOpen 0 (s.entryTarget 0 (2 * 2 ^ 24)) = true ∧ s.queueOpen 0 1 = false ∧
    (match s.pushQueue 0 kindHost noStall 0 (entryEvent (2 * 2 ^ 24)) with | .ok _ => true | _ => false) = true ∧
    ((c.part 0).rings.cqTail - (c.part 0).rings.cqHead).toNat < c.obj (kCqSize 0) ∧ (c.part 0).rings.pendEntry = some 0 ∧
    c.obj (kCqSize 0) ≤ ((4 : BitVec 32) - 0).toNat ∧ bit (c.obj (kIntrCtrl 0)) 0 = true ∧
    bits (c.obj (kIntrCtrl 0)) 8 8 ≤ (c.part 0).rings.unsig := by decide +kernel
/-- LoadAndStop: a load without an image, a partition that stops with nothing outstanding. -/
theorem witness_load : let s := withPart { Part.reset with phase := .loading, sheds := 1 }
    let t := withPart { Part.reset with phase := .stopping, sheds := 1 }
    (s.part 0).phase = .loading ∧ (match s.load 0 with | .error _ => true | .ok _ => false) = true ∧
    (base.part 0).phase ≠ .loading ∧ (t.part 0).phase = .stopping ∧ t.issuedDone 0 = true := by decide +kernel

/-! ### Witnesses: seasons, power, time -/

def inSeason (x : Season) : State := { base with season := x }
/-- Seasons: every phase and sub-step a clause names, with its requests and times. -/
theorem witness_seasons : let b := base.season
    let cfg := { inSeason { b with phase := .winter } with objs := [(kSeasonCfg, 4)] }
    State.reset.season.phase = .noPower ∧ State.reset.flash.asShipped = true ∧ bit (cfg.obj kSeasonCfg) 2 = true ∧
    bit (({ cfg with objs := [(kSeasonCfg, 0)] } : State).obj kSeasonCfg) 2 = false ∧ cfg.flash.booted = true ∧
    b.phase = .summer ∧ b.retry = false ∧ b.pend = none ∧
    (inSeason { b with phase := .autumn, sub := 2, drainAt := 2 * 10 ^ 9 }).clock < 2 * 10 ^ 9 ∧ base.partRuns 0 = true ∧
    (inSeason { b with phase := .autumn, sub := 3 }).mirrorsDone = true ∧
    (inSeason { b with retry := true, retryAt := 10 ^ 9 }).season.retryAt ≤ base.clock ∧
    (({ base with hbms := [(11, { Stack.reset with phase := .failed })] } : State).hbm 11).phase = .failed ∧
    ({ b with shedFailed := 2 ^ 31 } : Season).shedFailed.getLsbD 31 = true := by decide +kernel
/-- FaultsAndFlash: a cool, fed module in Fault whose fault is to be cleared, and one with a die at 95 °C; a shed with and
without an owner; a bank that is due and one that is not. -/
theorem witness_faults_flash : let f := { inSeason { base.season with phase := .fault, faultClear := true } with
        power := { base.power with vin := 40000, temps := [1519] } }
    f.season.phase = .fault ∧ (∀ t ∈ f.power.temps, t < 1520) ∧ (∀ k, k < 12 → (f.hbm k).temp < 1520) ∧
    f.power.regOk = true ∧ 40000 ≤ f.power.vin ∧ f.power.vin ≤ 60000 ∧ (∃ t ∈ [(1520 : Int)], 1520 ≤ t) ∧
    base.owner 0 = some 0 ∧ base.owner 31 = none ∧ base.season.phase ≠ .noPower ∧ base.season.phase ≠ .fault ∧
    (({ base with flash := { base.flash with dirty := some 0 } } : State).clock < 0 + 10000000000) ∧
    0 + 10000000000 ≤ ({ base with clock := 10 ^ 10 } : State).clock := by decide +kernel
/-- Power: a sample above the cap with a yard that runs and with none; readings at the bounds of the thermal ceiling. -/
theorem witness_power : let y := base.setYard 0 { base.yard 0 with point := 1, temp := 1600, droop := 1 }
    base.season.phase ≠ .noPower ∧ base.season.brake = false ∧
    (base.obj kPowerCap - ceilDiv (base.obj kPowerCap) 100) * 1000000 < 48000 * 40000 ∧ (∃ k, k < 4 ∧ 0 < (y.yard k).point) ∧
    (∀ k, k < 4 → (base.yard k).point = 0) ∧ base.power.mt < 12 ∧ (y.yard 0).hotAt + 1000000 ≤ y.clock ∧
    1600 ≤ (y.yard 0).temp ∧ (base.yard 0).temp < 1552 ∧ (base.yard 0).coolAt + 10000000 ≤ base.clock ∧
    (base.yard 0).ceil < base.obj (kMaxPoint 0) ∧ base.clocksUp = true ∧ 0 < (y.yard 0).droop ∧
    (y.yard 0).droopAt + 1000 ≤ y.clock ∧ (∀ t ∈ [1680, 0, 0, (0 : Int)], t ≤ 1680) ∧ ∃ t ∈ [(1681 : Int)], 1680 < t := by
  decide +kernel
/-- TimePasses: an empty queue, counters below their wrap and at it. -/
theorem witness_time : base.pending = [] ∧ State.reset.pending = [] ∧ State.reset.season.phase = .noPower ∧
    (base.perf 15).count < 2 ^ 48 ∧ base.owner (1023 / 32) = none ∧ base.owner (31 / 32) = some 0 ∧
    (base.stall 31).wraps = 0 ∧ base.cycles 0 31 / 2 ^ 48 ≤ (base.stall 31).wraps := by decide +kernel
/-- MemoryStaysCanonical: reset memory is canonical, and a step that stores answers a next state. -/
theorem witness_memory : Memory.wf (withG 8 1).mem = true ∧
    after (step { withG 8 0x11223344 with pending := [.stW 0 2 1 0] }) false (fun t => Memory.wf t.mem && decide (t.mem ≠ [])) = true := by
  decide +kernel

/-! ### Witnesses: forms that single clauses name -/

/-- RemoteAccessesAndAtomics, FencesAndControl: an atomic in the stall's own memory; a UCMD that takes a tag and one that
finds none. -/
theorem witness_tags : let s := withG 0 0
    let f := withStall { runner with descs := 128 }
    s.phys 0 (some 0) 0 = some (stallKey 0 0) ∧ s.checkAccess 0 0 0 8 8 = 0 ∧ s.takesTag (uaMake 0 0 0) = true ∧
    (s.stall 0).tags 0 + 1 ≤ 128 ∧ 128 < (f.stall 0).tags 0 + b2n (f.takesTag (uaMake 0 0 0)) := by decide +kernel
/-- PenOperations: an EVPUSH to a pen of two queues. -/
theorem witness_pen_push : let m := meshOp .evpush 7 0 .none
    let s := { withShed { Shed.reset with pens := [(0, [BitVec.ofNat 64 (uaMake 0 3 1), BitVec.ofNat 64 (uaMake 0 3 2)])] }
      with mesh := [m] }
    m.toPen = true ∧ s.leafTurn 0 m = true ∧ s.penFits m.idx m.op = true ∧ s.penFits m.idx .set = false ∧
    s.resolveHere 0 (uaMake 0 3 1) [3] = .plain 3 1 := by decide +kernel
/-- RowCache: a set whose 16 ways are taken, and a pseudo-channel with a slot for the hint and without. -/
theorem witness_evict (set : Nat) : (((List.range 16).map (fun i => (⟨set, i, 0, 0, i⟩ : Line))).filter
    (fun l => decide (l.set = set))).length = 16 := by simp [List.range, List.range.loop]
theorem witness_slot : pool.frontSlot 0 0 = true ∧ pool.pcWaits 0 0 = false ∧
    ({ pool with clock := 2 * 10 ^ 9 } : State).frontSlot 0 0 = false ∧ pool.cacheWays 0 = 16 := by decide +kernel
/-- A slot of one INT8 row of twos. -/
def intSlot : Slot := { wfmt := 5, kRows := 1, nCols := 32, axis := false, idx := [0], w := List.replicate 32 2, sc := [] }
def streamD : Nat := word [(0, 2), (12, 5), (32, 64), (64, 32), (80, 256), (128, 4096)]
/-- MatrixStarts, MatrixArithmetic: MX.STREAM of one INT8 row, and drains of its tile with FINAL 0 and 1 in both forms, at an
idle array. -/
theorem witness_stream : let s := withMxa { Mxa.reset with queue := [desc streamD], slot0 := some intSlot }
    let b := bindTile streamD 256 intSlot true
    let t := { b with chunks := 1, final := 1 }
    (s.mxa 0).mayStart streamD = true ∧ s.streamCheck 0 streamD = (0, some (intSlot, b)) ∧ intSlot.nCols ≤ 512 ∧
    ({ b with p := 1, chunks := 1 } : Tile).p ≤ 1 ∧ ¬ b.p ≤ b.chunks ∧ (s.actRows 0 streamD intSlot).length = 1 ∧
    (s.streamCheck 0 (streamD + 2 ^ 10)).1 ≠ 0 ∧ (s.mxa 0).mayStart (streamD + 2 ^ 10) = true ∧
    1 ≤ t.final ∧ drainCheck (word [(0, 4), (12, 1), (16, 6), (64, 256)]) (some t) = 0 ∧ t.placed = true ∧
    drainCheck (word [(0, 4), (12, 3), (16, 6), (64, 1024)]) (some t) = 0 ∧ drainCheck 4 (some t) = 0 := by decide +kernel
/-- DmaDescriptors: a COMPRESS of a row of zeros and one of a row that does not fit its CAP, an EXPAND of an empty row, a
COPY of HBM that has its turn and one that has not, a COPY to another module. -/
theorem witness_dma_forms : let w (op r : Nat) : Nat := word [(0, op), (10, 2), (64, 2 ^ 32), (128, 2 ^ 32 + 8192), (256, 1), (288, 64),
        (384, 2 ^ 32 + 16384)] + r
    let c := w 2 (word [(448, 50), (456, 1024)])
    let es := (List.range 16).map (fun k => (k, base.loftNum 0 (4 * k) 4))
    let hbm := word [(0, 1), (64, 2 ^ 48), (128, 2 ^ 32), (256, 1), (288, 64)]
    let far := word [(0, 1), (12, 1), (18, 5), (64, 2 ^ 32), (256, 1), (288, 64)]
    let net := { pool with routes := [(5, 0xF0)], objs := [(kTopology, 1)] }
    reOp c = 2 ∧ dmEsize c = 4 ∧ dmThresh c ≠ 0xFF ∧ dmPtr c = 2 ^ 32 + 16384 ∧
    (rowRuns 4 (es.filter (fun e => e.2 ≠ 0))).length ≤ dmCap c ∧ dmCap (w 2 (2 ^ 456 * 4)) < (rowRuns 4 es).length ∧
    reOp (w 3 0) = 3 ∧ base.loftNum 0 16384 4 = 0 ∧ parseRow 4 0 (base.loft 0 0 0) = some [] ∧
    works ((copyWork 0 hbm).run plainly pool) (fun _ _ => true) = true ∧
    ((copyWork 0 hbm).run plainly { pool with clock := 2 * 10 ^ 9 }).isNone = true ∧
    dmRemote far = true ∧ dmDev far = 5 ∧ net.routable 5 = true ∧ net.freeTag = some 1 ∧
    works ((copyPackets 0 far).run plainly net) (fun ps _ => !ps.isEmpty) = true := by decide +kernel
/-- FlitsInOrder: a packet to start, in a slot that is free, that the throttle takes, and without its credits. -/
theorem witness_slots : let x := { portUp with txq := [⟨writeP, none⟩], credits := [(laneOf writeP.h, 64)] }
    let p := withPort 11 x
    x.txq = [⟨writeP, none⟩] ∧ x.tx = [] ∧ (p.port 11).slot + p.power.mt < 16 ∧ 16 ≤ ({ x with slot := 8 } : Port).slot + 8 ∧
    writeP.cost ≤ x.credit (laneOf writeP.h) ∧ portUp.credit (laneOf writeP.h) < writeP.cost := by decide +kernel
/-- FlitsInOrder: a flit that brings a READ for this module. -/
theorem witness_flit_packet : let area := readP.stream
    (cutPackets 40 area).1 = [readP] ∧ hDstDev readP.h = base.device ∧ area.length ≤ 232 ∧
    (let far := { base with routes := [(5, 0xF0)], objs := [(kTopology, 1)] }
     far.twins 5 = [0]) := by decide +kernel
/-- LinksAndTime: two routes to module 5, a flow of the first that has nothing unacknowledged and one that has, at a port
that is down and at one that is up. -/
theorem witness_twins : let f : Flow := (0, 5, 1)
    let g : Flow := (0, 5, 0)
    let s := { base with objs := [(kTopology, 1)], routes := [(5, 0x10)],
                         ports := [(0, { Port.reset with replay := [⟨5, [1], 0, [g]⟩] }), (1, portUp)] }
    s.twins 5 = [0, 1] ∧ (f.1 + f.2.1 + f.2.2) % 2 = 0 ∧ (s.port 0).linked = false ∧
    (s.port 0).downAt + s.obj kFailoverMs * 1000000 ≤ s.clock ∧ (s.port 0).holds f = false ∧ (s.port 0).holds g = true ∧
    (5 : Nat) ≠ s.device ∧ (s.port 1).linked = true ∧ (s.port 1).timedAt = none ∧
    (∀ t0, ({ portUp with timedAt := some 0 } : Port).timedAt = some t0 → s.clock < t0 + 1000000 → False) ∧
    (s.clock < 10 ^ 9 + 1000000) := by decide +kernel
/-- Messages: the tag of a stall that waits, of a row descriptor's write and of a DMA descriptor, each answered. -/
theorem witness_tag_uses : let k (sub code : Nat) := (own { kind := 4, sub := sub, vl := 3, dev := 0, part := 0, src := 0, tag := 1, code := code } []).h
    let w : Wait := { seq := 5, dst := some 3, acquire := true }
    let st := tag1 (.flag (.stall 0 5) none) (withStall { runner with waits := [w] })
    let c : RCur := { rcur copyD true false with tags := [1] }
    let dm := tag1 (.dma 0 none) (base.modShed 0 (fun x => { x with dma := { queue := [], cur := some c } }))
    let re := tag1 (.write 0 0 0) (base.setRcur 0 0 (some c))
    (st.tagOf (k 3 0)).isSome = true ∧ (st.stall 0).waits.find? (fun w => decide (w.seq = 5)) = some w ∧
    (dm.tagOf (k 4 0)).isSome = true ∧ (dm.dma 0).cur = some c ∧ bit (hAux (k 4 0)) 0 = false ∧
    (re.tagOf (k 5 0x0902)).isSome = true ∧ re.rcur 0 0 = some c ∧ c.ready = true ∧ c.todo = [] ∧ c.err = 0 ∧
    c.tags.filter (· ≠ 1) = [] ∧ re.firedOf (k 5 0x0902) = none ∧
    ({ base with fabric := { base.fabric with fired := [(1, 0, .slot 0 1)] } } : State).firedOf
      (own { kind := 4, sub := 3, vl := 0, dev := 0, part := 0, src := 0, aux := 3 } []).h = some (.slot 0 1) := by
  decide +kernel
/-- Collectives: the last result of a plan of one rank whose sidecar is here, and the sidecar after it. -/
theorem witness_instance : let d := planW 0
    let s (x : PlanSt) : State := { withPart { poolPart with plans := [(0, { x with busy := true, inst := 1 })] } with objs := [(kPlan 0 0, d)] }
    let r := (collP 1 0 (zeros 32))
    let a := s { PlanSt.reset with sides := 1 }
    let z := s { PlanSt.reset with held := 8 }
    a.collCode (arrived a r) = 0 ∧ (a.plan 0 0).isNow r.h = true ∧ hAddr r.h + (codes (plOfmt d) r.pay).length ≤ plElems d ∧
    plElems d ≤ (a.plan 0 0).held + (codes (plOfmt d) r.pay).length ∧ plSides d ≤ (a.plan 0 0).sides ∧
    (z.plan 0 0).isNow (collP 3 0 (zeros 32)).h = true ∧ plSides d ≤ (z.plan 0 0).sides + 1 ∧ plElems d ≤ (z.plan 0 0).held := by
  decide +kernel
theorem witness_plan_idle : ({ withPart poolPart with objs := [(kPlan 0 0, planW 0)] } : State).idleHbm :=
  Idle _ rfl (by decide +kernel) (by decide)
/-- TrainingStep: a list of one region of no rows and one of a row of four elements, in HBM. -/
theorem witness_region : let v := verdictW + word [(10, 2), (320, 2 ^ 48)]
    let t := { pool with objs := [(kVerdictCfg 0, v)] }
    let s := t.poke 0 (2 ^ 48 + 16) (toBytes 16 (word [(0, 2 ^ 48 + 4096), (64, 1), (88, 3), (104, 1)]))
    vcRegions v = 2 ∧ s.mapped 0 none (vcList v) 32 = true ∧ s.badRegion 0 (word [(104, 1)]) = false ∧
    s.badRegion 0 (word [(0, 2 ^ 48 + 4096), (64, 1), (88, 3), (104, 1)]) = false ∧
    s.badRegion 0 (word [(0, 2 ^ 48 + 4100), (64, 1), (88, 3), (104, 1)]) = true ∧ s.ecc = [] := by decide +kernel
/-- MirrorAndAlternates: alternate copies that no mirror reads and one that a waiting mirror reads; a boundary that makes
a mirror due. -/
theorem witness_alternates : let s := training Part.reset.train []
    let m := Part.reset.mirror
    let w : Mirror := { m with waitSched := [{ step := 1, srcs := [], copies := [(0, 1)], snap := [] }] }
    let d := { s with objs := (kMirrorCfg 0, word [(0, 1), (32, 1)]) :: s.objs }
    s.specGroups 0 ≠ [] ∧ s.flipTables 0 = [] ∧ 1 - grCur (s.obj (kGroup 0 0)) = 1 ∧ m.reads 0 1 = false ∧ w.reads 0 1 = true ∧
    w.nextDue ≠ none ∧ d.mirrorDue 0 ((d.obj (kStep 0) + 1) % 2 ^ 64) = true ∧
    s.mirrorDue 0 ((s.obj (kStep 0) + 1) % 2 ^ 64) = false := by decide +kernel
/-- DictionaryWritesAndBlobs: SHEDS of a partition whose staging granule can move, and one whose cannot; a counter with an
untaken wrap. -/
theorem witness_sheds : let s (fs : FMap Frame) : State :=
      { base with parts := (1, { Part.reset with stage := [near] }) :: base.parts, frames := fs }
    ((s []).setSheds 1 (2 ^ 8)).isSome = true ∧
    ((s ((List.range 715).map (fun f => (1024 + f, ⟨some 2, false⟩)))).setSheds 1 (2 ^ 8)).isNone = true ∧
    2 ^ 48 ≤ (({ base with perfs := [(0, { count := 2 ^ 48, wrap := false })] } : State).perf 0).count := by decide +kernel
/-- Every clause that asks for clean sectors. -/
theorem witness_clean : ∀ k, pool.check k = 0 := Clean _ rfl

end Sys2Proof.Tests
end

section
/-!
SUPPORT and O3. How every command is answered (R5, R25): one that names only units the module has gives a next state, any
other the stop noSuchUnit.  One lemma for each shared form, one for each meaning that is more than a tree of `if`s, then `exec`.
-/

namespace Sys2Proof.Machine

/-- An outcome is a next state: neither a stop nor a refusal. -/
def IsNext (o : Out1) : Prop := ∃ t, o = .next t

/-- An outcome is a next state where the units named are `ok`, and the stop noSuchUnit elsewhere. -/
structure AnsweredIff (ok : Bool) (o : Out1) : Prop where
  next : ok = true → IsNext o
  stop : ok = false → o = .fault .noSuchUnit

/-! ### Outcomes put together -/

theorem IsNext.next (t : State) : IsNext (.next t) := ⟨t, rfl⟩

theorem IsNext.ite {c : Prop} [Decidable c] {a b : Out1} (ha : IsNext a) (hb : IsNext b) :
    IsNext (if c then a else b) := by
  split
  · exact ha
  · exact hb

theorem AnsweredIff.always {o : Out1} (h : IsNext o) : AnsweredIff true o := ⟨fun _ => h, nofun⟩

theorem AnsweredIff.ite {ok : Bool} {c : Prop} [Decidable c] {a b : Out1} (ha : AnsweredIff ok a)
    (hb : AnsweredIff ok b) : AnsweredIff ok (if c then a else b) := by
  split
  · exact ha
  · exact hb

/-- The one place where a meaning stops: its guard holds exactly of the units the module does not have. -/
theorem AnsweredIff.guard {ok : Bool} {c : Prop} [Decidable c] {o : Out1} (hc : c ↔ ok = false) (h : IsNext o) :
    AnsweredIff ok (if c then .fault .noSuchUnit else o) where
  next hok := by rw [if_neg (by simp [hc, hok])]; exact h
  stop hok := if_pos (hc.mpr hok)

/-- The guard of a meaning that takes one unit number, of which there are `b`. -/
theorem AnsweredIff.unit {n b : Nat} {o : Out1} (h : IsNext o) :
    AnsweredIff (decide (n < b)) (if b ≤ n then .fault .noSuchUnit else o) := .guard (by simp) h

/-- The guard of a meaning that takes two unit numbers. -/
theorem AnsweredIff.units {m n a b : Nat} {o : Out1} (h : IsNext o) :
    AnsweredIff (decide (m < a) && decide (n < b)) (if a ≤ m ∨ b ≤ n then .fault .noSuchUnit else o) :=
  .guard (by simp; omega) h

/-! ### Forms shared by instructions (Machine/Operands.lean) -/

theorem issue_answered {t : Nat} {rs : List Nat} {s : State} {k : Nat → Stall → Out1} (h : ∀ p x, IsNext (k p x)) :
    AnsweredIff (decide (t < 1024)) (issue t rs s k) := .unit <| by
  split
  · exact .next _
  · exact .ite (h _ _) (.next _)

theorem illegal_isNext (p t : Nat) (s : State) : IsNext (illegal p t s) := .next _

theorem issue_illegal_answered (t : Nat) (rs : List Nat) (s : State) :
    AnsweredIff (decide (t < 1024)) (issue t rs s fun p _ => illegal p t s) := issue_answered fun _ _ => illegal_isNext _ _ _

theorem execG_answered (t : Nat) (d : BitVec 5) (rs : List Nat) (f : Stall → GRes) (s : State) :
    AnsweredIff (decide (t < 1024)) (execG t d rs f s) := issue_answered fun _ _ => .next _

theorem execGG_answered (t : Nat) (d a b : BitVec 5) (f : BitVec 64 → BitVec 64 → GRes) (s : State) :
    AnsweredIff (decide (t < 1024)) (execGG t d a b f s) := execG_answered ..

theorem execGA_answered (t : Nat) (d a : BitVec 5) (f : BitVec 64 → GRes) (s : State) :
    AnsweredIff (decide (t < 1024)) (execGA t d a f s) := execG_answered ..

theorem execGI_answered (t : Nat) (d a : BitVec 5) (imm : BitVec 15) (f : BitVec 64 → BitVec 64 → GRes) (s : State) :
    AnsweredIff (decide (t < 1024)) (execGI t d a imm f s) := execG_answered ..

theorem execShiftI_answered (t : Nat) (d a : BitVec 5) (imm : BitVec 15) (f : BitVec 64 → BitVec 64 → GRes) (s : State) :
    AnsweredIff (decide (t < 1024)) (execShiftI t d a imm f s) := .ite (execGI_answered ..) (issue_illegal_answered ..)

theorem execF_answered (t : Nat) (d : BitVec 5) (rs : List Nat) (f : Stall → ERes) (s : State) :
    AnsweredIff (decide (t < 1024)) (execF t d rs f s) := issue_answered fun _ _ => .next _

theorem execFF_answered (strict : Bool) (t : Nat) (d a b : BitVec 5) (f : FVal → FVal → FVal) (s : State) :
    AnsweredIff (decide (t < 1024)) (execFF strict t d a b f s) := execF_answered ..

theorem execFCmp_answered (t : Nat) (d a b : BitVec 5) (f : FVal → FVal → Bool) (s : State) :
    AnsweredIff (decide (t < 1024)) (execFCmp t d a b f s) := execGG_answered ..

theorem execV_answered (t : Nat) (d : BitVec 5) (p : BitVec 3) (w : Nat) (ok : Bool) (rs : List Nat) (op : Nat)
    (f : Stall → Nat → ERes) (s : State) : AnsweredIff (decide (t < 1024)) (execV t d p w ok rs op f s) :=
  issue_answered fun _ _ => .ite (.next _) (illegal_isNext _ _ _)

theorem execVV_answered (k : EtSet) (t : Nat) (d a b : BitVec 5) (p et : BitVec 3) (f : Nat → Nat → Nat → ERes)
    (s : State) : AnsweredIff (decide (t < 1024)) (execVV k t d a b p et f s) := execV_answered ..

theorem execVA_answered (k : EtSet) (t : Nat) (d a : BitVec 5) (p et : BitVec 3) (f : Nat → Nat → ERes) (s : State) :
    AnsweredIff (decide (t < 1024)) (execVA k t d a p et f s) := execV_answered ..

theorem execVVV_answered (t : Nat) (d a b c : BitVec 5) (p : BitVec 3) (ft : BitVec 2) (f : Fmt → Nat → Nat → Nat → ERes)
    (s : State) : AnsweredIff (decide (t < 1024)) (execVVV t d a b c p ft f s) := execV_answered ..

theorem execCmp_answered (k : EtSet) (t : Nat) (d : BitVec 5) (p et : BitVec 3) (rs : List Nat)
    (f : Nat → Stall → Nat → Bool) (s : State) : AnsweredIff (decide (t < 1024)) (execCmp k t d p et rs f s) := by
  unfold execCmp
  exact issue_answered fun _ _ => .ite (.next _) (illegal_isNext _ _ _)

theorem execCmpVV_answered (k : EtSet) (t : Nat) (d a b : BitVec 5) (p et : BitVec 3) (f : Nat → Nat → Nat → Bool)
    (s : State) : AnsweredIff (decide (t < 1024)) (execCmpVV k t d a b p et f s) := execCmp_answered ..

theorem execCmpVA_answered (t : Nat) (d a : BitVec 5) (p et : BitVec 3) (f : FVal → Bool) (s : State) :
    AnsweredIff (decide (t < 1024)) (execCmpVA t d a p et f s) := execCmp_answered ..

theorem execRed_answered (o : RedOp) (t : Nat) (d a : BitVec 5) (p et : BitVec 3) (s : State) :
    AnsweredIff (decide (t < 1024)) (execRed o t d a p et s) :=
  .ite (issue_answered fun _ _ => .next _) (issue_illegal_answered ..)

theorem execP_answered (ok : Bool) (t : Nat) (d : BitVec 5) (rs : List Nat) (f : Stall → BitVec 128) (s : State) :
    AnsweredIff (decide (t < 1024)) (execP ok t d rs f s) := issue_answered fun _ _ => .ite (.next _) (illegal_isNext _ _ _)

theorem execBranch_answered (t : Nat) (a b : BitVec 5) (off : BitVec 15) (c : BitVec 64 → BitVec 64 → Bool) (s : State) :
    AnsweredIff (decide (t < 1024)) (execBranch t a b off c s) := issue_answered fun _ _ => .next _

theorem launch_isNext (t : Nat) (a : Access) (now : Stall → Stall) (s : State) (x : Stall) :
    IsNext (launch t a now s x) := .ite (.next _) (.ite (.next _) (.next _))

theorem execLoad_answered (t : Nat) (a : BitVec 5) (imm : BitVec 15) (n al : Nat) (signed : Bool) (dst : Option Nat)
    (s : State) : AnsweredIff (decide (t < 1024)) (execLoad t a imm n al signed dst s) :=
  issue_answered fun _ _ => .ite (.next _) (launch_isNext ..)

theorem execStore_answered (t : Nat) (rs : List Nat) (addr : Stall → Nat) (v : Stall → BitVec 1024)
    (mask : Stall → BitVec 128) (n al : Nat) (s : State) :
    AnsweredIff (decide (t < 1024)) (execStore t rs addr v mask n al s) :=
  issue_answered fun _ _ => .ite (.next _) (launch_isNext ..)

theorem execStoreG_answered (t : Nat) (d a : BitVec 5) (imm : BitVec 15) (n : Nat) (s : State) :
    AnsweredIff (decide (t < 1024)) (execStoreG t d a imm n s) := execStore_answered ..

theorem execCtl_answered (t : Nat) (rs : List Nat) (m : Nat → Stall → Mesh) (s : State) :
    AnsweredIff (decide (t < 1024)) (execCtl t rs m s) := issue_answered fun _ _ => .ite (.next _) (.next _)

theorem execCtlG_answered (t : Nat) (d : BitVec 5) (acquire : Stall → Bool) (rs : List Nat) (m : Nat → Stall → Mesh)
    (s : State) : AnsweredIff (decide (t < 1024)) (execCtlG t d acquire rs m s) :=
  issue_answered fun _ _ => .ite (.next _) (.next _)

/-! ### Stall instructions with a form of their own -/

theorem execSrd_answered (st : Nat) (d : BitVec 5) (idx : BitVec 8) (s : State) :
    AnsweredIff (decide (st < 1024)) (execSrd st d idx s) := issue_answered fun _ _ => by
  split
  · exact .next _
  · exact illegal_isNext ..

theorem execSwr_answered (st : Nat) (a : BitVec 5) (idx : BitVec 8) (s : State) :
    AnsweredIff (decide (st < 1024)) (execSwr st a idx s) := issue_answered fun _ _ => by
  split
  · exact .next _
  · exact illegal_isNext ..

theorem execAadd_answered (st : Nat) (a b fn : BitVec 5) (s : State) :
    AnsweredIff (decide (st < 1024)) (execAadd st a b fn s) := by
  unfold execAadd
  split
  · exact issue_illegal_answered ..
  · exact issue_answered fun _ _ => .ite (.next _) (launch_isNext ..)

theorem execEvdone_answered (st : Nat) (s : State) : AnsweredIff (decide (st < 1024)) (execEvdone st s) :=
  issue_answered fun _ _ => by
  split <;> exact .next _

theorem execVcvt_answered (st : Nat) (d a b : BitVec 5) (p et : BitVec 3) (fn : BitVec 4) (s : State) :
    AnsweredIff (decide (st < 1024)) (execVcvt st d a b p et fn s) := by
  unfold execVcvt
  split
  · exact issue_illegal_answered ..
  · exact issue_answered fun _ _ => .next _

theorem execInvalidEncoding_answered (st : Nat) (w : BitVec 32) (s : State) :
    AnsweredIff (decide (st < 1024)) (execInvalidEncoding st w s) := by
  unfold execInvalidEncoding
  split
  · exact .unit (.next _)
  · exact issue_illegal_answered ..

theorem execFetchOutsideLocalMemory_answered (st : Nat) (s : State) :
    AnsweredIff (decide (st < 1024)) (execFetchOutsideLocalMemory st s) := .unit <| by
  split
  · exact .ite (.next _) (.next _)
  · exact .next _

/-! ### Accesses and control operations of a stall -/

theorem execLoadValueReturn_answered (st k : Nat) (s : State) :
    AnsweredIff (decide (st < 1024)) (execLoadValueReturn st k s) := .unit <| by
  dsimp only
  split
  · exact .next _
  · refine .ite (.next _) ?_
    split
    · exact .next _
    · exact .ite (.ite (.next _) (.next _)) (.next _)

theorem execAtomicAtHome_answered (st k : Nat) (s : State) :
    AnsweredIff (decide (st < 1024)) (execAtomicAtHome st k s) := .unit <| by
  dsimp only
  split
  · exact .next _
  · split
    · exact .next _
    · refine .ite (.ite (.next _) ?_) (.next _)
      split
      · exact .next _
      · exact .ite (.next _) (.next _)

theorem execRequestEnterWindow_answered (st k j : Nat) (s : State) :
    AnsweredIff (decide (st < 1024)) (execRequestEnterWindow st k j s) := .unit <| by
  dsimp only
  split
  · exact .next _
  · split
    · exact .next _
    · exact .ite (.next _) (.ite (.next _) (.next _))

theorem execSectorAccess_answered (e k : Nat) (errs : List (Nat × BitVec 8)) (s : State) :
    AnsweredIff (decide (e < 384)) (execSectorAccess e k errs s) := .unit <| by
  split
  · exact .next _
  · refine .ite (.next _) ?_
    split
    · exact .next _
    · split
      · exact .next _
      · split
        · exact .next _
        · exact .ite (.next _) (.next _)

theorem execControlIssue_answered (st : Nat) (s : State) : AnsweredIff (decide (st < 1024)) (execControlIssue st s) :=
  .unit <| by
  dsimp only
  split
  · exact .next _
  · refine .ite (.next _) (.ite (.next _) (.ite (.next _) ?_))
    split
    · exact .next _
    · refine .ite (.next _) ?_
      split <;> exact .next _
    · exact .next _
    · refine .ite (.next _) ?_
      split
      · exact .next _
      · exact .next _
      · split <;> exact .next _

/-! ### Operations on the control mesh -/

theorem onMesh_isNext {k : Nat} {ok : Mesh → Bool} {s : State} {f : State → Mesh → Out1} (h : ∀ s m, IsNext (f s m)) :
    IsNext (onMesh k ok s f) := by
  unfold onMesh
  split
  · exact .next _
  · exact .ite (h _ _) (.next _)

theorem execWatchArm_isNext (k : Nat) (s : State) : IsNext (execWatchArm k s) := onMesh_isNext fun _ _ => by
  refine .ite (.ite (.next _) ?_) ?_
  · dsimp only
    split <;> exact .next _
  · dsimp only
    split <;> exact .next _

theorem execWatchCancel_isNext (k : Nat) (s : State) : IsNext (execWatchCancel k s) := by
  unfold execWatchCancel
  split
  · exact .next _
  · refine .ite (.next _) ?_
    dsimp only
    split <;> exact .next _

theorem execPenOperation_isNext (k : Nat) (s : State) : IsNext (execPenOperation k s) := by
  unfold execPenOperation
  split
  · exact .next _
  · refine .ite (.next _) (.ite (.next _) (.ite (.next _) (.ite ?_ ?_)))
    · split <;> exact .next _
    · dsimp only
      split <;> exact .next _

theorem execPenSubwatchReport_isNext (k : Nat) (s : State) : IsNext (execPenSubwatchReport k s) :=
  onMesh_isNext fun _ _ => by
  split
  · exact .next _
  · dsimp only
    split
    · exact .ite (.next _) (.next _)
    · exact .ite (.next _) (.ite (.next _) (.next _))
    · exact .next _

theorem arrive_isNext (k : Nat) (ok : Mesh → Bool) (full : State → Mesh → Bool) (enter : State → Mesh → State) (s : State) :
    IsNext (arrive k ok full enter s) := by
  unfold arrive
  split
  · exact .next _
  · exact .ite (.next _) (.next _)

theorem mxArrive_isNext (op k : Nat) (s : State) : IsNext (mxArrive op k s) := arrive_isNext ..

theorem saArrive_isNext (ok : Nat → Bool) (k : Nat) (s : State) : IsNext (saArrive ok k s) := arrive_isNext ..

theorem reArrive_isNext (ok : Nat → Bool) (k : Nat) (s : State) : IsNext (reArrive ok k s) := arrive_isNext ..

theorem dmArrive_isNext (ok : Nat → Bool) (k : Nat) (s : State) : IsNext (dmArrive ok k s) := arrive_isNext ..

/-! ### Sheds -/

theorem execDelayEntryDue_answered (sh k : Nat) (s : State) :
    AnsweredIff (decide (sh < 32)) (execDelayEntryDue sh k s) := .unit <| by
  dsimp only
  split
  · exact .next _
  · refine .ite (.next _) ?_
    split <;> exact .next _

theorem execDispatch_answered (sh : Nat) (s : State) : AnsweredIff (decide (sh < 32)) (execDispatch sh s) :=
  .unit <| .ite (.next _) <| by
  dsimp only
  split <;> exact .next _

theorem execShedParity_answered (sh : Nat) (s : State) : AnsweredIff (decide (sh < 32)) (execShedParity sh s) :=
  .unit <| by
  dsimp only
  split <;> exact .next _

/-! ### Matrix array, sampler, DMA engine -/

theorem execMxaCommandStart_answered (sh : Nat) (s : State) :
    AnsweredIff (decide (sh < 32)) (execMxaCommandStart sh s) := .unit <| by
  dsimp only
  split
  · exact .next _
  · refine .ite (.next _) ?_
    split
    · exact .ite (.next _) (.next _)
    · split
      · exact .ite (.next _) (.next _)
      · exact .next _
    · exact .next _
    · split <;> exact .next _

theorem execStreamRowFinal_answered (sh : Nat) (tileB : Bool) (s : State) :
    AnsweredIff (decide (sh < 32)) (execStreamRowFinal sh tileB s) := .unit <| by
  split
  · exact .ite (.next _) (.next _)
  · exact .next _

theorem execMxaCommandComplete_answered (sh eng : Nat) (s : State) :
    AnsweredIff (decide (sh < 32)) (execMxaCommandComplete sh eng s) := .unit <| by
  dsimp only
  split
  · exact .next _
  · refine .ite (.next _) ?_
    split <;> exact .next _

theorem execSamplerDescriptorStart_answered (sh : Nat) (s : State) :
    AnsweredIff (decide (sh < 32)) (execSamplerDescriptorStart sh s) := .unit <| by
  dsimp only
  split
  · exact .next _
  · refine .ite (.next _) (.ite ?_ ?_)
    · split <;> exact .next _
    · split
      · refine .ite ?_ (.next _)
        split <;> exact .next _
      · split <;> exact .next _

theorem execSamplerDescriptorComplete_answered (sh : Nat) (s : State) :
    AnsweredIff (decide (sh < 32)) (execSamplerDescriptorComplete sh s) := .unit <| by
  split
  · exact .next _
  · dsimp only
    split <;> exact .next _

theorem execRunaheadCompute_answered (sh : Nat) (s : State) :
    AnsweredIff (decide (sh < 32)) (execRunaheadCompute sh s) := .unit <| by
  split
  · exact .next _
  · dsimp only
    split
    · exact .next _
    · exact .next _
    · exact .ite (.next _) (.next _)

theorem execDmaDescriptorStart_answered (sh : Nat) (s : State) :
    AnsweredIff (decide (sh < 32)) (execDmaDescriptorStart sh s) := .unit <| by
  dsimp only
  split
  · exact .next _
  · refine .ite (.next _) (.ite ?_ ?_)
    · split
      · exact .ite (.next _) (.ite (.next _) (.next _))
      · exact .next _
      · exact .next _
    · split <;> exact .next _

theorem execDmaDescriptorComplete_answered (sh : Nat) (s : State) :
    AnsweredIff (decide (sh < 32)) (execDmaDescriptorComplete sh s) := .unit <| by
  split
  · exact .next _
  · refine .ite (.next _) (.ite (.next _) ?_)
    dsimp only
    split <;> exact .next _

/-! ### Row engines and HBM -/

theorem execRowDescriptorStart_answered (e p : Nat) (s : State) :
    AnsweredIff (decide (e < 384) && decide (p < 32)) (execRowDescriptorStart e p s) := .units <| by
  split
  · exact .next _
  · split <;> exact .next _

theorem execRowDescriptorComplete_answered (e p : Nat) (s : State) :
    AnsweredIff (decide (e < 384) && decide (p < 32)) (execRowDescriptorComplete e p s) := .units <| by
  split
  · exact .next _
  · refine .ite (.next _) (.ite (.next _) ?_)
    dsimp only
    split <;> exact .next _

theorem execMigrateCopy_answered (e p : Nat) (s : State) :
    AnsweredIff (decide (e < 384) && decide (p < 32)) (execMigrateCopy e p s) := .units <| by
  split
  · exact .next _
  · refine .ite (.next _) ?_
    split <;> exact .next _

theorem execPrefetchHint_isNext (k : Nat) (s : State) : IsNext (execPrefetchHint k s) := by
  unfold execPrefetchHint
  split
  · exact .next _
  · exact .ite (.next _) (.ite (.next _) (.ite (.next _) (.next _)))

theorem execRefresh_answered (k ch pc : Nat) (postpone : Bool) (s : State) :
    AnsweredIff (decide (k < 12) && decide (ch < 32) && decide (pc < 2)) (execRefresh k ch pc postpone s) :=
  .guard (by simp; omega) <| .ite (.next _) <| .ite (.ite (.next _) (.next _)) <|
    .ite (.next _) (.ite (.next _) (.next _))

/-! ### Llyn ports -/

theorem execReplayTimeout_answered (k : Nat) (s : State) : AnsweredIff (decide (k < 12)) (execReplayTimeout k s) :=
  .unit <| by
  dsimp only
  split
  · exact .next _
  · exact .ite (.next _) (.next _)

/-! ### Packets -/

theorem onPacket_answered (k j : Nat) (ok : Nat → Bool) (s : State) (f : State → Arrived → Option State) :
    AnsweredIff (decide (k ≤ 12)) (onPacket k j ok s f) := .guard (by simp [loopPort]) <| by
  split <;> exact .next _

theorem onPush_answered (k j : Nat) (ok : Nat → Bool) (s : State) (f : State → Arrived → Accept) :
    AnsweredIff (decide (k ≤ 12)) (onPush k j ok s f) := .guard (by simp [loopPort]) <| by
  split
  · exact .next _
  · split <;> exact .next _

theorem onResponse_answered (k j : Nat) (ok : Nat → Bool) (s : State) (f : State → Packet → State) :
    AnsweredIff (decide (k ≤ 12)) (onResponse k j ok s f) := onPacket_answered ..

theorem execMgmtRequest_answered (k j : Nat) (s : State) : AnsweredIff (decide (k ≤ 12)) (execMgmtRequest k j s) :=
  .guard (by simp [loopPort]) <| by
  split
  · exact .next _
  · exact .ite (.next _) (.ite (.next _) (.next _))

theorem execFlagOnLastTrailer_isNext (k : Nat) (s : State) : IsNext (execFlagOnLastTrailer k s) := by
  unfold execFlagOnLastTrailer
  split
  · exact .next _
  · split
    · exact .next _
    · refine .ite (.next _) ?_
      dsimp only
      split
      · exact .next _
      · exact .next _
      · split <;> exact .next _
      · exact .next _

theorem execTransactionTimeout_isNext (tag : Nat) (s : State) : IsNext (execTransactionTimeout tag s) := by
  unfold execTransactionTimeout
  split
  · exact .next _
  · exact .ite (.next _) (.next _)

/-! ### Partitions: collectives, training, loads -/

theorem execVstartDetected_answered (p : Nat) (s : State) : AnsweredIff (decide (p < 32)) (execVstartDetected p s) :=
  .unit <| by
  dsimp only
  split
  · exact .next _
  · exact .ite (.next _) (.next _)

theorem execVerdict_answered (p : Nat) (s : State) : AnsweredIff (decide (p < 32)) (execVerdict p s) := .unit <| by
  dsimp only
  split
  · exact .next _
  · exact .ite (.next _) (.next _)

theorem execAltFreeSet_answered (p : Nat) (s : State) : AnsweredIff (decide (p < 32)) (execAltFreeSet p s) :=
  .unit <| by
  dsimp only
  split
  · exact .next _
  · exact .ite (.next _) (.next _)

theorem execMirrorStart_answered (p : Nat) (s : State) : AnsweredIff (decide (p < 32)) (execMirrorStart p s) :=
  .unit <| by
  refine .ite (.ite (.next _) ?_) (.ite (.next _) ?_)
  · dsimp only
    split <;> exact .next _
  · split
    · exact .next _
    · dsimp only
      split <;> exact .next _

theorem execMirrorCommit_answered (p : Nat) (s : State) : AnsweredIff (decide (p < 32)) (execMirrorCommit p s) := by
  refine .unit (.ite (.next _) (.ite ?_ (.ite (.next _) (.next _))))
  split <;> exact .next _

theorem execMirrorFailed_answered (p : Nat) (s : State) : AnsweredIff (decide (p < 32)) (execMirrorFailed p s) :=
  .unit <| .ite (.next _) <| by
  dsimp only
  split <;> exact .next _

/-! ### Dictionary and host -/

theorem State.serve_isNext (s : State) (k : Service) : IsNext (s.serve k) := by
  unfold State.serve
  split
  · exact .next _
  · refine .ite (.next _) ?_
    dsimp only
    split <;> exact .next _

theorem execMgmtDatagram_isNext (src port : Nat) (data : List (BitVec 8)) (s : State) :
    IsNext (execMgmtDatagram src port data s) := by
  refine .ite (.next _) (.ite (.next _) ?_)
  split
  · exact .next _
  · exact .ite (.next _) (.next _)

theorem execEntryFetch_answered (p : Nat) (entry : BitVec 512) (s : State) :
    AnsweredIff (decide (p < 32)) (execEntryFetch p entry s) := .unit <| by
  dsimp only
  split
  · exact .ite (.next _) (.next _)
  · exact .ite (.next _) (.next _)

theorem execCompletionWrite_answered (p : Nat) (s : State) : AnsweredIff (decide (p < 32)) (execCompletionWrite p s) :=
  .unit <| .ite (.next _) <| by
  split
  · exact .next _
  · exact .next _
  · split <;> exact .next _

theorem execBar4Access_answered (fn : Nat) (write : Bool) (off len : Nat) (data : List (BitVec 8)) (s : State) :
    AnsweredIff (decide (fn < 33)) (execBar4Access fn write off len data s) := .unit <| .ite (.next _) <| by
  split
  · exact .next _
  · exact .ite (.next _) (.next _)

/-! ### Seasons, power, flash, counters -/

theorem execPersistCommit_isNext (s : State) : IsNext (execPersistCommit s) := by
  unfold execPersistCommit
  split
  · exact .ite (.next _) (.next _)
  · exact .next _

theorem execSafeEnd_isNext (endOfStep ok : Bool) (mask : Nat) (s : State) : IsNext (execSafeEnd endOfStep ok mask s) := by
  unfold execSafeEnd
  dsimp only
  split
  · exact .ite (.ite (.next _) (.next _)) <| .ite (.next _) <| .ite (.next _) <| .ite (.next _) <| .ite (.next _) <|
      .ite (.next _) (.next _)
  · exact .ite (.ite (.next _) (.next _)) <| .ite (.ite (.next _) (.ite (.next _) (.next _))) <| .ite (.next _) <|
      .ite (.next _) <| .ite (.next _) (.next _)
  · exact .next _

theorem execBackgroundRetry_answered (stack : Bool) (k : Nat) (ok : Bool) (s : State) :
    AnsweredIff (decide (k < (if stack then 12 else 32))) (execBackgroundRetry stack k ok s) :=
  .unit <| .ite (.next _) <| .ite (.ite (.next _) (.ite (.next _) (.next _))) <| .ite (.next _) <| .ite (.next _) (.next _)

theorem execSensorRead_isNext (yards : List Int) (other : Int) (regFault : Bool) (s : State) :
    IsNext (execSensorRead yards other regFault s) := by
  refine .ite (.next _) ?_
  dsimp only
  split
  · exact .next _
  · exact .ite (.next _) (.ite (.next _) (.next _))

theorem execCounterWrap_answered (kind k : Nat) (s : State) :
    AnsweredIff (decide (kind = 0 ∧ k < 1024 ∨ kind = 1 ∧ k < 16)) (execCounterWrap kind k s) := by
  unfold execCounterWrap
  split
  · exact .guard (by simp) (.next _)
  · exact .guard (by simp) (.next _)
  · exact ⟨by simp_all, fun _ => rfl⟩

/-! ### Every command -/

/-- The arms are grouped by the form of the meaning.  Where a meaning is a guard and a tree of `if`s, the arm writes that
tree. -/
theorem exec_answered (i : Instr) (s : State) : AnsweredIff i.unitsOk (exec i s) := by
  delta exec
  cases i with
  | add | sub | mul | mulh | mulhu | div | divu | rem | remu | and | or | xor | shl | shr | sra | slt | sltu | min |
    max | addw | subw | mulw | divw | divuw | remw | remuw | shlw | shrw | sraw => exact execGG_answered ..
  | neg | abs | negw | absw | fcvtFI | fcvtIF => exact execGA_answered ..
  | addi | addiw | andi | ori | xori | slti => exact execGI_answered ..
  | shli | shri | srai => exact execShiftI_answered ..
  | lui => exact execG_answered ..
  | ldB | ldH | ldW | ldD | ldBu | ldHu | ldWu | vld => exact execLoad_answered ..
  | stB | stH | stW | stD => exact execStoreG_answered ..
  | vst | vstp => exact execStore_answered ..
  | beq | bne | blt | bge | bltu | bgeu => exact execBranch_answered ..
  | jal | jalr => exact issue_answered fun _ _ => .next _
  | fence | getWork => exact issue_answered fun _ _ => .ite (.next _) (.next _)
  | srd => exact execSrd_answered ..
  | swr => exact execSwr_answered ..
  | fadd | fsub | fmul | fdiv | fmin | fmax => exact execFF_answered ..
  | feq | flt | fle => exact execFCmp_answered ..
  | fmadd | fsqrt => exact execF_answered ..
  | aadd => exact execAadd_answered ..
  | acas => exact issue_answered fun _ _ => .ite (.next _) (launch_isNext ..)
  | evdone => exact execEvdone_answered ..
  | evpush | send | hpush | fset | fclr => exact execCtl_answered ..
  | ftest | wcancel => exact execCtlG_answered ..
  | watch => exact .ite (issue_illegal_answered ..) (execCtlG_answered ..)
  | ucmd => exact .ite (issue_illegal_answered ..) (issue_answered fun _ _ => .ite (.next _) (.next _))
  | mxInstruction => exact .ite (issue_illegal_answered ..) (execCtl_answered ..)
  | vadd | vsub | vmul | vmin | vmax | vadds | vsubs | vmuls | vand | vor | vxor | vshl | vshr | vsra | vdiv |
    vexpd => exact execVV_answered ..
  | vcmpEq | vcmpNe | vcmpLt | vcmpLe | vcmpLtu | vcmpLeu => exact execCmpVV_answered ..
  | vperm | vbcast => exact execV_answered ..
  | vabs | vneg | vabss | vnegs | vmov | vsqrt | vrcp | vrsqrt | vexp2 | vexpe | vlog2 | vln =>
    exact execVA_answered ..
  | vcmpIsnan | vcmpIsinf => exact execCmpVA_answered ..
  | vredRsum | vredRmax | vredRmin => exact execRed_answered ..
  | vcvt => exact execVcvt_answered ..
  | vfma | vfms | vclamp => exact execVVV_answered ..
  | vrand | vrandc => exact issue_answered fun _ _ => .ite (illegal_isNext _ _ _) (.next _)
  | vcvtmx => exact .ite (issue_illegal_answered ..) (issue_answered fun _ _ => .next _)
  | pand | por | pxor | pnot | pcnt => exact execP_answered ..
  | vget => exact .ite (execG_answered ..) (issue_illegal_answered ..)
  | loadValueReturn => exact execLoadValueReturn_answered ..
  | controlIssue => exact execControlIssue_answered ..
  | flagSet | flagClear | flagTest => exact .always (onMesh_isNext fun _ _ => .next _)
  | watchArm => exact .always (execWatchArm_isNext ..)
  | watchCancel => exact .always (execWatchCancel_isNext ..)
  | penOperation => exact .always (execPenOperation_isNext ..)
  | penSubwatchReport => exact .always (execPenSubwatchReport_isNext ..)
  | eventPush | mailboxDelivery | perstN | vinLow | powerLoss | pwrBrake | unownedStateError =>
    exact .always (.next _)
  | delayEntryDue => exact execDelayEntryDue_answered ..
  | dispatch => exact execDispatch_answered ..
  | shedSleep | shedWake | cacheCounterHalve | patrolScrub | flitSend | nrdyRetry | linkDown | failover |
    flowMoveBack | mboxGo | sqTail | cqHead | msixRaise | mmioRegisterWrite | loadEnd | partitionStopped | droop |
    droopRestore => exact .unit (.ite (.next _) (.next _))
  | mxLoadw | mxStream | mxSpstream | mxDrain | mxReset => exact .always (mxArrive_isNext ..)
  | mxaCommandStart => exact execMxaCommandStart_answered ..
  | streamRowFinal => exact execStreamRowFinal_answered ..
  | mxaCommandComplete => exact execMxaCommandComplete_answered ..
  | sample | score => exact .always (saArrive_isNext ..)
  | samplerDescriptorStart => exact execSamplerDescriptorStart_answered ..
  | samplerDescriptorComplete => exact execSamplerDescriptorComplete_answered ..
  | runaheadCompute => exact execRunaheadCompute_answered ..
  | prefetchHint => exact .always (execPrefetchHint_isNext ..)
  | gather | pool | replay | scatter | flush | applyOrdered | opt8 | tswitch | replicate | migrate =>
    exact .always (reArrive_isNext ..)
  | rowDescriptorStart => exact execRowDescriptorStart_answered ..
  | rowDescriptorComplete => exact execRowDescriptorComplete_answered ..
  | migrateCopy => exact execMigrateCopy_answered ..
  | requestEnterWindow => exact execRequestEnterWindow_answered ..
  | sectorAccess => exact execSectorAccess_answered ..
  | atomicAtHome => exact execAtomicAtHome_answered ..
  | hotRowsRead | tableDescPend | hbmLayoutWrite | mirrorCtrlNow | odRead | odWrite | blobRead | blobWrite | acquire |
    renew | release | shedsWrite | ringConfigWrite | start | stop | nanTrapRearm | stallFaultRearm | seasonOn |
    seasonOff | faultClear | perfSelWrite | commit | restart | fwSlotWrite => exact .always (State.serve_isNext ..)
  | copy | compress | expand => exact .always (dmArrive_isNext ..)
  | dmaDescriptorStart => exact execDmaDescriptorStart_answered ..
  | dmaDescriptorComplete => exact execDmaDescriptorComplete_answered ..
  | refresh => exact execRefresh_answered ..
  | stackTemperatureRead | flitReceive => exact .unit (.ite (.next _) (.ite (.next _) (.ite (.next _) (.next _))))
  | recalibration | frameClearing | collectiveStart => exact .units (.ite (.next _) (.next _))
  | replayTimeout => exact execReplayTimeout_answered ..
  | trainingAttempt | timeExchange | regionScan | stepBoundary =>
    exact .unit (.ite (.next _) (.ite (.next _) (.next _)))
  | pktWrite | pktRead | pktRowAtomic | flagSetPacket | collectiveContribution | collectiveResult |
    collectiveChainSum | collectiveSidecar => exact onPacket_answered ..
  | pktReadResp | messageResult | messageAck | messageNack => exact onResponse_answered ..
  | messageEvpush | messageHpush | messageSend => exact onPush_answered ..
  | mgmtRequest => exact execMgmtRequest_answered ..
  | flagOnLastTrailer => exact .always (execFlagOnLastTrailer_isNext ..)
  | transactionTimeout => exact .always (execTransactionTimeout_isNext ..)
  | vstartDetected => exact execVstartDetected_answered ..
  | verdict => exact execVerdict_answered ..
  | altFreeSet => exact execAltFreeSet_answered ..
  | mirrorStart => exact execMirrorStart_answered ..
  | mirrorCommit => exact execMirrorCommit_answered ..
  | mirrorFailed => exact execMirrorFailed_answered ..
  | leaseExpiry => exact .unit (.next _)
  | mgmtDatagram => exact .always (execMgmtDatagram_isNext ..)
  | entryFetch => exact execEntryFetch_answered ..
  | completionWrite => exact execCompletionWrite_answered ..
  | bar4Access => exact execBar4Access_answered ..
  | powerGood | modEnEdge | faultEnter | faultExit | powerSample | mgmtLinkChange | numvfsWrite =>
    exact .always (.ite (.next _) (.next _))
  | safeEnd => exact .always (execSafeEnd_isNext ..)
  | retryBackoffExpiry | hostLinkChange => exact .always (.ite (.next _) (.ite (.next _) (.next _)))
  | backgroundRetry => exact execBackgroundRetry_answered ..
  | sensorRead => exact .always (execSensorRead_isNext ..)
  | thermalCeilingUpdate => exact .unit (.ite (.ite (.next _) (.next _)) (.ite (.next _) (.next _)))
  | persistCommit => exact .always (execPersistCommit_isNext ..)
  | shedParity => exact execShedParity_answered ..
  | invalidEncoding => exact execInvalidEncoding_answered ..
  | fetchOutsideLocalMemory => exact execFetchOutsideLocalMemory_answered ..
  | counterWrap => exact execCounterWrap_answered ..

/-- Settles O3: a meaning stops only at the guard of its unit numbers, and every branch behind it is a next state. -/
theorem wellFormedNeverStops : Obligations.WellFormedNeverStops :=
  fun i s => ⟨(exec_answered i s).next, (exec_answered i s).stop⟩

end Sys2Proof.Machine
end

section
/-!
SUPPORT and O28. A pen operation whose members are plain units of this module is forwarded to each in list order (R29, R30):
what resolving a member and forwarding to it answer, the fold over the member list, then PEN_OPERATION in its three outcomes.
-/

namespace Sys2Proof.Machine

/-! ### Members that resolve to plain units -/

/-- A plain unit that an address resolves to has the address's own INDEX (R24, R26). -/
theorem State.resolveHere_plain_idx {s : State} {p a : Nat} {fits : List Nat} {kd i : Nat}
    (h : s.resolveHere p a fits = .plain kd i) : i = uaIndex a := by
  simp only [State.resolveHere] at h
  split_ifs at h <;> cases h <;> rfl

/-- Every member is a plain unit of this module that the operation fits. -/
def State.plainMembers (s : State) (m : Mesh) (p : Nat) (as : List (BitVec 64)) : Prop :=
  ∀ a ∈ as, uaLocal a.toNat = true ∧ ∃ kd i, s.resolveHere p a.toNat m.op.fits = .plain kd i

theorem State.resolveHere_leafOp (s : State) (m : Mesh) (a i : Nat) (r : Reply) (p b : Nat) (fits : List Nat) :
    (s.leafOp m a i r).resolveHere p b fits = s.resolveHere p b fits := by
  unfold State.leafOp
  split <;> rfl

theorem State.forwardMember_plain {s : State} {m : Mesh} {p a kd i : Nat} (hl : uaLocal a = true)
    (ha : s.resolveHere p a m.op.fits = .plain kd i) (depth : Nat) (r : Reply) :
    s.forwardMember m p depth r a = some (s.leafOp m a (uaIndex a) r) := by
  simp [State.forwardMember, hl, ha, resolveHere_plain_idx ha]

/-! ### The leaves of all members -/

/-- One leaf for each member, in list order. -/
def State.leafOps (s : State) (m : Mesh) (r : Reply) (as : List (BitVec 64)) : State :=
  as.foldl (fun s a => s.leafOp m a.toNat (uaIndex a.toNat) r) s

/-- Forwarding to one member leaves unchanged what the next ones resolve to. -/
theorem State.forwardAll_plain {m : Mesh} {p : Nat} (depth : Nat) (r : Reply) {as : List (BitVec 64)} {s : State}
    (h : s.plainMembers m p as) : s.forwardAll m p depth r (as.map BitVec.toNat) = some (s.leafOps m r as) := by
  induction as generalizing s with
  | nil => rfl
  | cons a as ih =>
    obtain ⟨hl, kd, i, ha⟩ := h a (by simp)
    have hrest : (s.leafOp m a.toNat (uaIndex a.toNat) r).plainMembers m p as := fun b hb => by
      simpa only [resolveHere_leafOp] using h b (by simp [hb])
    calc s.forwardAll m p depth r ((a :: as).map BitVec.toNat)
      _ = (s.leafOp m a.toNat (uaIndex a.toNat) r).forwardAll m p depth r (as.map BitVec.toNat) := by
        simp [State.forwardAll, forwardMember_plain hl ha]
      _ = some (s.leafOps m r (a :: as)) := ih hrest

/-- A leaf of an operation that is performed at its unit travels the mesh to the member. -/
theorem State.leafOps_mesh {m : Mesh} (hop : m.op ∈ [MOp.set, .clear, .test, .mx, .ucmd]) (r : Reply)
    (as : List (BitVec 64)) (s : State) :
    s.leafOps m r as = { s with mesh := s.mesh ++ as.map (fun a => { m with target := a, reply := r }) } := by
  have hpush : ¬ (m.op = .evpush ∨ m.op = .hpush ∨ m.op = .send) := by
    rintro (h | h | h) <;> simp [h] at hop
  have hleaf (s : State) (a : BitVec 64) (i : Nat) :
      s.leafOp m a.toNat i r = { s with mesh := s.mesh ++ [{ m with target := a, reply := r }] } := by
    simp [State.leafOp, hpush]
  induction as generalizing s with
  | nil => simp [leafOps]
  | cons a as ih =>
    calc s.leafOps m r (a :: as)
      _ = { s with mesh := s.mesh ++ [{ m with target := a, reply := r }] }.leafOps m r as := by
        rw [leafOps, List.foldl_cons, hleaf]; rfl
      _ = _ := by rw [ih]; simp

/-- The event that an EVPUSH to a pen offers the queue of one member. -/
def Mesh.memberPush (m : Mesh) (r : Reply) (a : BitVec 64) : Push :=
  { queue := uaIndex a.toNat, kind := BitVec.ofNat 4 m.n, ev := m.data.setWidth 256, stall := m.stall, part := m.part % 32,
    reply := r, dev := m.dev }

theorem State.leafOps_evpush {m : Mesh} (hop : m.op = .evpush) (r : Reply) (as : List (BitVec 64)) (s : State) :
    s.leafOps m r as = { s with pushes := s.pushes ++ as.map (m.memberPush r) } := by
  have hleaf (s : State) (a : BitVec 64) :
      s.leafOp m a.toNat (uaIndex a.toNat) r = { s with pushes := s.pushes ++ [m.memberPush r a] } := by
    simp [State.leafOp, Mesh.memberPush, hop]
  induction as generalizing s with
  | nil => simp [leafOps]
  | cons a as ih =>
    calc s.leafOps m r (a :: as)
      _ = { s with pushes := s.pushes ++ [m.memberPush r a] }.leafOps m r as := by
        rw [leafOps, List.foldl_cons, hleaf]; rfl
      _ = _ := by rw [ih]; simp

/-! ### PEN_OPERATION -/

/-- Giving a tag back touches the stalls alone. -/
theorem State.giveTag_eq (s : State) (t : Nat) (id : Option Nat) : ∃ x, s.giveTag t id = { s with stalls := x } := by
  unfold State.giveTag
  split
  · split <;> exact ⟨_, rfl⟩
  · exact ⟨_, rfl⟩

theorem removeAt_eq_eraseIdx {α : Type} (l : List α) (k : Nat) : removeAt l k = l.eraseIdx k :=
  (List.eraseIdx_eq_take_drop_succ l k).symm

/-- The pen operation at place `k` of the mesh gives way to a count of `n` members. -/
def State.countPen (s : State) (k n : Nat) (r : Reply) : State :=
  { s with mesh := s.mesh.eraseIdx k, ctr := s.ctr + 1, penOps := s.penOps ++
      [{ id := s.ctr, left := n, acc := true, wid := 0, isWatch := false, reply := r }] }

section
variable {s : State} {k : Nat} {m : Mesh} (hm : s.mesh[k]? = some m) (hp : m.toPen = true) (ht : s.leafTurn k m = true)
include hm hp ht

theorem execPenOperation_deep (hd : 8 ≤ m.depth) :
    execPenOperation k s = .next ({ s with mesh := s.mesh.eraseIdx k }.penFail m 0x0504) := by
  simp [execPenOperation, hm, hp, ht, removeAt_eq_eraseIdx, Nat.lt_succ_of_le hd]

theorem execPenOperation_misfit (hd : m.depth < 8) (hf : s.penFits m.idx m.op = false) :
    execPenOperation k s = .next ({ s with mesh := s.mesh.eraseIdx k }.penFail m 0x0505) := by
  simp [execPenOperation, hm, hp, ht, removeAt_eq_eraseIdx, hf, Nat.not_lt.mpr (Nat.succ_le_of_lt hd)]

/-- Below depth 8 and where the leaves fit, the members take the operation and the UCMD's tag is given back. -/
theorem execPenOperation_forward (hd : m.depth < 8) (hf : s.penFits m.idx m.op = true) (hw : m.op ≠ .watch) {t : State}
    (hall : (s.countPen k (s.penMembers m.idx).length m.reply).forwardAll m ((s.owner (m.idx / 512)).getD 0) (m.depth + 1)
      (.agg s.ctr) ((s.penMembers m.idx).map BitVec.toNat) = some t) :
    execPenOperation k s = .next (t.giveTag m.stall m.tagId) := by
  have hdepth : ¬ 8 < m.depth + 1 := by omega
  simp only [State.countPen] at hall
  simp only [execPenOperation, State.tick1, hm, hp, ht, hf, hw, hdepth, removeAt_eq_eraseIdx, List.length_map, hall,
    Bool.true_eq_false, or_self, if_false]

theorem execPenOperation_plain (hd : m.depth < 8) (hf : s.penFits m.idx m.op = true) (hw : m.op ≠ .watch)
    (h : s.plainMembers m ((s.owner (m.idx / 512)).getD 0) (s.penMembers m.idx)) :
    ∃ x, execPenOperation k s = .next { (s.countPen k (s.penMembers m.idx).length m.reply).leafOps m (.agg s.ctr)
      (s.penMembers m.idx) with stalls := x } := by
  rw [execPenOperation_forward hm hp ht hd hf hw (State.forwardAll_plain _ _ h)]
  obtain ⟨x, hx⟩ := State.giveTag_eq _ m.stall m.tagId
  exact ⟨x, congrArg _ hx⟩

end

/-- Settles O28: the fold over the members gives one leaf for each, and depth and KIND are checked before it. -/
theorem penOperations : Obligations.PenOperations := by
  intro s k m hm hp ht
  refine ⟨fun hd hf => ⟨fun hop h => ?_, fun hop h => ?_⟩, fun hd => execPenOperation_deep hm hp ht hd,
    fun hd hf => execPenOperation_misfit hm hp ht hd hf⟩
  · have hw : m.op ≠ .watch := by rintro hw; simp [hw] at hop
    obtain ⟨x, hx⟩ := execPenOperation_plain hm hp ht hd hf hw h
    rw [State.leafOps_mesh hop] at hx
    exact ⟨_, hx, rfl, rfl, rfl⟩
  · have hplain : s.plainMembers m ((s.owner (m.idx / 512)).getD 0) (s.penMembers m.idx) := fun a ha =>
      have ⟨hl, hr⟩ := h a ha
      ⟨hl, 3, _, by rw [hop]; exact hr⟩
    obtain ⟨x, hx⟩ := execPenOperation_plain hm hp ht hd hf (by simp [hop]) hplain
    rw [State.leafOps_evpush hop] at hx
    exact ⟨_, hx, rfl, rfl, rfl, rfl⟩

end Sys2Proof.Machine
end

section
/-!
SUPPORT, O6 and O58. Rounding to nearest with ties to even in terms of quotient and remainder (R46), and the state after reset.
-/

namespace Sys2Proof.Machine

/-- Rounding to a coarser exponent in terms of quotient and remainder: up when the remainder is above half a unit, or is
half a unit over an odd quotient (R46). -/
theorem rne_coarser (m k : Nat) (e l : Int) (hk : (l - e).toNat = k + 1) :
    rne m e l = if 2 ^ k < m % 2 ^ (k + 1) ∨ (m % 2 ^ (k + 1) = 2 ^ k ∧ m / 2 ^ (k + 1) % 2 = 1)
      then m / 2 ^ (k + 1) + 1 else m / 2 ^ (k + 1) := by
  have hle : ¬ l ≤ e := by omega
  have hr : m - m / 2 ^ (k + 1) * 2 ^ (k + 1) = m % 2 ^ (k + 1) := by
    rw [Nat.mul_comm, Nat.mod_eq_sub]
  simp only [rne, hle, if_false, hk, Nat.shiftRight_eq_div_pow, Nat.shiftLeft_eq, hr, Nat.add_sub_cancel, one_mul]

/-- Settles O6: the rounded count is the quotient or one more, and the remainder is its distance from a unit. -/
theorem roundNearestEven : Obligations.RoundNearestEven := by
  intro m e l hl
  obtain ⟨k, hk⟩ : ∃ k, (l - e).toNat = k + 1 := ⟨(l - e).toNat - 1, by omega⟩
  have hcast : (2 : Int) ^ (k + 1) = ((2 ^ (k + 1) : Nat) : Int) := by push_cast; rfl
  simp only [rne_coarser m k e l hk, hk, hcast]
  have hhalf : 2 ^ (k + 1) = 2 * 2 ^ k := pow_succ' 2 k
  have hm : ((m / 2 ^ (k + 1) : Nat) : Int) * (2 ^ (k + 1) : Nat) + (m % 2 ^ (k + 1) : Nat) = m := by
    exact_mod_cast Nat.div_add_mod' m (2 ^ (k + 1))
  have hlt := Nat.mod_lt m (Nat.two_pow_pos (k + 1))
  generalize m / 2 ^ (k + 1) = q at *
  generalize m % 2 ^ (k + 1) = r at *
  generalize 2 ^ (k + 1) = u at *
  split
  case isTrue hup =>
    have hd : ((q + 1 : Nat) : Int) * u - m = u - r := by push_cast; linarith
    omega
  case isFalse hdown =>
    have hd : (q : Int) * u - m = -r := by linarith
    omega

/-- A general register of a stall that nothing has written reads 0 (assumption log 1). -/
theorem Stall.reset_getG (i : BitVec 5) : Stall.reset.getG i = 0 := by
  unfold Stall.getG
  split <;> rfl

/-- Settles O58: every clause reads a field of the reset state. -/
theorem resetState : Obligations.ResetState := by
  refine ⟨rfl, rfl, rfl, rfl, rfl, ?parts, ?ports, rfl, rfl, rfl, rfl, rfl, rfl, rfl, rfl, ?yards, fun _ _ => rfl,
    fun _ => Stall.reset_getG, fun _ => rfl, fun _ _ => ⟨rfl, rfl⟩⟩
  case parts => decide
  case ports => decide
  case yards => decide

end Sys2Proof.Machine
end

section
/-!
SUPPORT, O4 and O7. The scalar operations as operations on machine words of the width they work on (R57, R107), the INV rule of
the floating-point results (R59, R114), and the register forms of the scalar instructions under the frame of gd and status.
-/

namespace Sys2Proof.Machine

/-! ### Operands and results as machine words (R57, R107) -/

theorem toInt_eq_toInt_ofNat (w n : Nat) : toInt w n = (BitVec.ofNat w n).toInt := by
  simp only [toInt, BitVec.toInt_eq_toNat_cond, BitVec.toNat_ofNat]

theorem ofNat_ofInt (w : Nat) (r : Int) : BitVec.ofNat w (ofInt w r) = BitVec.ofInt w r :=
  BitVec.eq_of_toNat_eq (by rw [ofInt, ← BitVec.toNat_ofInt, BitVec.ofNat_toNat, BitVec.setWidth_eq])

theorem sext_eq (w n : Nat) : sext w n = (BitVec.ofNat w n).signExtend 64 := by
  rw [sext, toInt_eq_toInt_ofNat, BitVec.signExtend]

/-- An exact result is kept by its low bits, and overflows when these read as another number (R57). -/
theorem wrapInt_eq (w : Nat) (r : Int) :
    wrapInt w r = ((BitVec.ofInt w r).signExtend 64, if (BitVec.ofInt w r).toInt ≠ r then fOVF else 0) := by
  simp only [wrapInt, toInt_eq_toInt_ofNat, ofNat_ofInt, BitVec.signExtend, ite_not]

theorem toInt_eq_zero_iff {w : Nat} {v : BitVec w} : v.toInt = 0 ↔ v = 0 := by
  rw [← BitVec.toInt_inj]; exact Iff.of_eq (congrArg _ BitVec.toInt_zero.symm)

theorem toNat_eq_zero_iff {w : Nat} {v : BitVec w} : v.toNat = 0 ↔ v = 0 := by
  rw [← BitVec.toNat_inj]; simp

theorem toInt_eq_neg_one_iff {w : Nat} (hw : 0 < w) {v : BitVec w} : v.toInt = -1 ↔ v = BitVec.allOnes w := by
  rw [← BitVec.toInt_inj, BitVec.toInt_allOnes, if_pos hw]

/-- The quotient by zero, −1, is the word of ones (R57). -/
theorem ofInt_neg_one {w : Nat} (hw : 0 < w) : BitVec.ofInt 64 (-1) = (BitVec.allOnes w).signExtend 64 := by
  rw [BitVec.signExtend, BitVec.toInt_allOnes, if_pos hw]

/-- The negative of a word does not fit exactly when the word is the most negative one. -/
theorem toInt_neg_ne_iff {w : Nat} (hw : 0 < w) (u : BitVec w) : (-u).toInt ≠ -u.toInt ↔ u = BitVec.intMin w := by
  rw [BitVec.toInt_neg_eq_ite]
  by_cases hu : u = BitVec.intMin w
  · have hpos : (0 : Int) < 2 ^ (w - 1) := by positivity
    have hmin := BitVec.toInt_intMin_of_pos hw
    simp only [hu, if_true, iff_true, ne_eq]
    omega
  · simp [hu]

/-- The quotient does not fit exactly for the most negative word by −1 (R57). -/
theorem toInt_sdiv_ne_iff {w : Nat} (hw : 0 < w) (u v : BitVec w) :
    (u.sdiv v).toInt ≠ u.toInt.tdiv v.toInt ↔ u = BitVec.intMin w ∧ v = BitVec.allOnes w := by
  constructor
  · intro hne
    by_contra hnot
    rw [not_and_or, ← BitVec.neg_one_eq_allOnes] at hnot
    exact hne (BitVec.toInt_sdiv_of_ne_or_ne u v hnot)
  · rintro ⟨rfl, rfl⟩
    have hlt := BitVec.toInt_lt (x := (BitVec.intMin w).sdiv (BitVec.allOnes w))
    rw [(toInt_eq_neg_one_iff hw).mpr rfl, BitVec.toInt_intMin_of_pos hw, Int.tdiv_neg, Int.tdiv_one, neg_neg]
    exact hlt.ne

section
variable {w : Nat} {a b : BitVec 64} {u v : BitVec w} (hu : a.setWidth w = u) (hv : b.setWidth w = v)

section
include hu

theorem sgn_eq : sgn w a = u.toInt := by rw [sgn, toInt_eq_toInt_ofNat, BitVec.ofNat_toNat, hu]

theorem uns_eq : uns w a = u.toNat := by rw [uns, ← hu, BitVec.toNat_setWidth]

theorem aluShl_eq : aluShl w a b = ((u <<< (b.toNat % w)).signExtend 64, 0) := by
  have hshift : BitVec.ofNat w (u.toNat <<< (b.toNat % w)) = u <<< (b.toNat % w) :=
    BitVec.eq_of_toNat_eq (by rw [BitVec.toNat_ofNat, BitVec.toNat_shiftLeft])
  rw [aluShl, sext_eq, uns_eq hu, hshift]

theorem aluShr_eq : aluShr w a b = ((u >>> (b.toNat % w)).signExtend 64, 0) := by
  have hshift : BitVec.ofNat w (u.toNat >>> (b.toNat % w)) = u >>> (b.toNat % w) := by
    rw [← BitVec.toNat_ushiftRight, BitVec.ofNat_toNat, BitVec.setWidth_eq]
  rw [aluShr, sext_eq, uns_eq hu, hshift]

theorem aluSra_eq : aluSra w a b = ((u.sshiftRight (b.toNat % w)).signExtend 64, 0) := by
  rw [aluSra, sgn_eq hu, BitVec.signExtend, BitVec.toInt_sshiftRight, Int.shiftRight_eq_div_pow]
  norm_cast

theorem aluNeg_eq (hw : 0 < w) :
    aluNeg w a = ((-u).signExtend 64, if u = BitVec.intMin w then fOVF else 0) := by
  rw [aluNeg, wrapInt_eq, sgn_eq hu, BitVec.ofInt_neg, BitVec.ofInt_toInt]
  simp only [toInt_neg_ne_iff hw]

theorem aluAbs_eq (hw : 0 < w) :
    aluAbs w a = ((if u.slt 0 then -u else u).signExtend 64, if u = BitVec.intMin w then fOVF else 0) := by
  rw [aluAbs, wrapInt_eq, sgn_eq hu]
  by_cases hneg : u.toInt < 0
  · have hslt : u.slt 0 = true := by rw [BitVec.slt_iff_toInt_lt]; simpa using hneg
    rw [Int.ofNat_natAbs_of_nonpos hneg.le, BitVec.ofInt_neg, BitVec.ofInt_toInt, if_pos hslt]
    simp only [toInt_neg_ne_iff hw]
  · have hslt : ¬ u.slt 0 = true := by rw [BitVec.slt_iff_toInt_lt]; simpa using hneg
    have hmin : u ≠ BitVec.intMin w := by
      rintro rfl
      have hpos : (0 : Int) < 2 ^ (w - 1) := by positivity
      rw [BitVec.toInt_intMin_of_pos hw] at hneg
      omega
    rw [Int.natAbs_of_nonneg (by omega), BitVec.ofInt_toInt, if_neg hslt, if_neg hmin, if_neg (by simp)]

end

include hu hv

theorem aluAdd_eq : aluAdd w a b = ((u + v).signExtend 64, if (u + v).toInt ≠ u.toInt + v.toInt then fOVF else 0) := by
  rw [aluAdd, wrapInt_eq, sgn_eq hu, sgn_eq hv, BitVec.ofInt_add, BitVec.ofInt_toInt, BitVec.ofInt_toInt]

theorem aluSub_eq : aluSub w a b = ((u - v).signExtend 64, if (u - v).toInt ≠ u.toInt - v.toInt then fOVF else 0) := by
  rw [aluSub, wrapInt_eq, sgn_eq hu, sgn_eq hv, Int.sub_eq_add_neg, BitVec.ofInt_add, BitVec.ofInt_neg, BitVec.ofInt_toInt,
    BitVec.ofInt_toInt, ← BitVec.sub_eq_add_neg]

theorem aluMul_eq : aluMul w a b = ((u * v).signExtend 64, if (u * v).toInt ≠ u.toInt * v.toInt then fOVF else 0) := by
  rw [aluMul, wrapInt_eq, sgn_eq hu, sgn_eq hv, BitVec.ofInt_mul, BitVec.ofInt_toInt, BitVec.ofInt_toInt]

theorem aluDivu_eq (hw : 0 < w) : aluDivu w a b =
    ((if v = 0 then BitVec.allOnes w else u / v).signExtend 64, if v = 0 then fDZ else 0) := by
  simp only [aluDivu, uns_eq hu, uns_eq hv, sext_eq, ← BitVec.udiv_def, toNat_eq_zero_iff, ofInt_neg_one hw]
  split <;> rfl

theorem aluRemu_eq : aluRemu w a b = ((if v = 0 then u else u % v).signExtend 64, if v = 0 then fDZ else 0) := by
  simp only [aluRemu, uns_eq hu, uns_eq hv, sext_eq, ← BitVec.umod_def, BitVec.ofNat_toNat, BitVec.setWidth_eq,
    toNat_eq_zero_iff]
  split <;> rfl

theorem aluDiv_eq (hw : 0 < w) : aluDiv w a b = ((if v = 0 then BitVec.allOnes w else u.sdiv v).signExtend 64,
    if v = 0 then fDZ else if u = BitVec.intMin w ∧ v = BitVec.allOnes w then fOVF else 0) := by
  have hquot : BitVec.ofInt w (u.toInt.tdiv v.toInt) = u.sdiv v :=
    BitVec.eq_of_toInt_eq (by rw [BitVec.toInt_ofInt, BitVec.toInt_sdiv])
  simp only [aluDiv, sgn_eq hu, sgn_eq hv, wrapInt_eq, hquot, toInt_sdiv_ne_iff hw, toInt_eq_zero_iff, ofInt_neg_one hw]
  split <;> rfl

theorem aluRem_eq (hw : 0 < w) : aluRem w a b = ((if v = 0 then u else u.srem v).signExtend 64,
    if v = 0 then fDZ else if u = BitVec.intMin w ∧ v = BitVec.allOnes w then fOVF else 0) := by
  simp only [aluRem, sgn_eq hu, sgn_eq hv, ← BitVec.toInt_srem, toInt_eq_zero_iff, ← BitVec.toInt_intMin_of_pos hw,
    BitVec.toInt_inj, toInt_eq_neg_one_iff hw, BitVec.signExtend]
  split <;> rfl

end

/-! ### Forms of 64 bits only (R107) -/

theorem aluMulh_eq (u v : BitVec 64) :
    aluMulh u v = ((u.signExtend 128 * v.signExtend 128).extractLsb' 64 64, 0) := by
  have hprod : u.signExtend 128 * v.signExtend 128 = BitVec.ofInt 128 (u.toInt * v.toInt) := by
    rw [BitVec.ofInt_mul, BitVec.signExtend, BitVec.signExtend]
  rw [aluMulh, hprod]
  generalize u.toInt * v.toInt = z
  refine Prod.ext (BitVec.eq_of_toNat_eq ?_) rfl
  simp only [BitVec.toNat_ofInt, BitVec.extractLsb'_toNat, Nat.shiftRight_eq_div_pow]
  omega

theorem aluMulhu_eq (u v : BitVec 64) :
    aluMulhu u v = ((u.setWidth 128 * v.setWidth 128).extractLsb' 64 64, 0) := by
  refine Prod.ext (BitVec.eq_of_toNat_eq ?_) rfl
  have hu := u.isLt
  have hv := v.isLt
  have hlt : u.toNat * v.toNat < 2 ^ 128 := lt_of_lt_of_le (Nat.mul_lt_mul'' hu hv) (by norm_num)
  simp only [aluMulhu, BitVec.toNat_ofNat, BitVec.extractLsb'_toNat, BitVec.toNat_mul, BitVec.toNat_setWidth,
    Nat.shiftRight_eq_div_pow]
  rw [Nat.mod_eq_of_lt (hu.trans (by norm_num) : u.toNat < 2 ^ 128), Nat.mod_eq_of_lt (hv.trans (by norm_num) : v.toNat < 2 ^ 128),
    Nat.mod_eq_of_lt hlt]

theorem aluSlt_eq (u v : BitVec 64) : aluSlt u v = (if u.slt v then 1 else 0, 0) := by
  simp only [aluSlt, BitVec.slt_iff_toInt_lt]

theorem aluSltu_eq (u v : BitVec 64) : aluSltu u v = (if u.ult v then 1 else 0, 0) := by
  simp only [aluSltu, BitVec.ult_iff_toNat_lt]

theorem aluMin_eq (u v : BitVec 64) : aluMin u v = (if v.slt u then v else u, 0) := by
  simp only [aluMin, BitVec.slt_iff_toInt_lt, ← not_le, ite_not]

theorem aluMax_eq (u v : BitVec 64) : aluMax u v = (if u.slt v then v else u, 0) := by
  simp only [aluMax, BitVec.slt_iff_toInt_lt, le_iff_lt_or_eq, BitVec.toInt_inj]
  by_cases heq : u = v
  · simp [heq]
  · simp [heq]

/-! ### Instructions -/

section
variable {s : State} {t p : Nat} {a b : BitVec 5} (d : BitVec 5) {r : BitVec 64} {f : BitVec 4}

/-- gd and status of an instruction on two registers that can run, by the result of its operation (R107). -/
theorem execGG_run (h : s.canRun t p [a.toNat, b.toNat]) {g : BitVec 64 → BitVec 64 → GRes}
    (hg : g ((s.stall t).getG a) ((s.stall t).getG b) = (r, f)) :
    Alters s t (execGG t d a b g s) fun y => GWrite (s.stall t) y d r f := by
  have hrun := execG_run d (fun x => g (x.getG a) (x.getG b)) h
  rwa [hg] at hrun

/-- The same on one register. -/
theorem execGA_run (h : s.canRun t p [a.toNat]) {g : BitVec 64 → GRes} (hg : g ((s.stall t).getG a) = (r, f)) :
    Alters s t (execGA t d a g s) fun y => GWrite (s.stall t) y d r f := by
  have hrun := execG_run d (fun x => g (x.getG a)) h
  rwa [hg] at hrun

end

/-- Settles O4: each operation's result as a machine word of 64 or 32 bits, under the shared frame of gd and status. -/
theorem scalarIntegerRules : Obligations.ScalarIntegerRules := by
  constructor
  · intro s st p d a b h x u v ov W
    have ha : s.canRun st p [a.toNat] := h.mono (by simp)
    have hu : u.setWidth 64 = u := BitVec.setWidth_eq u
    have hv : v.setWidth 64 = v := BitVec.setWidth_eq v
    have two {g : BitVec 64 → BitVec 64 → GRes} {r : BitVec 64} {f} (hg : g u v = (r.signExtend 64, f)) :=
      execGG_run d h (hg.trans (by rw [BitVec.signExtend_eq]))
    have one {g : BitVec 64 → GRes} {r : BitVec 64} {f} (hg : g u = (r.signExtend 64, f)) :=
      execGA_run d ha (hg.trans (by rw [BitVec.signExtend_eq]))
    exact ⟨two (aluAdd_eq hu hv), two (aluSub_eq hu hv), two (aluMul_eq hu hv), execGG_run d h (aluMulh_eq u v),
      execGG_run d h (aluMulhu_eq u v), two (aluDiv_eq hu hv (by decide)), two (aluDivu_eq hu hv (by decide)),
      two (aluRem_eq hu hv (by decide)), two (aluRemu_eq hu hv), execGG_run d h rfl, execGG_run d h rfl,
      execGG_run d h rfl, two (aluShl_eq hu), two (aluShr_eq hu), two (aluSra_eq hu), execGG_run d h (aluSlt_eq u v),
      execGG_run d h (aluSltu_eq u v), execGG_run d h (aluMin_eq u v), execGG_run d h (aluMax_eq u v),
      one (aluNeg_eq hu (by decide)), one (aluAbs_eq hu (by decide))⟩
  · intro s st p d a b h x u v n ov W
    have ha : s.canRun st p [a.toNat] := h.mono (by simp)
    have hu : (x.getG a).setWidth 32 = u := rfl
    have hv : (x.getG b).setWidth 32 = v := rfl
    exact ⟨execGG_run d h (aluAdd_eq hu hv), execGG_run d h (aluSub_eq hu hv), execGG_run d h (aluMul_eq hu hv),
      execGG_run d h (aluDiv_eq hu hv (by decide)), execGG_run d h (aluDivu_eq hu hv (by decide)),
      execGG_run d h (aluRem_eq hu hv (by decide)), execGG_run d h (aluRemu_eq hu hv), execGG_run d h (aluShl_eq hu),
      execGG_run d h (aluShr_eq hu), execGG_run d h (aluSra_eq hu), execGA_run d ha (aluNeg_eq hu (by decide)),
      execGA_run d ha (aluAbs_eq hu (by decide))⟩
/-! ### FP32 instructions (R108) -/

/-- An operation that is not strict sets INV for a NaN made from operands that are no NaN (R59, log 53). -/
theorem fRes_flags (f : Fmt) (args : List FVal) (r : FVal) :
    (fRes f false args r).flags = if r.isNaN && args.all (fun v => !v.isNaN) then fINV else 0 := by
  have hall : args.all (fun v => !v.isNaN) = !args.any FVal.isNaN := by rw [List.not_any_eq_all_not]
  cases hr : r.isNaN <;> cases ha : args.any FVal.isNaN <;>
    simp [fRes, nanCause, hr, ha, hall, causeConsumed, causeInvalid]

/-- A strict operation sets INV for every NaN (R114). -/
theorem fRes_strict_flags (f : Fmt) (args : List FVal) (r : FVal) :
    (fRes f true args r).flags = if r.isNaN then fINV else 0 := by
  cases hr : r.isNaN <;> cases ha : args.any FVal.isNaN <;> simp [fRes, nanCause, hr, ha, causeConsumed, causeInvalid]

section
variable {s : State} {t p : Nat} {rs : List Nat} (d : BitVec 5) (h : s.canRun t p rs)
include h

/-- An FP32 instruction that can run writes gd and hands the cause of its result to the first-NaN machinery (R60, R108). -/
theorem execF_run (f : Stall → ERes) : ∃ y,
    execF t d rs f s = .next ((s.setStall t y).nanEvents p ⟨0, 1, t, (s.stall t).pc.toNat⟩ [(0, (f (s.stall t)).cause)]) ∧
      GWrite (s.stall t) y d (BitVec.ofNat 64 (f (s.stall t)).code) (f (s.stall t)).flags :=
  ⟨_, issue_run h _, Stall.doG_gwrite _ _ _⟩

theorem execF_fRes (args : Stall → List FVal) (r : Stall → FVal) : ∃ y,
    execF t d rs (fun x => fRes fp32 false (args x) (r x)) s = .next ((s.setStall t y).nanEvents p
      ⟨0, 1, t, (s.stall t).pc.toNat⟩ [(0, nanCause (args (s.stall t)) (r (s.stall t)))]) ∧
      GWrite (s.stall t) y d (BitVec.ofNat 64 (fp32.encode (r (s.stall t))))
        (if (r (s.stall t)).isNaN && (args (s.stall t)).all (fun v => !v.isNaN) then fINV else 0) := by
  rw [← fRes_flags fp32]
  exact execF_run d h _

theorem execF_fRes_strict (args : Stall → List FVal) (r : Stall → FVal) : ∃ y,
    execF t d rs (fun x => fRes fp32 true (args x) (r x)) s = .next ((s.setStall t y).nanEvents p
      ⟨0, 1, t, (s.stall t).pc.toNat⟩ [(0, nanCause (args (s.stall t)) (r (s.stall t)))]) ∧
      GWrite (s.stall t) y d (BitVec.ofNat 64 (fp32.encode (r (s.stall t))))
        (if (r (s.stall t)).isNaN then fINV else 0) := by
  rw [← fRes_strict_flags fp32 (args (s.stall t))]
  exact execF_run d h _

end

/-- A comparison of two FP32 registers writes 1 or 0 (R48, R108). -/
theorem execFCmp_run {s : State} {t p : Nat} {a b : BitVec 5} (d : BitVec 5) (h : s.canRun t p [a.toNat, b.toNat])
    (f : FVal → FVal → Bool) : Alters s t (execFCmp t d a b f s) fun y => GWrite (s.stall t) y d
      (if f (f32of ((s.stall t).getG a)) (f32of ((s.stall t).getG b)) then 1 else 0) 0 :=
  execGG_run d h rfl

/-- A conversion to a signed 64-bit integer saturates, and sets INV where it does (R49). -/
theorem toIntTy_64 (v : FVal) : (BitVec.ofNat 64 (toIntTy 64 v).code, (toIntTy 64 v).flags) =
    (BitVec.ofInt 64 (v.toRange (-(2 ^ 63)) (2 ^ 63 - 1)).1,
      if (v.toRange (-(2 ^ 63)) (2 ^ 63 - 1)).2 then fINV else 0) :=
  Prod.ext (ofNat_ofInt 64 _) rfl

/-- Settles O7: one frame for the arithmetic forms, with the INV rule of each, and the integer frame for the others. -/
theorem scalarFloats : Obligations.ScalarFloats := by
  intro s st p d a b h x F R bad B C
  have hab : s.canRun st p [a.toNat, b.toNat] := h.mono (by simp)
  have ha : s.canRun st p [a.toNat] := h.mono (by simp)
  have two (f : FVal → FVal → FVal) := execF_fRes d hab (fun x => [f32of (x.getG a), f32of (x.getG b)])
    (fun x => f (f32of (x.getG a)) (f32of (x.getG b)))
  refine ⟨two FVal.add, two FVal.sub, two FVal.mul, two FVal.min, two FVal.max, ?div, ?sqrt, ?fma,
    execFCmp_run d hab FVal.eq, execFCmp_run d hab FVal.lt, execFCmp_run d hab FVal.le,
    execGA_run d ha (g := fun v => (BitVec.ofNat 64 (fp32.encode (fOfInt v.toInt)), 0)) rfl,
    ?toInt⟩
  case toInt =>
    exact execGA_run d ha (g := fun v => (BitVec.ofNat 64 (toIntTy 64 (f32of v)).code, (toIntTy 64 (f32of v)).flags))
      (toIntTy_64 (f32of (x.getG a)))
  case div =>
    exact execF_fRes_strict d hab (fun x => [f32of (x.getG a), f32of (x.getG b)])
      (fun x => (f32of (x.getG a)).div (f32of (x.getG b)))
  case sqrt => exact execF_fRes_strict d ha (fun x => [f32of (x.getG a)]) (fun x => (f32of (x.getG a)).sqrt)
  case fma =>
    exact execF_fRes d h (fun x => [f32of (x.getG a), f32of (x.getG b), f32of (x.getG d)])
      (fun x => FVal.fma (f32of (x.getG a)) (f32of (x.getG b)) (f32of (x.getG d)))

end Sys2Proof.Machine
end

section
/-!
SUPPORT, O8, O10 and O11. Vector integer results (R58), the elements of a vector register and the bits of a predicate after an
elementwise write (R99, R112), and the fused and comparing vector instructions.
-/

namespace Sys2Proof.Machine

/-! ### Codes as integers (R42) -/

theorem toInt_of_lt {w n : Nat} (h : n < 2 ^ w) :
    toInt w n = if 2 * n < 2 ^ w then (n : Int) else (n : Int) - 2 ^ w := by
  simp [toInt, Nat.mod_eq_of_lt h]

theorem ofInt_eq (w : Nat) (i : Int) : ofInt w i = (i % 2 ^ w).toNat := by simp [ofInt]

/-- A code of `w` bits reads as an integer in the range of `w` bits. -/
theorem toInt_bounds (w n : Nat) : -(2 ^ w : Nat) ≤ 2 * toInt w n ∧ 2 * toInt w n < (2 ^ w : Nat) := by
  have h : n % 2 ^ w < 2 ^ w := Nat.mod_lt n (Nat.two_pow_pos w)
  unfold toInt
  dsimp only
  split <;> omega

/-! ### Vector integer results (R58) -/

/-- Integer ET codes have no float format (R104). -/
theorem fmtOf_of_etInt {et : Nat} (h : etInt et = true) : fmtOf et = none := by
  simp only [etInt, decide_eq_true_eq] at h
  match et, h with
  | 3, _ | 4, _ | 5, _ | 6, _ => rfl

/-- A binary operation of an integer type works on the two codes as integers (R110). -/
theorem vBin_of_etInt {et : Nat} (h : etInt et = true) (g : Fmt → FVal → FVal → ERes) (k : Nat → Int → Int → ERes)
    (a b : Nat) : vBin et g k a b = k (etWidth et) (toInt (etWidth et) a) (toInt (etWidth et) b) := by
  simp only [vBin, fmtOf_of_etInt h]

theorem vWrap_eq (w : Nat) (v : Int) : vWrap w v = ⟨(v % 2 ^ w).toNat, 0, 0⟩ := by
  simp only [vWrap, plain, ofInt_eq]

/-- A saturating result is the nearest value of the range, and sets SAT exactly outside it (R58). -/
theorem vSat_eq (w : Nat) (v : Int) : vSat w v =
    ⟨(min (intMax w) (max (intMin w) v) % 2 ^ w).toNat, if intMin w ≤ v ∧ v ≤ intMax w then 0 else fSAT, 0⟩ := by
  have hle : intMin w ≤ intMax w := by
    have : (0 : Int) < 2 ^ (w - 1) := by positivity
    unfold intMin intMax
    omega
  unfold vSat plain
  simp only [ofInt_eq]
  split
  case isTrue hlo => rw [max_eq_left hlo.le, min_eq_right hle, if_neg (by omega)]
  case isFalse hlo =>
    rw [max_eq_right (by omega)]
    split
    case isTrue hhi => rw [min_eq_left hhi.le, if_neg (by omega)]
    case isFalse hhi => rw [min_eq_right (by omega), if_pos (by omega)]

/-- An arithmetic shift by the width or more leaves the sign in every bit (R58). -/
theorem toInt_ediv_two_pow (w n : Nat) : toInt w n / 2 ^ w = if toInt w n < 0 then -1 else 0 := by
  obtain ⟨hlo, hhi⟩ := toInt_bounds w n
  push_cast at hlo hhi
  generalize toInt w n = z at *
  have hpos : (0 : Int) < 2 ^ w := by positivity
  split
  case isTrue hneg => exact (Int.ediv_eq_iff_of_pos hpos).mpr ⟨by omega, by omega⟩
  case isFalse hneg => exact Int.ediv_eq_zero_of_lt (by omega) (by omega)

theorem vSra_eq (et a b : Nat) : vSra et a b =
    ⟨(if etWidth et ≤ b then (if toInt (etWidth et) a < 0 then 2 ^ etWidth et - 1 else 0)
      else ((toInt (etWidth et) a / 2 ^ b) % 2 ^ etWidth et).toNat), 0, 0⟩ := by
  unfold vSra plain
  generalize etWidth et = w
  rw [ofInt_eq]
  split
  case isFalse hb => rw [min_eq_left (by omega)]
  case isTrue hb =>
    rw [min_eq_right hb, toInt_ediv_two_pow]
    split
    case isTrue hneg =>
      have hpos := Nat.two_pow_pos w
      have hones : (-1 : Int) % 2 ^ w = ((2 ^ w - 1 : Nat) : Int) := by
        rw [show (-1 : Int) = ((2 ^ w - 1 : Nat) : Int) + 2 ^ w * (-1) by push_cast [hpos]; ring,
          Int.add_mul_emod_self_left, Int.emod_eq_of_lt (by omega) (by push_cast [hpos]; omega)]
      rw [hones, Int.toNat_natCast]
    case isFalse hneg => simp

theorem vAbs_of_etInt {et : Nat} (h : etInt et = true) (a : Nat) :
    vAbs et a = vWrap (etWidth et) |toInt (etWidth et) a| := by
  simp only [vAbs, fmtOf_of_etInt h, Int.natCast_natAbs]

theorem vNeg_of_etInt {et : Nat} (h : etInt et = true) (a : Nat) :
    vNeg et a = vWrap (etWidth et) (-toInt (etWidth et) a) := by
  simp only [vNeg, fmtOf_of_etInt h]

/-- Settles O8: the two codes read as integers, and each form is its wrapping, saturating or shifting rule. -/
theorem vectorIntegerResults : Obligations.VectorIntegerResults := by
  intro et a b het ha hb w z lo hi Wraps Clamps
  have hza : toInt (etWidth et) a = z a := toInt_of_lt ha
  have hzb : toInt (etWidth et) b = z b := toInt_of_lt hb
  have hbin (g k) : vBin et g k a b = k w (z a) (z b) := by rw [vBin_of_etInt het, hza, hzb]
  refine ⟨(hbin _ _).trans (vWrap_eq _ _), (hbin _ _).trans (vWrap_eq _ _), (hbin _ _).trans (vWrap_eq _ _),
    (hbin _ _).trans (vWrap_eq _ _), (hbin _ _).trans (vWrap_eq _ _), ?abs, ?neg, ?adds, ?subs, ?muls, ?abss, ?negs,
    ?shl, ?shr, ?sra⟩
  case abs => rw [vAbs_of_etInt het, hza]; exact vWrap_eq _ _
  case neg => rw [vNeg_of_etInt het, hza]; exact vWrap_eq _ _
  case adds => rw [vAdds, hza, hzb]; exact vSat_eq _ _
  case subs => rw [vSubs, hza, hzb]; exact vSat_eq _ _
  case muls => rw [vMuls, hza, hzb]; exact vSat_eq _ _
  case abss => rw [vAbss, hza, Int.natCast_natAbs]; exact vSat_eq _ _
  case negs => rw [vNegs, hza]; exact vSat_eq _ _
  case shl => rw [vShl, plain, Nat.shiftLeft_eq]
  case shr => rw [vShr, plain, Nat.shiftRight_eq_div_pow]
  case sra => rw [← hza]; exact vSra_eq et a b

/-! ### Elements of a vector register (R99) -/

theorem packNat_lt (w : Nat) (l : List Nat) : packNat w l < 2 ^ (w * l.length) := by
  induction l with
  | nil => simp [packNat]
  | cons x l ih =>
    have hx := Nat.mod_lt x (Nat.two_pow_pos w)
    calc x % 2 ^ w + 2 ^ w * packNat w l
      _ < 2 ^ w + 2 ^ w * packNat w l := by omega
      _ = 2 ^ w * (packNat w l + 1) := by ring
      _ ≤ 2 ^ w * 2 ^ (w * l.length) := Nat.mul_le_mul_left _ ih
      _ = 2 ^ (w * (x :: l).length) := by rw [← pow_add, List.length_cons]; ring_nf

/-- Field `i` of a packed list is element `i` of the list. -/
theorem packNat_field (w : Nat) (l : List Nat) (i : Nat) (hi : i < l.length) :
    packNat w l / 2 ^ (w * i) % 2 ^ w = l[i] % 2 ^ w := by
  induction l generalizing i with
  | nil => simp at hi
  | cons x l ih =>
    cases i with
    | zero => simp [packNat, Nat.add_mod]
    | succ i =>
      have htail : packNat w (x :: l) / 2 ^ w = packNat w l := by
        rw [packNat, Nat.add_mul_div_left _ _ (Nat.two_pow_pos w), Nat.div_eq_of_lt (Nat.mod_lt _ (Nat.two_pow_pos w)), zero_add]
      rw [Nat.mul_succ, Nat.add_comm, pow_add, ← Nat.div_div_eq_div_mul, htail]
      exact ih i (by simpa using hi)

theorem packNat_lt_of_le {w n : Nat} {l : List Nat} (h : w * l.length ≤ n) : packNat w l < 2 ^ n :=
  (packNat_lt w l).trans_le (Nat.pow_le_pow_right (by decide) h)

theorem toNat_ofNat_packNat {w n : Nat} {l : List Nat} (h : w * l.length ≤ n) :
    (BitVec.ofNat n (packNat w l)).toNat = packNat w l := by
  rw [BitVec.toNat_ofNat, Nat.mod_eq_of_lt (packNat_lt_of_le h)]

theorem elem_lt (w : Nat) (v : BitVec 1024) (i : Nat) : elem w v i < 2 ^ w := Nat.mod_lt _ (Nat.two_pow_pos w)

/-- Element `i` of a vector made from a function is its value, cut to the width. -/
theorem elem_packV (w : Nat) (g : Nat → Nat) (i : Nat) (hi : i < 1024 / w) :
    elem w (packV w ((List.range (1024 / w)).map g)) i = g i % 2 ^ w := by
  rw [elem, packV, toNat_ofNat_packNat (by simpa using Nat.mul_div_le 1024 w), bits, Nat.shiftRight_eq_div_pow,
    packNat_field w _ i (by simpa using hi)]
  simp

/-- Element `i` of the merged vector: the result where active, the old element elsewhere (R112). -/
theorem elem_mergeV (pr : BitVec 128) (w : Nat) (old : BitVec 1024) (r : Nat → ERes) (i : Nat) (hi : i < 1024 / w) :
    elem w (mergeV pr w old r) i = if active pr w i then (r i).code % 2 ^ w else elem w old i := by
  rw [mergeV, elem_packV w _ i hi]
  split
  · rfl
  · exact Nat.mod_eq_of_lt (elem_lt w old i)

/-- A status bit of a list of results is set when it is set in one of them. -/
theorem flagsOf_getLsbD (rs : List (Nat × ERes)) (b : Nat) :
    (flagsOf rs).getLsbD b = rs.any (fun e => e.2.flags.getLsbD b) := by
  have hfold (acc : BitVec 4) : (rs.foldl (fun f r => f ||| r.2.flags) acc).getLsbD b =
      (acc.getLsbD b || rs.any (fun e => e.2.flags.getLsbD b)) := by
    induction rs generalizing acc with
    | nil => simp
    | cons e rs ih => simp [ih, Bool.or_assoc]
  simpa [flagsOf] using hfold 0

theorem any_activeRes (pr : BitVec 128) (w : Nat) (r : Nat → ERes) (q : ERes → Bool) :
    (activeRes pr w r).any (fun e => q e.2) = (List.range (1024 / w)).any (fun i => active pr w i && q (r i)) := by
  unfold activeRes
  rw [List.any_filterMap]
  congr 1
  funext i
  by_cases ha : active pr w i <;> simp [ha]

/-- An elementwise write with its status meets its frame (R112). -/
theorem Stall.setV_vwrite (x : Stall) (d : BitVec 5) (pr : BitVec 128) (w : Nat) (r : Nat → ERes) :
    VWrite x (((x.setV d (mergeV pr w (x.getV d) r)).flag (flagsOf (activeRes pr w r))).advance) d pr w r where
  elems i hi := by
    have hread := x.getV_setV d d (mergeV pr w (x.getV d) r)
    rw [if_pos rfl] at hread
    exact (congrArg (elem w · i) hread).trans (elem_mergeV pr w (x.getV d) r i hi)
  others j hj := by
    have hread := x.getV_setV d j (mergeV pr w (x.getV d) r)
    rw [if_neg hj] at hread
    exact hread
  status b := by
    rw [← any_activeRes pr w r (fun e => e.flags.getLsbD b), ← flagsOf_getLsbD, ← BitVec.getLsbD_or]
    rfl
  rest := rfl

/-- An elementwise vector instruction that can run (R110, R112). -/
theorem execV_run {s : State} {t p : Nat} {rs : List Nat} {d : BitVec 5} (h : s.canRun t p (vreg d.toNat :: rs))
    (q : BitVec 3) (w op : Nat) (f : Stall → Nat → ERes) : ∃ y,
    execV t d q w true rs op f s = .next ((s.setStall t y).nanEvents p ⟨1, op, t, (s.stall t).pc.toNat⟩
      (causesOf (activeRes ((s.stall t).getP q.toNat) w (f (s.stall t))))) ∧
      VWrite (s.stall t) y d ((s.stall t).getP q.toNat) w (f (s.stall t)) :=
  ⟨_, issue_run h _, Stall.setV_vwrite _ _ _ _ _⟩

/-- A fused vector instruction of a valid format works on the elements of its three sources (R106). -/
theorem execVVV_run {s : State} {t p : Nat} {d a b c : BitVec 5} {ft : BitVec 2} {f : Fmt}
    (h : s.canRun t p [vreg d.toNat, vreg a.toNat, vreg b.toNat, vreg c.toNat]) (hf : fmtOf ft.toNat = some f)
    (q : BitVec 3) (g : Fmt → Nat → Nat → Nat → ERes) :
    let x := s.stall t
    let r (i : Nat) := g f (elem f.width (x.getV a) i) (elem f.width (x.getV b) i) (elem f.width (x.getV c) i)
    ∃ y, execVVV t d a b c q ft g s = .next ((s.setStall t y).nanEvents p ⟨1, 1, t, x.pc.toNat⟩
      (causesOf (activeRes (x.getP q.toNat) f.width r))) ∧ VWrite x y d (x.getP q.toNat) f.width r := by
  have hft : ft ≠ 3 := by rintro rfl; cases hf
  have hok : decide (ft ≠ 3) = true := decide_eq_true hft
  simp only [execVVV, hf, Option.getD_some, hok]
  exact execV_run h q f.width 1 _

/-- Settles O10: the fused forms are elementwise, with FMA the exact product and sum. -/
theorem vectorFused : Obligations.VectorFused := by
  intro s st p d a b c q ft f h hf
  exact ⟨execVVV_run h hf q vFma, execVVV_run h hf q vFms, execVVV_run h hf q vClamp⟩

/-! ### Comparisons (R110, R112) -/

/-- A list of bits packed one by one reads back bit by bit. -/
theorem packNat_b2n_testBit (l : List Bool) {j : Nat} (hj : j < l.length) :
    (packNat 1 (l.map b2n)).testBit j = l[j] := by
  have hfield := packNat_field 1 (l.map b2n) j (by simpa using hj)
  rw [Nat.one_mul, pow_one, List.getElem_map] at hfield
  rw [Nat.testBit_eq_decide_div_mod_eq, hfield]
  cases l[j] <;> rfl

/-- Bit `j` of the predicate of a comparison. -/
theorem cmpPred_getLsbD (pr old : BitVec 128) (w : Nat) (f : Nat → Bool) {j : Nat} (hj : j < 128) :
    (cmpPred pr old w f).getLsbD j = if active pr w (j / (w / 8)) then f (j / (w / 8)) else old.getLsbD j := by
  have hmap : (List.range 128).map (fun j => if active pr w (j / (w / 8)) then b2n (f (j / (w / 8))) else b2n (old.getLsbD j)) =
      ((List.range 128).map (fun j => if active pr w (j / (w / 8)) then f (j / (w / 8)) else old.getLsbD j)).map b2n := by
    rw [List.map_map]
    exact List.map_congr_left fun j _ => (apply_ite b2n _ _ _).symm
  simp only [cmpPred, hmap]
  rw [BitVec.getLsbD_ofNat, packNat_b2n_testBit _ (by simpa using hj)]
  simp [hj]

section
variable {s : State} {t p : Nat} {d : BitVec 5} {rs : List Nat} {k : EtSet} {et : BitVec 3}
  (h : s.canRun t p rs) (hd : d.toNat < 8) (hk : etOk k et.toNat = true)
include h hd hk

/-- A comparison that can run writes predicate register d alone, bit by bit. -/
theorem execCmp_run (q : BitVec 3) (f : Nat → Stall → Nat → Bool) {r : Nat → Bool}
    (hr : ∀ i, f (etWidth et.toNat) (s.stall t) i = r i) :
    Alters s t (execCmp k t d q et rs f s) fun y => ∃ v : BitVec 128, PWrite (s.stall t) y d.toNat v ∧
      ∀ j, j < 128 → v.getLsbD j =
        if active ((s.stall t).getP q.toNat) (etWidth et.toNat) (j / (etWidth et.toNat / 8))
        then r (j / (etWidth et.toNat / 8)) else ((s.stall t).getP d.toNat).getLsbD j := by
  have hok : (etOk k et.toNat && decide (d.toNat < 8)) = true := by rw [hk, decide_eq_true hd]; rfl
  have hbits (j : Nat) (hj : j < 128) := cmpPred_getLsbD ((s.stall t).getP q.toNat) ((s.stall t).getP d.toNat)
    (etWidth et.toNat) (f (etWidth et.toNat) (s.stall t)) hj
  simp only [hr] at hbits
  simp only [execCmp, hok, if_true]
  exact ⟨_, issue_run h _, _, Stall.setP_pwrite _ _ _, hbits⟩

end

/-- A comparison of float elements compares their values (R48). -/
theorem vCmp_float {et : Nat} (het : et ≤ 2) (g : FVal → FVal → Bool) (h : Int → Int → Bool) (a b : Nat) :
    vCmp et g h a b = g (((fmtOf et).getD fp32).decode a) (((fmtOf et).getD fp32).decode b) := by
  match et, het with
  | 0, _ | 1, _ | 2, _ => rfl

/-- A comparison of integer elements compares them as signed integers. -/
theorem vCmp_int {et : Nat} (het : etInt et = true) (g : FVal → FVal → Bool) (h : Int → Int → Bool) (a b : Nat) :
    vCmp et g h a b = h (toInt (etWidth et) a) (toInt (etWidth et) b) := by
  simp only [vCmp, fmtOf_of_etInt het]

/-- Settles O11: every comparison is the one of its elements, under the shared frame of a predicate write. -/
theorem vectorCompares : Obligations.VectorCompares := by
  intro s st p d a b q et h hd x w pr F I N C
  have ha : s.canRun st p [vreg a.toNat] := h.mono (by simp)
  refine ⟨fun het => ?_, fun het => ?_⟩
  · have hany : etOk .any et.toNat = true := decide_eq_true (by omega)
    have hfloat : etOk .float et.toNat = true := decide_eq_true het
    have two (g k) := execCmp_run h hd hany q (fun w x i => vCmp et.toNat g k (elem w (x.getV a) i) (elem w (x.getV b) i))
      (r := fun i => g (F a i) (F b i)) (fun i => vCmp_float het g k _ _)
    have one (g : FVal → Bool) := execCmp_run ha hd hfloat q
      (fun w x i => g (((fmtOf et.toNat).getD fp32).decode (elem w (x.getV a) i))) (r := fun i => g (F a i)) (fun i => rfl)
    exact ⟨two FVal.eq _, two (fun x y => !(x.eq y)) _, two FVal.lt _, two FVal.le _, one FVal.isNaN, one FVal.isInf⟩
  · have hany : etOk .any et.toNat = true := by
      simp only [etInt, decide_eq_true_eq] at het
      exact decide_eq_true het.2
    have two (g k) := execCmp_run h hd hany q (fun w x i => vCmp et.toNat g k (elem w (x.getV a) i) (elem w (x.getV b) i))
      (r := fun i => k (I a i) (I b i)) (fun i => vCmp_int het g k _ _)
    have uns (k : Nat → Nat → Bool) := execCmp_run (k := .int) h hd het q
      (fun w x i => k (elem w (x.getV a) i) (elem w (x.getV b) i)) (r := fun i => k (N a i) (N b i)) (fun i => rfl)
    exact ⟨two _ (fun x y => decide (x = y)), two _ (fun x y => decide (x ≠ y)), two _ (fun x y => decide (x < y)),
      two _ (fun x y => decide (x ≤ y)), uns (fun x y => decide (x < y)), uns (fun x y => decide (x ≤ y))⟩

end Sys2Proof.Machine
end

section
/-!
SUPPORT, O44, refuted. The clause on a sidecar that is not the last one of its run asks for no idle engine; a state whose list of
engines is not canonical answers that the packet waits.
-/

namespace Sys2Proof.Machine

/-- A COLLECTIVE sidecar of run 0 of plan 0 of partition 0, waiting at port 0 (R266, R267). -/
def sidecarArrived : Arrived :=
  { pkt := { hdr := 0x36, pay := [], trailer := none }, stamp := 0, code := 0, busy := false }

/-- A valid plan of two ranks in MODE 0 with its run 0 in progress; and a list of engines that lists engine 0 twice,
with different counts of accesses, so that the second entry reads as one that has just served an access. -/
def doublyListed : State :=
  { State.reset with
    parts := [(0, { Part.reset with plans := [(0, { PlanSt.reset with busy := true, inst := 1 })] })]
    objs := [(kPlan 0 0, 2 ^ 10 + 2 ^ 32)]
    ports := [(0, { Port.reset with ing := [sidecarArrived] })]
    engines := [(0, { Engine.reset with accesses := 2 ^ 24 }), (0, { Engine.reset with accesses := 2 ^ 24 + 1 })] }

/-- The sidecar is not taken: by the second entry engine 0 has served an access, and by the first it is not open. -/
theorem doublyListed_sidecar_waits : exec (.collectiveSidecar 0 0) doublyListed = .next doublyListed := rfl

/-- Refutes O44: the clause on a sidecar that is not the last one has no condition on the engines, but a state that lists an
engine twice makes `ifOpen` answer that the command waits, though it reaches no engine. -/
theorem not_collectives : ¬ Obligations.Collectives := by
  intro h
  obtain ⟨-, -, hpacket⟩ := h doublyListed
  obtain ⟨-, haccepted⟩ := hpacket 0 0 sidecarArrived (by decide) rfl rfl (by decide) rfl
  obtain ⟨-, -, -, -, -, -, hside, -⟩ := haccepted rfl
  obtain ⟨hmore, -⟩ := hside (by decide) (by decide) (by decide)
  have htaken := hmore (by decide)
  rw [doublyListed_sidecar_waits] at htaken
  have hport := congrArg (fun o => match o with | .next t => (t.port 0).ing.length | _ => 0) htaken
  revert hport
  decide
end Sys2Proof.Machine
end

section
/-!
SUPPORT, O60 and O38. Folds of which each member changes a place of its own, bytes of numbers (R7), and bytes of memory after a write.
-/

namespace Sys2Proof.Machine

/-! ### Folds of which each member changes a place of its own -/

section
variable {σ ι β : Type} {F : σ → ι → σ} {P : σ → Prop}

/-- What every member of a list keeps, its fold keeps. -/
theorem foldl_keep {R : σ → β} {l : List ι} (hP : ∀ s c, P s → P (F s c)) (hR : ∀ s c, P s → c ∈ l → R (F s c) = R s) {s : σ}
    (hs : P s) : R (l.foldl F s) = R s := by
  induction l generalizing s with
  | nil => rfl
  | cons c l ih =>
    rw [List.foldl_cons, ih (fun s c hs hc => hR s c hs (.tail _ hc)) (hP s c hs), hR s c hs (.head _)]

/-- A place that one member sets to `b`, when it finds there what was there first, and that all the others keep. -/
theorem foldl_once {R : σ → β} {b : β} {l : List ι} {e : ι} {s : σ} (hP : ∀ u c, P u → P (F u c))
    (hsame : ∀ u, P u → R u = R s → R (F u e) = b) (hother : ∀ u c, P u → c ∈ l → c ≠ e → R (F u c) = R u) (hl : l.Nodup)
    (he : e ∈ l) (hs : P s) : R (l.foldl F s) = b := by
  induction l generalizing s with
  | nil => cases he
  | cons c l ih =>
    obtain ⟨hc, hl⟩ := List.nodup_cons.mp hl
    rw [List.foldl_cons]
    rcases List.mem_cons.mp he with rfl | he
    · have hrest := foldl_keep (R := R) hP (fun u a hu ha => hother u a hu (.tail _ ha) (fun h => hc (h ▸ ha))) (hP s e hs)
      rw [hrest, hsame s hs rfl]
    · have hkept : R (F s c) = R s := hother s c hs (.head _) (fun h => hc (h ▸ he))
      exact ih (fun u hu heq => hsame u hu (heq.trans hkept)) (fun u a hu ha => hother u a hu (.tail _ ha)) hl he (hP s c hs)

end

/-! ### Bytes of numbers (R7) -/

@[simp] theorem toBytes_length (n x : Nat) : (toBytes n x).length = n := by
  induction n generalizing x with
  | zero => rfl
  | succ n ih => simp [toBytes, ih]

theorem ofBytes_toBytes (n x : Nat) : ofBytes (toBytes n x) = x % 256 ^ n := by
  induction n generalizing x with
  | zero => simp [toBytes, ofBytes, Nat.mod_one]
  | succ n ih =>
    rw [toBytes, ofBytes, ih, pow_succ', Nat.mod_mul]
    simp

theorem ofBytes_toBytes_of_lt {n x : Nat} (h : x < 256 ^ n) : ofBytes (toBytes n x) = x := by
  rw [ofBytes_toBytes, Nat.mod_eq_of_lt h]

theorem ofBytes_lt (bs : List Byte) : ofBytes bs < 256 ^ bs.length := by
  induction bs with
  | nil => simp [ofBytes]
  | cons b bs ih =>
    have hb := b.isLt
    rw [ofBytes, List.length_cons, pow_succ']
    omega

@[simp] theorem ofBytes_zeros (n : Nat) : ofBytes (zeros n) = 0 := by
  induction n with
  | zero => rfl
  | succ n ih => simpa [zeros, ofBytes, List.replicate_succ] using ih

/-- The byte at place `i` of the number that bytes spell. -/
theorem bits_ofBytes {bs : List Byte} {i : Nat} (hi : i < bs.length) : bits (ofBytes bs) (i * 8) 8 = bs[i].toNat := by
  induction bs generalizing i with
  | nil => simp at hi
  | cons b bs ih =>
    have hb := b.isLt
    cases i with
    | zero => simp [bits, ofBytes]; omega
    | succ i =>
      have htail : ofBytes (b :: bs) / 2 ^ 8 = ofBytes bs := by rw [ofBytes]; omega
      rw [bits, Nat.shiftRight_eq_div_pow, show (i + 1) * 8 = 8 + i * 8 by ring, pow_add, ← Nat.div_div_eq_div_mul, htail,
        ← Nat.shiftRight_eq_div_pow]
      simpa [bits] using ih (by simpa using hi)

/-! ### Bytes of memory after a write -/

@[simp] theorem State.getBytes_length (s : State) (k n : Nat) : (s.getBytes k n).length = n := by simp [State.getBytes]

/-- A byte inside the range written is the byte written there. -/
theorem State.byte_putBytes_in {bs : List Byte} {s : State} {k i : Nat} (hi : i < bs.length) :
    (s.putBytes k bs).byte (k + i) = bs[i] := by
  induction bs generalizing s k i with
  | nil => simp at hi
  | cons b bs ih =>
    rw [State.putBytes]
    cases i with
    | zero => rw [State.byte_putBytes_out _ _ _ _ (by omega)]; simp
    | succ i =>
      have := ih (s := s.setByte k b) (k := k + 1) (i := i) (by simpa using hi)
      rw [show k + (i + 1) = k + 1 + i by omega, this]
      rfl

/-- A range reads as just written. -/
theorem State.getBytes_putBytes_same (s : State) (k : Nat) (bs : List Byte) : (s.putBytes k bs).getBytes k bs.length = bs := by
  refine List.ext_getElem (by simp) fun i hi _ => ?_
  rw [State.getBytes_length] at hi
  simp [State.getBytes, State.byte_putBytes_in hi]

/-- A range of which no byte changed reads as before. -/
theorem State.getBytes_congr {s t : State} {k n : Nat} (h : ∀ i, i < n → t.byte (k + i) = s.byte (k + i)) :
    t.getBytes k n = s.getBytes k n :=
  List.map_congr_left fun i hi => h i (List.mem_range.mp hi)

/-- Writing bytes changes memory alone. -/
theorem State.putBytes_eq (s : State) (k : Nat) (bs : List Byte) : ∃ m, s.putBytes k bs = { s with mem := m } := by
  induction bs generalizing s k with
  | nil => exact ⟨s.mem, rfl⟩
  | cons b bs ih =>
    obtain ⟨m, hm⟩ := ih (s.setByte k b) (k + 1)
    exact ⟨m, hm⟩

end Sys2Proof.Machine
end

section
/-!
SUPPORT, O60. Sizes of floating codes, and what a command of a matrix array leaves of memory and of the other matrix arrays.
-/

namespace Sys2Proof.Machine

/-! ### Sizes of floating codes (R37, R82) -/

/-- The codes a format gives fit its width, when its special codes and its largest finite code do. -/
theorem Fmt.encode_lt {f : Fmt} (hnan : f.nanCode < 2 ^ (f.ebits + f.mbits)) (hfin : f.maxFin < 2 ^ (f.ebits + f.mbits))
    (v : FVal) : f.encode v < 2 ^ f.width := by
  have hwidth : 2 ^ f.width = 2 * 2 ^ (f.ebits + f.mbits) := by rw [Fmt.width, add_assoc, pow_add, pow_one]
  have hinf : ∀ neg, f.infCode neg < 2 ^ f.width := by
    intro neg
    have hexp : (2 ^ f.ebits - 1) * 2 ^ f.mbits < 2 ^ (f.ebits + f.mbits) := by
      rw [pow_add]
      exact Nat.mul_lt_mul_of_pos_right (Nat.sub_one_lt (Nat.two_pow_pos _).ne') (Nat.two_pow_pos _)
    simp only [Fmt.infCode]
    split <;> omega
  cases v with
  | nan => simp only [Fmt.encode]; omega
  | inf neg =>
    simp only [Fmt.encode]
    split
    · exact hinf neg
    · split
      · omega
      · split <;> omega
  | fin neg m e =>
    simp only [Fmt.encode, Fmt.round]
    split
    · split
      · exact hinf neg
      · split
        · show f.nanCode < _; omega
        · split <;> simp only <;> omega
    · split <;> simp only <;> omega

theorem fp32_encode_lt (v : FVal) : fp32.encode v < 2 ^ 32 := Fmt.encode_lt (by decide) (by decide) v

/-- A floating output element fits its size (R82). -/
theorem outFmt_encode_lt {o : Nat} (ho : o ≤ 4) (v : FVal) : (outFmt o).encode v < 256 ^ outSize o := by
  match o, ho with
  | 0, _ | 1, _ | 2, _ | 3, _ | 4, _ => exact Fmt.encode_lt (by decide) (by decide) v

/-- Both parts of a promoted total are FP32 codes (R54). -/
theorem promote_lt (hi lo run : Nat) : (promote hi lo run).1 < 2 ^ 32 ∧ (promote hi lo run).2 < 2 ^ 32 := by
  have hcode : ∀ v, fp32.encode v < 2 ^ 32 := fp32_encode_lt
  simp only [promote]
  split
  · exact ⟨hcode _, Nat.two_pow_pos 32⟩
  · split
    · exact ⟨hcode _, Nat.two_pow_pos 32⟩
    · split
      · exact ⟨hcode _, Nat.two_pow_pos 32⟩
      · exact ⟨hcode _, hcode _⟩

theorem ofInt_lt (w : Nat) (i : Int) : ofInt w i < 2 ^ w := by
  have hpos : (0 : Int) < 2 ^ w := by positivity
  have := Int.emod_lt_of_pos i hpos
  have := Int.emod_nonneg i hpos.ne'
  rw [ofInt_eq]
  zify
  omega

/-! ### What a command of a matrix array changes (R86, R94) -/

theorem State.mxa_modMxa_same (s : State) (k : Nat) (f : Mxa → Mxa) : (s.modMxa k f).mxa k = f (s.mxa k) := by
  simp [State.mxa, State.modMxa, State.modShed]

theorem State.mxa_modMxa_ne (s : State) {k j : Nat} (f : Mxa → Mxa) (h : j ≠ k) : (s.modMxa k f).mxa j = s.mxa j := by
  simp [State.mxa, State.modMxa, State.modShed, State.setShed_ne _ _ _ h]

@[simp] theorem State.mem_modMxa (s : State) (k : Nat) (f : Mxa → Mxa) : (s.modMxa k f).mem = s.mem := rfl

@[simp] theorem State.mem_touch (s : State) (k : Nat) : (s.touch k).mem = s.mem := rfl

/-- A change of a shed that leaves its matrix array leaves every matrix array. -/
theorem State.mxa_modShed (s : State) (k : Nat) {f : Shed → Shed} (hf : ∀ x, (f x).mxa = x.mxa) (j : Nat) :
    (s.modShed k f).mxa j = s.mxa j := by
  rw [State.mxa, State.modShed, State.setShed_shed]
  split
  · next h => rw [hf, h]; rfl
  · rfl

@[simp] theorem State.mxa_touch (s : State) (k j : Nat) : (s.touch k).mxa j = s.mxa j := by
  unfold State.touch
  refine s.mxa_modShed k ?_ j
  exact fun _ => rfl

/-- What a first-NaN event leaves: memory and every matrix array. -/
def State.matrixPart (s : State) : FMap Byte × (Nat → Mxa) := (s.mem, s.mxa)

theorem State.matrixPart_beginStop (s : State) (p : Nat) (halted : Bool) : (s.beginStop p halted).matrixPart = s.matrixPart := by
  have hone : ∀ (u : State) k, (u.discardAhead p k).matrixPart = u.matrixPart := by
    intro u k
    unfold State.discardAhead
    refine Prod.ext rfl (funext fun j => State.mxa_modShed _ k ?_ j)
    exact fun _ => rfl
  unfold State.beginStop
  exact foldl_keep (P := fun _ => True) (fun _ _ _ => trivial) (fun u k _ _ => hone u k) trivial

theorem State.matrixPart_logPart (s : State) (p c sv sk si dt : Nat) :
    (s.logPart p c sv sk si dt).matrixPart = s.matrixPart :=
  Prod.ext (by simp [matrixPart]) (funext fun j => by simp [matrixPart, State.mxa, State.shed])

/-- R61, R65. -/
theorem State.matrixPart_nanEvent (s : State) (p : Nat) (src : NanSrc) (cause elem : Nat) :
    (s.nanEvent p src cause elem).matrixPart = s.matrixPart := by
  have hset : ∀ (u : State) (k v : Nat), (u.setObj k v).matrixPart = u.matrixPart := fun _ _ _ => rfl
  unfold State.nanEvent
  extract_lets s1 ctl halt noSt shed loc w s2
  have hs1 : s1.matrixPart = s.matrixPart := hset _ _ _
  have hs2 : s2.matrixPart = s.matrixPart := (hset _ _ _).trans hs1
  rw [apply_ite State.matrixPart, apply_ite State.matrixPart, State.matrixPart_beginStop, State.matrixPart_logPart, hs1, hs2,
    ite_self, ite_self]

theorem State.matrixPart_nanEvents (s : State) (p : Nat) (src : NanSrc) (es : List (Nat × Nat)) :
    (s.nanEvents p src es).matrixPart = s.matrixPart := by
  refine foldl_keep (P := fun _ => True) (fun _ _ _ => trivial) (fun u e _ _ => ?_) trivial
  split
  · rfl
  · exact u.matrixPart_nanEvent p src e.2 e.1

@[simp] theorem State.mem_nanEvents (s : State) (p : Nat) (src : NanSrc) (es : List (Nat × Nat)) :
    (s.nanEvents p src es).mem = s.mem := congrArg Prod.fst (s.matrixPart_nanEvents p src es)

@[simp] theorem State.mxa_nanEvents (s : State) (p : Nat) (src : NanSrc) (es : List (Nat × Nat)) (j : Nat) :
    (s.nanEvents p src es).mxa j = s.mxa j := congrFun (congrArg Prod.snd (s.matrixPart_nanEvents p src es)) j

@[simp] theorem State.mem_satMxa (s : State) (k : Nat) (b : Bool) : (s.satMxa k b).mem = s.mem := by
  cases b <;> rfl

theorem State.mxa_satMxa_ne (s : State) {k j : Nat} (b : Bool) (h : j ≠ k) : (s.satMxa k b).mxa j = s.mxa j := by
  cases b with
  | false => rfl
  | true =>
    simp only [State.satMxa, if_true]
    exact s.mxa_modMxa_ne _ h

/-- A saturation sets the sticky bit alone (R55). -/
theorem State.mxa_satMxa_same (s : State) (k : Nat) (b : Bool) :
    ∃ x, (s.satMxa k b).mxa k = { s.mxa k with intSat := x } := by
  cases b with
  | false => exact ⟨(s.mxa k).intSat, rfl⟩
  | true =>
    simp only [State.satMxa, if_true]
    exact ⟨true, s.mxa_modMxa_same k _⟩

end Sys2Proof.Machine
end

section
/-!
SUPPORT, O60. Loft bytes after writes that lie apart, and what a promotion leaves in the loft (R54, R55, R83, R90).
-/

namespace Sys2Proof.Machine

/-! ### Loft bytes after a write (R71) -/

@[simp] theorem State.loft_length (s : State) (k off n : Nat) : (s.loft k off n).length = n := s.getBytes_length _ _

theorem State.loft_putLoft_same (s : State) (k off : Nat) (bs : List Byte) : (s.putLoft k off bs).loft k off bs.length = bs :=
  s.getBytes_putBytes_same _ _

theorem State.byte_putLoft_out (s : State) {k off j : Nat} {bs : List Byte}
    (h : ∀ i, i < bs.length → j ≠ loftKey k off + i) : (s.putLoft k off bs).byte j = s.byte j := by
  refine State.byte_putBytes_out _ _ _ _ ?_
  by_contra hin
  exact h (j - loftKey k off) (by omega) (by omega)

theorem State.loft_putLoft_apart (s : State) {k off off' n : Nat} {bs : List Byte}
    (h : off + bs.length ≤ off' ∨ off' + n ≤ off) : (s.putLoft k off bs).loft k off' n = s.loft k off' n :=
  State.getBytes_congr fun i hi => s.byte_putLoft_out fun j hj => by simp only [loftKey]; omega

/-! ### Folds that write each place of a table once -/

/-- A fold step that writes at most its member's own place of `size` bytes in the loft of shed `k`. -/
def WritesOwn {ι : Type} (k size : Nat) (place : ι → Nat) (F : State → ι → State) : Prop :=
  ∀ s e, F s e = s ∨ ∃ bs, bs.length = size ∧ F s e = s.putLoft k (place e) bs

namespace WritesOwn
variable {ι : Type} {k size : Nat} {place : ι → Nat} {F : State → ι → State}

theorem foldl_eq (h : WritesOwn k size place F) (l : List ι) (s : State) : ∃ m, l.foldl F s = { s with mem := m } := by
  induction l generalizing s with
  | nil => exact ⟨s.mem, rfl⟩
  | cons e l ih =>
    have hstep : ∃ m, F s e = { s with mem := m } := by
      rcases h s e with heq | ⟨bs, -, heq⟩
      · exact ⟨s.mem, heq⟩
      · exact heq ▸ s.putBytes_eq _ _
    obtain ⟨m, hm⟩ := hstep
    obtain ⟨m', hm'⟩ := ih { s with mem := m }
    exact ⟨m', by rw [List.foldl_cons, hm, hm']⟩

/-- A byte outside every place is kept. -/
theorem foldl_byte (h : WritesOwn k size place F) {l : List ι} {j : Nat}
    (hj : ∀ e ∈ l, ∀ i, i < size → j ≠ loftKey k (place e) + i) (s : State) : (l.foldl F s).byte j = s.byte j := by
  refine foldl_keep (P := fun _ => True) (R := fun u : State => u.byte j) (fun _ _ _ => trivial) (fun u e _ he => ?_) trivial
  rcases h u e with heq | ⟨bs, hlen, heq⟩
  · rw [heq]
  · rw [heq]
    exact u.byte_putLoft_out (hlen ▸ hj e he)

/-- The place of one member, apart from those of the others, holds what that member leaves there. -/
theorem foldl_loftNum (h : WritesOwn k size place F) {l : List ι} (hl : l.Nodup) {e : ι} (he : e ∈ l)
    (hapart : ∀ c ∈ l, c ≠ e → place c + size ≤ place e ∨ place e + size ≤ place c) {s : State} {v : Nat}
    (hv : ∀ u : State, u.loftNum k (place e) size = s.loftNum k (place e) size → (F u e).loftNum k (place e) size = v) :
    (l.foldl F s).loftNum k (place e) size = v := by
  refine foldl_once (P := fun _ => True) (R := fun u : State => u.loftNum k (place e) size) (fun _ _ _ => trivial)
    (fun u _ => hv u) (fun u c _ hc hne => ?_) hl he trivial
  rcases h u c with heq | ⟨bs, hlen, heq⟩
  · simp only [heq]
  · simp only [heq, State.loftNum]
    rw [u.loft_putLoft_apart (hlen ▸ hapart c hc hne)]

end WritesOwn

/-! ### The elements of a tile (R77) -/

theorem Tile.mem_elems {t : Tile} {i n : Nat} : (i, n) ∈ t.elems ↔ i < t.rows ∧ n < t.nCols := by
  simp [Tile.elems]

theorem Tile.elems_nodup (t : Tile) : t.elems.Nodup :=
  List.Nodup.product List.nodup_range List.nodup_range

/-- Two elements of a table whose rows do not overlap lie apart. -/
theorem cells_apart {base pitch size cols i n i' n' : Nat} (hpitch : cols * size ≤ pitch) (hn : n < cols) (hn' : n' < cols)
    (hne : (i, n) ≠ (i', n')) :
    base + i * pitch + n * size + size ≤ base + i' * pitch + n' * size ∨
      base + i' * pitch + n' * size + size ≤ base + i * pitch + n * size := by
  have hrow : ∀ {x a b : Nat}, a < b → x < cols → a * pitch + x * size + size ≤ b * pitch := by
    intro x a b hab hx
    calc a * pitch + x * size + size = a * pitch + (x + 1) * size := by ring
      _ ≤ a * pitch + pitch := by gcongr; exact (Nat.mul_le_mul_right size hx).trans hpitch
      _ = (a + 1) * pitch := by ring
      _ ≤ b * pitch := Nat.mul_le_mul_right pitch hab
  have hcol : ∀ {a b : Nat}, a < b → a * size + size ≤ b * size := by
    intro a b hab
    rw [← Nat.succ_mul]
    exact Nat.mul_le_mul_right size hab
  rcases Nat.lt_trichotomy i i' with hi | rfl | hi
  · have := hrow hi hn; omega
  · rcases Nat.lt_trichotomy n n' with h | rfl | h
    · have := hcol h; omega
    · exact absurd rfl hne
    · have := hcol h; omega
  · have := hrow hi hn'; omega

/-! ### Promotions (R54, R55, R83, R90) -/

/-- The total of an element after a promotion: the run taken in where one was started, else as it stands. -/
def State.newTotal (s : State) (k : Nat) (t : Tile) (i n : Nat) : Nat :=
  if t.hit i n then (promoteElem t i n (s.total k t i n)).1 else s.total k t i n

theorem promoteElem_lt (t : Tile) (i n total : Nat) : (promoteElem t i n total).1 < 256 ^ 8 := by
  unfold promoteElem
  split
  · exact ofInt_lt 64 _
  · obtain ⟨hhi, hlo⟩ := promote_lt (total % 2 ^ 32) (total / 2 ^ 32) (t.run i n)
    simp only
    omega

theorem State.loftNum_lt (s : State) (k off n : Nat) : s.loftNum k off n < 256 ^ n := by
  have := ofBytes_lt (s.loft k off n)
  rwa [State.loft_length] at this

theorem State.total_lt (s : State) (k : Nat) (t : Tile) (i n : Nat) : s.total k t i n < 256 ^ 8 := by
  unfold State.total
  split
  · decide
  · exact s.loftNum_lt _ _ _

theorem State.newTotal_lt (s : State) (k : Nat) (t : Tile) (i n : Nat) : s.newTotal k t i n < 256 ^ 8 := by
  unfold State.newTotal
  split
  · exact promoteElem_lt _ _ _ _
  · exact s.total_lt _ _ _ _

/-- Place of an element's total in the loft. -/
def Tile.totalAt (t : Tile) (e : Nat × Nat) : Nat := t.tot + e.1 * t.totPitch + 8 * e.2

/-- The write of one element's total in a promotion. -/
def State.promoteStep (k : Nat) (t : Tile) (s : State) (e : Nat × Nat) : State :=
  if t.hit e.1 e.2 ∨ (t.first ∧ t.totInit) then s.putLoft k (t.totalAt e) (toBytes 8 (s.newTotal k t e.1 e.2)) else s

theorem toBytes_zero (n : Nat) : toBytes n 0 = zeros n := by
  induction n with
  | zero => rfl
  | succ n ih => rw [toBytes, Nat.zero_div, ih]; rfl

/-- Memory after a promotion: the totals are written one by one. -/
theorem State.promoteTile_state (s : State) (k : Nat) (t : Tile) :
    (s.promoteTile k t).1 = t.elems.foldl (State.promoteStep k t) s := by
  unfold State.promoteTile
  refine (List.foldl_hom Prod.fst fun x e => ?_).symm
  obtain ⟨u, ev, sat⟩ := x
  by_cases hhit : t.hit e.1 e.2
  · simp [State.promoteStep, State.newTotal, hhit, Tile.totalAt]
  · by_cases hzero : t.first ∧ t.totInit
    · simp [State.promoteStep, State.newTotal, State.total, hhit, hzero, Tile.totalAt, toBytes_zero]
    · simp [State.promoteStep, hhit, hzero]

theorem State.promoteTile_tile (s : State) (k : Nat) (t : Tile) :
    (s.promoteTile k t).2.1 = { t with runs := [], totals := [], chunks := 0, first := false } := rfl

theorem State.promoteStep_writesOwn (k : Nat) (t : Tile) : WritesOwn k 8 t.totalAt (State.promoteStep k t) := by
  intro s e
  unfold State.promoteStep
  split
  · exact .inr ⟨_, toBytes_length _ _, rfl⟩
  · exact .inl rfl

/-- The write of an element's total leaves the new total there. -/
theorem State.loftNum_promoteStep (s : State) (k : Nat) (t : Tile) (i n : Nat) :
    (s.promoteStep k t (i, n)).loftNum k (t.totalAt (i, n)) 8 = s.newTotal k t i n := by
  unfold State.promoteStep
  split
  · have hread := s.loft_putLoft_same k (t.totalAt (i, n)) (toBytes 8 (s.newTotal k t i n))
    rw [toBytes_length] at hread
    rw [State.loftNum, hread, ofBytes_toBytes_of_lt (s.newTotal_lt k t i n)]
  · next h =>
    obtain ⟨hhit, hzero⟩ := not_or.mp h
    simp only [State.newTotal, State.total, hhit, hzero, if_false, Bool.false_eq_true, Tile.totalAt]

/-- Each element's total is promoted, and no other byte changes, when the totals lie apart. -/
theorem State.promoteTile_loftNum (s : State) (k : Nat) {t : Tile} (hplaced : t.placed = true) {i n : Nat} (hi : i < t.rows)
    (hn : n < t.nCols) : (s.promoteTile k t).1.loftNum k (t.totalAt (i, n)) 8 = s.newTotal k t i n := by
  simp only [Tile.placed, decide_eq_true_eq] at hplaced
  obtain ⟨-, hpitch, -⟩ := hplaced
  rw [promoteTile_state]
  refine (promoteStep_writesOwn k t).foldl_loftNum t.elems_nodup (Tile.mem_elems.mpr ⟨hi, hn⟩) (fun c hc hne => ?_)
    fun u hu => ?_
  · obtain ⟨i', n'⟩ := c
    have hapart := cells_apart (base := t.tot) (pitch := t.totPitch) (size := 8) (i := i') (i' := i) (by omega)
      (Tile.mem_elems.mp hc).2 hn hne
    simp only [Tile.totalAt]
    omega
  · rw [loftNum_promoteStep]
    simp only [Tile.totalAt] at hu
    simp only [State.newTotal, State.total, hu]

/-- R83, R90. -/
theorem State.promoteTile_byte (s : State) (k : Nat) (t : Tile) {j : Nat}
    (hj : ∀ i n b, i < t.rows → n < t.nCols → b < 8 → j ≠ loftKey k (t.totalAt (i, n)) + b) :
    (s.promoteTile k t).1.byte j = s.byte j := by
  rw [promoteTile_state]
  refine (promoteStep_writesOwn k t).foldl_byte (fun e he b hb => ?_) s
  obtain ⟨hi, hn⟩ := Tile.mem_elems.mp he
  exact hj e.1 e.2 b hi hn hb

theorem State.promoteTile_eq (s : State) (k : Nat) (t : Tile) : ∃ m, (s.promoteTile k t).1 = { s with mem := m } := by
  rw [promoteTile_state]
  exact (promoteStep_writesOwn k t).foldl_eq _ _

end Sys2Proof.Machine
end

section
/-!
SUPPORT, O60. The runs of a tile after the chunks of a stream (R53, R55, R71, R77).
-/

namespace Sys2Proof.Machine

/-! ### The elements of a tile after a chunk (R53, R55) -/

theorem tix_inj {i n i' n' : Nat} (hn : n < 512) (hn' : n' < 512) (h : tix i n = tix i' n') : (i, n) = (i', n') := by
  simp only [tix] at h
  exact Prod.ext (by simp only; omega) (by simp only; omega)

/-- The integer total of an element that is not in the loft yet. -/
def Tile.pending (t : Tile) (i n : Nat) : Int := FMap.get (fun _ => 0) t.totals (tix i n)

/-- What a tile holds of element (i, n). -/
def Tile.cell (t : Tile) (i n : Nat) : Nat × Bool × Int := (t.run i n, t.hit i n, t.pending i n)

/-- The exact integer sum an element holds: its run and what the run spilt. -/
def Tile.sum (t : Tile) (i n : Nat) : Int := toInt 32 (t.run i n) + t.pending i n

theorem Tile.cell_addChunk_ne (t : Tile) {i n i' n' : Nat} (code cause : Nat) (sn : Bool) (h : tix i n ≠ tix i' n') :
    (t.addChunk i' n' code cause sn).1.cell i n = t.cell i n := by
  simp [Tile.cell, Tile.addChunk, Tile.run, Tile.hit, Tile.pending, FMap.get_set_ne _ _ _ h]

theorem Tile.cell_addInt_ne (t : Tile) {i n i' n' : Nat} (c : Int) (h : tix i n ≠ tix i' n') :
    (t.addInt i' n' c).cell i n = t.cell i n := by
  simp only [Tile.addInt]
  split <;> simp [Tile.cell, Tile.run, Tile.hit, Tile.pending, FMap.get_set_ne _ _ _ h]

/-- A chunk is added to its run by one FP32 addition (R53). -/
theorem Tile.addChunk_same (t : Tile) (i n code cause : Nat) (sn : Bool) :
    ((t.addChunk i n code cause sn).1.run i n, (t.addChunk i n code cause sn).1.hit i n) = (f32add (t.run i n) code, true) := by
  simp [Tile.addChunk, Tile.run, Tile.hit]

theorem toInt_ofInt_of_small {v : Int} (hlo : -(2 : Int) ^ 30 < v) (hhi : v < (2 : Int) ^ 30) : toInt 32 (ofInt 32 v) = v := by
  rw [toInt_of_lt (ofInt_lt 32 v), ofInt_eq]
  split <;> omega

/-- An integer chunk is added exactly, whether the run keeps it or spills (R55). -/
theorem Tile.addInt_same (t : Tile) (i n : Nat) (c : Int) :
    ((t.addInt i n c).hit i n, (t.addInt i n c).sum i n) = (true, t.sum i n + c) := by
  simp only [Tile.addInt]
  split
  · simp [Tile.hit, Tile.sum, Tile.run, Tile.pending, toInt]
    ring
  · next h =>
    obtain ⟨hhi, hlo⟩ : toInt 32 (t.run i n) + c < 2 ^ 30 ∧ -2 ^ 30 < toInt 32 (t.run i n) + c := by simpa using h
    have hback := toInt_ofInt_of_small hlo hhi
    simp only [Tile.run] at h hback
    simp only [Tile.hit, Tile.sum, Tile.run, Tile.pending, FMap.get_set_same, hback]
    exact Prod.ext rfl (by simp only; ring)

/-! ### Streams (R71, R77, R79, R80) -/

/-- The chunk of activation row `a` and column `n`, added to run (i, n). -/
def Tile.addCell (x : Slot) (af : Nat) (t : Tile) (i : Nat) (a : ActRow) (n : Nat) : Tile :=
  if t.isInt then
    t.addInt i n ((List.zipWith (fun p q : Int => p * q) (a.codes.map (toInt 8)) (x.colInt n)).foldl (fun u v => u + v) 0)
  else
    let c := chunk (List.zip (a.vals af) (x.col n))
    (t.addChunk i n c.1 c.2 (a.nanScale af || x.nanCol n)).1

theorem Tile.streamRow_tile (t : Tile) (x : Slot) (af i : Nat) (a : ActRow) :
    (t.streamRow x af i a).1 = a.cols.foldl (fun t n => t.addCell x af i a n) t := by
  unfold Tile.streamRow
  refine (List.foldl_hom Prod.fst fun acc n => ?_).symm
  obtain ⟨u, ev⟩ := acc
  simp only [Tile.addCell]
  split <;> rfl

/-- A chunk that a stream adds: its row, the activations and the column. -/
abbrev Job := Nat × ActRow × Nat

/-- The chunks of activation rows, row by row. -/
def jobsOf (rows : List (Nat × ActRow)) : List Job := rows.flatMap (fun e => e.2.cols.map (fun n => (e.1, e.2, n)))

theorem mem_jobsOf {rows : List (Nat × ActRow)} {i n : Nat} {a : ActRow} :
    (i, a, n) ∈ jobsOf rows ↔ (i, a) ∈ rows ∧ n ∈ a.cols := by
  simp only [jobsOf, List.mem_flatMap, List.mem_map, Prod.mk.injEq]
  constructor
  · rintro ⟨e, he, n', hn', rfl, rfl, rfl⟩
    exact ⟨he, hn'⟩
  · rintro ⟨he, hn⟩
    exact ⟨(i, a), he, n, hn, rfl, rfl, rfl⟩

/-- The tile after chunks, one after another. -/
def Tile.stream (t : Tile) (x : Slot) (af : Nat) (rows : List (Nat × ActRow)) : Tile :=
  (jobsOf rows).foldl (fun t j => t.addCell x af j.1 j.2.1 j.2.2) t

theorem foldl_streamRow_tile (x : Slot) (af : Nat) (rows : List (Nat × ActRow)) (t : Tile) :
    (rows.foldl (fun (acc : Tile × List (Nat × Nat)) e =>
      ((acc.1.streamRow x af e.1 e.2).1, acc.2 ++ (acc.1.streamRow x af e.1 e.2).2)) (t, [])).1 = t.stream x af rows := by
  rw [Tile.stream, jobsOf, List.foldl_flatMap]
  refine (List.foldl_hom Prod.fst fun acc e => ?_).symm
  rw [Tile.streamRow_tile, List.foldl_map]

/-- The parts of a tile that say where its totals lie and what they are. -/
def Tile.binding (t : Tile) : (Nat × Nat × Bool) × (Nat × Nat × Nat) := ((t.rows, t.nCols, t.isInt), t.tot, t.totPitch, t.p)

theorem Tile.binding_addCell (x : Slot) (af : Nat) (t : Tile) (i : Nat) (a : ActRow) (n : Nat) :
    (t.addCell x af i a n).binding = t.binding := by
  unfold Tile.addCell
  split
  · simp only [Tile.addInt]
    split <;> rfl
  · rfl

theorem Tile.binding_stream (t : Tile) (x : Slot) (af : Nat) (rows : List (Nat × ActRow)) :
    (t.stream x af rows).binding = t.binding :=
  foldl_keep (P := fun _ => True) (fun _ _ _ => trivial) (fun _ _ _ _ => Tile.binding_addCell ..) trivial

theorem Tile.isInt_addCell (x : Slot) (af : Nat) (t : Tile) (i : Nat) (a : ActRow) (n : Nat) :
    (t.addCell x af i a n).isInt = t.isInt := congrArg (fun b => b.1.2.2) (t.binding_addCell x af i a n)

theorem Tile.cell_addCell_ne (x : Slot) (af : Nat) (t : Tile) {i n i' n' : Nat} (a : ActRow) (h : tix i n ≠ tix i' n') :
    (t.addCell x af i' a n').cell i n = t.cell i n := by
  unfold Tile.addCell
  split
  · exact t.cell_addInt_ne _ h
  · exact t.cell_addChunk_ne _ _ _ h

/-- Activation rows of distinct rows and distinct columns below the 512 of a tile's arrays. -/
structure RowsOk (rows : List (Nat × ActRow)) : Prop where
  apart : rows.Pairwise (fun e e' => e.1 ≠ e'.1)
  nodup : ∀ e ∈ rows, e.2.cols.Nodup
  small : ∀ e ∈ rows, ∀ n ∈ e.2.cols, n < 512

namespace RowsOk
variable {rows : List (Nat × ActRow)}

theorem cells_nodup (h : RowsOk rows) : ((jobsOf rows).map (fun j => (j.1, j.2.2))).Nodup := by
  have hcells : (jobsOf rows).map (fun j => (j.1, j.2.2)) = rows.flatMap (fun e => e.2.cols.map (Prod.mk e.1)) := by
    simp [jobsOf, List.map_flatMap, Function.comp_def]
  rw [hcells, List.nodup_flatMap]
  refine ⟨fun e he => (h.nodup e he).map fun _ _ heq => (Prod.mk.inj heq).2, h.apart.imp fun hne => ?_⟩
  intro c hc hc'
  obtain ⟨_, -, rfl⟩ := List.mem_map.mp hc
  obtain ⟨_, -, heq⟩ := List.mem_map.mp hc'
  exact hne (Prod.mk.inj heq).1.symm

/-- Other chunks go to other elements. -/
theorem tix_ne (h : RowsOk rows) {j j' : Job} (hj : j ∈ jobsOf rows) (hj' : j' ∈ jobsOf rows) (hne : j' ≠ j) :
    tix j.1 j.2.2 ≠ tix j'.1 j'.2.2 := by
  intro heq
  obtain ⟨i, a, n⟩ := j
  obtain ⟨i', a', n'⟩ := j'
  obtain ⟨he, hn⟩ := mem_jobsOf.mp hj
  obtain ⟨he', hn'⟩ := mem_jobsOf.mp hj'
  exact hne (List.inj_on_of_nodup_map h.cells_nodup hj' hj (tix_inj (h.small _ he' _ hn') (h.small _ he _ hn) heq.symm))

variable (x : Slot) (af : Nat)

/-- An element that no chunk reaches is kept. -/
theorem stream_unreached (h : RowsOk rows) (t : Tile) {i n : Nat} (hn : n < 512)
    (hout : ¬∃ a, (i, a) ∈ rows ∧ n ∈ a.cols) : (t.stream x af rows).cell i n = t.cell i n := by
  refine foldl_keep (P := fun _ => True) (R := fun t : Tile => t.cell i n) (fun _ _ _ => trivial) (fun u j _ hj => ?_) trivial
  obtain ⟨i', a, n'⟩ := j
  obtain ⟨he, hn'⟩ := mem_jobsOf.mp hj
  refine u.cell_addCell_ne x af a fun heq => hout ?_
  obtain ⟨rfl, rfl⟩ := Prod.mk.inj (tix_inj hn (h.small _ he _ hn') heq)
  exact ⟨a, he, hn'⟩

theorem stream_int (h : RowsOk rows) (t : Tile) (hint : t.isInt = true) {i n : Nat} {a : ActRow} (he : (i, a) ∈ rows)
    (hn : n ∈ a.cols) : ((t.stream x af rows).hit i n, (t.stream x af rows).sum i n) =
      (true, t.sum i n + (List.zipWith (fun p q : Int => p * q) (a.codes.map (toInt 8)) (x.colInt n)).sum) := by
  have hj : (i, a, n) ∈ jobsOf rows := mem_jobsOf.mpr ⟨he, hn⟩
  refine foldl_once (P := fun u : Tile => u.isInt = true) (R := fun u : Tile => (u.hit i n, u.sum i n))
    (fun u j hu => (Tile.isInt_addCell ..).trans hu) (fun u hu heq => ?_) (fun u j _ hj' hne => ?_)
    h.cells_nodup.of_map hj hint
  · obtain ⟨-, hsum⟩ := Prod.mk.inj heq
    simp only [Tile.addCell, hu, if_true, Tile.addInt_same, hsum, List.sum_eq_foldl]
  · have hcell := Prod.mk.inj (u.cell_addCell_ne x af j.2.1 (h.tix_ne hj hj' hne))
    obtain ⟨hrun, hcell⟩ := hcell
    obtain ⟨hhit, hpending⟩ := Prod.mk.inj hcell
    simp only [Tile.sum, hrun, hhit, hpending]

theorem stream_float (h : RowsOk rows) (t : Tile) (hfloat : t.isInt = false) {i n : Nat} {a : ActRow} (he : (i, a) ∈ rows)
    (hn : n ∈ a.cols) : ((t.stream x af rows).run i n, (t.stream x af rows).hit i n) =
      (f32add (t.run i n) (chunk (List.zip (a.vals af) (x.col n))).1, true) := by
  have hj : (i, a, n) ∈ jobsOf rows := mem_jobsOf.mpr ⟨he, hn⟩
  refine foldl_once (P := fun u : Tile => u.isInt = false) (R := fun u : Tile => (u.run i n, u.hit i n))
    (fun u j hu => (Tile.isInt_addCell ..).trans hu) (fun u hu heq => ?_) (fun u j _ hj' hne => ?_)
    h.cells_nodup.of_map hj hfloat
  · obtain ⟨hrun, -⟩ := Prod.mk.inj heq
    simp only [Tile.addCell, hu, if_false, Bool.false_eq_true, Tile.addChunk_same, hrun]
  · have hcell := Prod.mk.inj (u.cell_addCell_ne x af j.2.1 (h.tix_ne hj hj' hne))
    obtain ⟨hrun, hcell⟩ := hcell
    obtain ⟨hhit, -⟩ := Prod.mk.inj hcell
    simp only [hrun, hhit]

end RowsOk

/-- The rows a stream takes are distinct, and its columns are those of its slot. -/
theorem State.actRows_ok (s : State) (k c : Nat) {x : Slot} (hcols : x.nCols ≤ 512) : RowsOk (s.actRows k c x) := by
  have hall : ∀ {cols : List Nat}, cols.Sublist (List.range x.nCols) → cols.Nodup ∧ ∀ n ∈ cols, n < 512 := fun hsub =>
    ⟨List.nodup_range.sublist hsub, fun n hn => lt_of_lt_of_le (List.mem_range.mp (hsub.subset hn)) hcols⟩
  have hof : ∀ g : Nat → Option (Nat × ActRow),
      (∀ i e, g i = some e → e.1 = i ∧ e.2.cols.Sublist (List.range x.nCols)) → RowsOk ((List.range (stRows c)).filterMap g) := by
    intro g hg
    refine ⟨?_, fun e he => ?_, fun e he => ?_⟩
    · refine List.pairwise_filterMap.mpr (List.nodup_range.imp fun hne e he e' he' => ?_)
      rwa [(hg _ e he).1, (hg _ e' he').1]
    all_goals
      obtain ⟨i, -, he⟩ := List.mem_filterMap.mp he
    · exact (hall (hg i e he).2).1
    · exact (hall (hg i e he).2).2
  unfold State.actRows
  extract_lets f all rows
  split
  · rw [← List.filterMap_eq_map]
    refine hof _ fun i e he => ?_
    obtain rfl := Option.some.inj he
    exact ⟨rfl, .refl _⟩
  · refine hof _ fun i e he => ?_
    extract_lets es cols codes at he
    split at he
    · split at he
      · cases he
      · obtain rfl := Option.some.inj he
        exact ⟨rfl, List.filter_sublist⟩
    · split at he
      · cases he
      · obtain rfl := Option.some.inj he
        exact ⟨rfl, .refl _⟩

end Sys2Proof.Machine
end

section
/-!
SUPPORT, O60. The start checks of a stream, and the products of a dense INT8 stream (R55, R69, R77, R92, R402).
-/

namespace Sys2Proof.Machine

/-! ### Integer rows are bytes (R69, R71) -/

theorem State.loftNum_one (s : State) (k off : Nat) : s.loftNum k off 1 = (s.byte (loftKey k off)).toNat := by
  simp [State.loftNum, State.loft, State.getBytes, ofBytes]

theorem State.rowElems_int (s : State) (k off n : Nat) :
    s.rowElems k off 5 n = (List.range n).map (fun r => s.loftNum k (off + r) 1) := by
  have hlen : rowBytes 5 n = n := by
    simp only [rowBytes, mxaBits, ceilDiv]
    omega
  unfold State.rowElems
  refine List.map_congr_left fun r hr => ?_
  have hr : r < (s.loft k off n).length := by simpa using hr
  rw [hlen, State.loftNum_one]
  simp only [mxaBits, State.loftNum]
  rw [bits_ofBytes hr]
  simp [State.loft, State.getBytes, loftKey, Nat.add_assoc]

theorem mxaGroup_int {f : Nat} (h : mxaGroup f = some 3) : f = 5 := by
  unfold mxaGroup at h
  split at h <;> simp_all

/-- The exact product of an INT8 activation row with a weight column (R55). -/
theorem dot_int (s : State) (k off : Nat) (x : Slot) (n : Nat) :
    List.zipWith (fun p q : Int => p * q) ((s.rowElems k off 5 x.kRows).map (toInt 8)) (x.colInt n) =
      (List.range x.kRows).map (fun r => toInt 8 (s.loftNum k (off + r) 1) * toInt 8 (x.code r n)) := by
  rw [State.rowElems_int, Slot.colInt, List.map_map, List.zipWith_map]
  exact List.zipWith_self

/-- A dense stream takes every row and every column (R71). -/
theorem State.mem_actRows_dense (s : State) (k c : Nat) (x : Slot) (hop : mxOp c = 2) {i : Nat} (hi : i < stRows c) :
    ∃ a : ActRow, (i, a) ∈ s.actRows k c x ∧ a.cols = List.range x.nCols ∧
      a.codes = s.rowElems k (stAct c + i * stActPitch c) (mxFmtF c) x.kRows := by
  unfold State.actRows
  rw [if_pos hop]
  exact ⟨_, List.mem_map.mpr ⟨i, List.mem_range.mpr hi, rfl⟩, rfl, rfl⟩

/-! ### The start checks of a stream (R77, R92, R402) -/

theorem State.streamRegions_zero {s : State} {k c : Nat} {x : Slot} (h : s.streamRegions k c x = 0) :
    8 * x.nCols ≤ totPitchOf c ∧ stTot c + (stRows c - 1) * totPitchOf c + 8 * x.nCols ≤ loftSize := by
  unfold State.streamRegions at h
  extract_lets rows tp ab totBad ps at h
  have htot : totBad = false → stTot c + (stRows c - 1) * totPitchOf c + 8 * x.nCols ≤ loftSize := by
    intro hbad
    simpa [totBad] using hbad
  split at h
  · split at h
    · cases h
    · next hpitch =>
      split at h
      · cases h
      · next hregion =>
        simp only [not_or, Bool.not_eq_true] at hpitch hregion
        exact ⟨Nat.not_lt.mp hpitch.2, htot hregion.2.1⟩
  · split at h
    · cases h
    · next hpitch =>
      split at h
      · cases h
      · next hregion =>
        simp only [not_or, Bool.not_eq_true] at hpitch hregion
        exact ⟨Nat.not_lt.mp hpitch.2.1, htot hregion.2.1⟩

/-- A stream that passes its checks finds a binding whose totals lie in the loft, and the tile it finds has that binding. -/
theorem State.streamCheck_ok {s : State} {k c : Nat} {x : Slot} {b : Tile} (h : s.streamCheck k c = (0, some (x, b))) :
    ∃ g, mxaGroup (mxFmtF c) = some g ∧ b = bindTile c (totPitchOf c) x (decide (g = 3)) ∧
      8 * x.nCols ≤ totPitchOf c ∧ stTot c + (stRows c - 1) * totPitchOf c + 8 * x.nCols ≤ loftSize ∧
      (((s.mxa k).tile (mxTile c)).getD b).binding = b.binding := by
  unfold State.streamCheck at h
  split at h
  · cases h
  · next g hg =>
    split at h
    · cases h
    · next y hslot =>
      split at h
      · cases h
      · split at h
        · cases h
        · extract_lets r b' at h
          split at h
          · next hr => exact absurd (congrArg Prod.fst h) hr
          · next hr =>
            have hbinds : (((s.mxa k).tile (mxTile c)).getD b').binding = b'.binding ∧ (0, some (y, b')) = (0, some (x, b)) := by
              cases htile : (s.mxa k).tile (mxTile c) with
              | none =>
                simp only [htile, Bool.false_eq_true, if_false] at h
                split at h
                · cases h
                · exact ⟨rfl, h⟩
              | some t =>
                simp only [htile] at h
                split at h
                · cases h
                · next hbound =>
                  split at h
                  · cases h
                  · obtain ⟨h1, h2, h3, h4, h5, h6⟩ : t.rows = b'.rows ∧ t.nCols = b'.nCols ∧ t.isInt = b'.isInt ∧
                      t.tot = b'.tot ∧ t.totPitch = b'.totPitch ∧ t.p = b'.p := by simpa [Tile.binds] using hbound
                    exact ⟨by simp only [Option.getD_some, Tile.binding, h1, h2, h3, h4, h5, h6], h⟩
            obtain ⟨hbinds, heq⟩ := hbinds
            obtain ⟨rfl, rfl⟩ := Prod.mk.inj (Option.some.inj (Prod.mk.inj heq).2)
            obtain ⟨hpitch, hregion⟩ := State.streamRegions_zero (not_not.mp hr)
            exact ⟨g, hg, rfl, hpitch, hregion, hbinds⟩

end Sys2Proof.Machine
end

section
/-!
SUPPORT, O60. What a promotion and a stream leave: memory, the tile and the matrix arrays (R54, R55, R77, R83, R90).
-/

namespace Sys2Proof.Machine

/-! ### Promotions as the totals they leave (R83, R90) -/

/-- The totals of tile `t` in `u` are those of `s` promoted, and no other byte differs. -/
def State.Promoted (s : State) (k : Nat) (t : Tile) (u : State) : Prop :=
  (∀ i n, i < t.rows → n < t.nCols → u.loftNum k (t.totalAt (i, n)) 8 = s.newTotal k t i n) ∧
  ∀ j, (∀ i n b, i < t.rows → n < t.nCols → b < 8 → j ≠ loftKey k (t.totalAt (i, n)) + b) → u.byte j = s.byte j

/-- Only the bytes of two states matter. -/
theorem State.Promoted.congr {s s' u u' : State} {k : Nat} {t : Tile} (h : s.Promoted k t u) (hs : s'.mem = s.mem)
    (hu : u'.mem = u.mem) : s'.Promoted k t u' := by
  obtain ⟨htotal, hbyte⟩ := h
  have hbytes : ∀ {v v' : State}, v'.mem = v.mem → ∀ j, v'.byte j = v.byte j := fun hv j => by simp only [State.byte, hv]
  have hnum : ∀ {v v' : State}, v'.mem = v.mem → ∀ off n, v'.loftNum k off n = v.loftNum k off n := fun hv off n => by
    simp only [State.loftNum, State.loft, State.getBytes, hbytes hv]
  refine ⟨fun i n hi hn => ?_, fun j hj => ?_⟩
  · rw [hnum hu, htotal i n hi hn]
    simp only [State.newTotal, State.total, hnum hs]
  · rw [hbytes hu, hbyte j hj, hbytes hs]

theorem State.promoteTile_promoted (s : State) (k : Nat) {t : Tile} (hplaced : t.placed = true) :
    s.Promoted k t (s.promoteTile k t).1 :=
  ⟨fun _ _ hi hn => s.promoteTile_loftNum k hplaced hi hn, fun _ hj => s.promoteTile_byte k t hj⟩

/-- The new total in the terms of R54 and R55. -/
theorem State.newTotal_eq (s : State) (k : Nat) (t : Tile) (i n : Nat) : s.newTotal k t i n =
    if t.hit i n then
      if t.isInt then
        ofInt 64 (addSat64 (addSat64 (toInt 64 (s.total k t i n)) (t.pending i n)).1 (toInt 32 (t.run i n))).1
      else (promote (s.total k t i n % 2 ^ 32) (s.total k t i n / 2 ^ 32) (t.run i n)).1 +
        (promote (s.total k t i n % 2 ^ 32) (s.total k t i n / 2 ^ 32) (t.run i n)).2 * 2 ^ 32
    else s.total k t i n := by
  unfold State.newTotal promoteElem
  cases t.isInt <;> rfl

/-! ### What a stream leaves (R77, R90) -/

/-- A tile whose runs start again from 0 after a promotion. -/
def Tile.restart (t : Tile) : Tile := { t with runs := [], totals := [], chunks := 0, first := false }

/-- The tile a stream works on: promoted first where P chunks are due. -/
def Tile.dueRestart (t : Tile) : Tile := if t.p ≤ t.chunks then t.restart else t

/-- The tile a stream leaves. -/
def State.streamed (s : State) (k c : Nat) (x : Slot) (t : Tile) : Tile :=
  { t.dueRestart.stream x (mxFmtF c) (s.actRows k c x) with
    chunks := t.dueRestart.chunks + 1, cols := x.cols s.free, final := 0 }

theorem State.runStream_mem (s : State) (k : Nat) (d : Desc) (x : Slot) (b : Tile) :
    let t := ((s.mxa k).tile (mxTile d.bits.toNat)).getD b
    (s.runStream k d x b).mem = if t.p ≤ t.chunks then (s.promoteTile k t).1.mem else s.mem := by
  intro t
  unfold State.runStream
  extract_lets c t' due pr s1 t1 r rt t2 s2
  have hs1 : s1.mem = if t.p ≤ t.chunks then (s.promoteTile k t).1.mem else s.mem := by
    simp only [s1, due, decide_eq_true_eq]
    split
    · simp [pr, t', c, t]
    · rfl
  have hs2 : s2.mem = s1.mem := by
    simp only [s2]
    split <;> rfl
  rw [State.mem_nanEvents, State.mem_modMxa, hs2, hs1]

theorem State.runStream_mxa_ne (s : State) {k j : Nat} (d : Desc) (x : Slot) (b : Tile) (h : j ≠ k) :
    (s.runStream k d x b).mxa j = s.mxa j := by
  unfold State.runStream
  extract_lets c t' due pr s1 t1 r rt t2 s2
  have hs1 : s1.mxa j = s.mxa j := by
    simp only [s1]
    split
    · rw [State.mxa_nanEvents, State.mxa_satMxa_ne _ _ h]
      obtain ⟨m, hm⟩ := s.promoteTile_eq k t'
      simp only [pr, hm]
      rfl
    · rfl
  have hs2 : s2.mxa j = s1.mxa j := by
    simp only [s2]
    split <;> rfl
  rw [State.mxa_nanEvents, State.mxa_modMxa_ne _ _ h, hs2, hs1]

theorem State.runStream_mxa_same (s : State) (k : Nat) (d : Desc) (x : Slot) (b : Tile) :
    ∃ sat, (s.runStream k d x b).mxa k = ({ s.mxa k with intSat := sat } : Mxa).setTile (mxTile d.bits.toNat)
      (some (s.streamed k d.bits.toNat x (((s.mxa k).tile (mxTile d.bits.toNat)).getD b))) := by
  unfold State.runStream
  extract_lets c t' due pr s1 t1 r rt t2 s2
  have hs1 : ∃ sat, s1.mxa k = { s.mxa k with intSat := sat } := by
    simp only [s1]
    split
    · rw [State.mxa_nanEvents]
      obtain ⟨m, hm⟩ := s.promoteTile_eq k t'
      obtain ⟨sat, hsat⟩ := pr.1.mxa_satMxa_same k pr.2.2.2
      refine ⟨sat, ?_⟩
      rw [hsat]
      simp only [pr, hm]
      rfl
    · exact ⟨(s.mxa k).intSat, rfl⟩
  have hs2 : s2.mxa k = s1.mxa k := by
    simp only [s2]
    split <;> rfl
  have ht1 : t1 = t'.dueRestart := by
    simp only [t1, due, decide_eq_true_eq]
    rfl
  have ht2 : t2 = s.streamed k c x t' := by
    simp only [t2, rt, r, foldl_streamRow_tile, ht1]
    rfl
  obtain ⟨sat, hsat⟩ := hs1
  exact ⟨sat, by rw [State.mxa_nanEvents, State.mxa_modMxa_same, hs2, hsat, ht2]⟩

end Sys2Proof.Machine
end

section
/-!
SUPPORT, O60. The start of a stream or a drain: which state it leaves (R86).
-/

namespace Sys2Proof.Machine

/-! ### The start of a command (R86) -/

theorem Mxa.tile_setTile_same (m : Mxa) (b : Bool) (t : Option Tile) : (m.setTile b t).tile b = t := by cases b <;> rfl

theorem Mxa.tile_setTile_other (m : Mxa) (b : Bool) (t : Option Tile) : (m.setTile b t).tile (!b) = m.tile (!b) := by
  cases b <;> rfl

/-- What a new tile leaves of a matrix array. -/
theorem Mxa.setTile_rest (m : Mxa) (b : Bool) (t : Option Tile) :
    ((m.setTile b t).slot0, (m.setTile b t).slot1, (m.setTile b t).queue) = (m.slot0, m.slot1, m.queue) := by
  cases b <;> rfl

/-- The head of the queue of shed `sh` leaves it, which leaves `rest`. -/
def State.popCommand (s : State) (sh : Nat) (rest : List Desc) : State :=
  (s.modMxa sh (fun m => { m with queue := rest })).touch sh

section
variable (s : State) (sh : Nat) (rest : List Desc)

@[simp] theorem State.mem_popCommand : (s.popCommand sh rest).mem = s.mem := rfl

theorem State.mxa_popCommand_same : (s.popCommand sh rest).mxa sh = { s.mxa sh with queue := rest } := by
  rw [State.popCommand, State.mxa_touch, State.mxa_modMxa_same]

theorem State.mxa_popCommand_ne {j : Nat} (h : j ≠ sh) : (s.popCommand sh rest).mxa j = s.mxa j := by
  rw [State.popCommand, State.mxa_touch, State.mxa_modMxa_ne _ _ h]

end

/-! What a stream reads of the loft depends on memory alone. -/

section
variable {s s' : State} (h : s'.mem = s.mem)
include h

theorem State.loft_congr (k off n : Nat) : s'.loft k off n = s.loft k off n := by
  simp only [State.loft, State.getBytes, State.byte, h]

theorem State.loftNum_congr (k off n : Nat) : s'.loftNum k off n = s.loftNum k off n := by
  simp only [State.loftNum, State.loft_congr h]

theorem State.rowElems_congr (k off f n : Nat) : s'.rowElems k off f n = s.rowElems k off f n := by
  simp only [State.rowElems, State.loftNum_congr h]

theorem State.spPtrs_congr (k c : Nat) : s'.spPtrs k c = s.spPtrs k c := by
  simp only [State.spPtrs, State.loftNum_congr h]

theorem State.spRows_congr (k c : Nat) : s'.spRows k c = s.spRows k c := by
  simp only [State.spRows, State.spPtrs_congr h, State.loft_congr h]

theorem State.actRows_congr (k c : Nat) (x : Slot) : s'.actRows k c x = s.actRows k c x := by
  simp only [State.actRows, State.rowElems_congr h, State.spRows_congr h, State.loft_congr h]

theorem State.streamRegions_congr (k c : Nat) (x : Slot) : s'.streamRegions k c x = s.streamRegions k c x := by
  simp only [State.streamRegions, State.spPtrs_congr h]

theorem State.streamCheck_congr (k c : Nat) (hslot : (s'.mxa k).slot (mxSlot c) = (s.mxa k).slot (mxSlot c))
    (htile : (s'.mxa k).tile (mxTile c) = (s.mxa k).tile (mxTile c)) : s'.streamCheck k c = s.streamCheck k c := by
  simp only [State.streamCheck, State.streamRegions_congr h, State.spRows_congr h, hslot, htile]

end

theorem Mxa.slot_queue (m : Mxa) (q : List Desc) (b : Bool) : ({ m with queue := q } : Mxa).slot b = m.slot b := rfl
theorem Mxa.tile_queue (m : Mxa) (q : List Desc) (b : Bool) : ({ m with queue := q } : Mxa).tile b = m.tile b := rfl

/-- The state in which a stream that passed its checks runs on its engine. -/
def State.streamStarted (s : State) (sh : Nat) (d : Desc) (rest : List Desc) (x : Slot) (b : Tile) (size : Nat) : State :=
  ((s.popCommand sh rest).runStream sh d x b).modMxa sh (fun m => m.begin d size false)

section
variable {s : State} {sh : Nat} {d : Desc} {rest : List Desc} (hsh : sh < 32) (hq : (s.mxa sh).queue = d :: rest)
  (hawake : (s.shed sh).asleep = false) (hheld : (s.mxa sh).held = []) (hstart : (s.mxa sh).mayStart d.bits.toNat = true)
include hsh hq hawake hheld hstart

theorem exec_streamStart {x : Slot} {b : Tile} (hop : mxOp d.bits.toNat = 2 ∨ mxOp d.bits.toNat = 3)
    (hcheck : s.streamCheck sh d.bits.toNat = (0, some (x, b))) :
    ∃ size, exec (.mxaCommandStart sh) s = .next (s.streamStarted sh d rest x b size) := by
  have hpop : (s.popCommand sh rest).streamCheck sh d.bits.toNat = (0, some (x, b)) := by
    rw [State.streamCheck_congr (s.mem_popCommand sh rest), hcheck]
    · rw [s.mxa_popCommand_same sh rest, Mxa.slot_queue]
    · rw [s.mxa_popCommand_same sh rest, Mxa.tile_queue]
  show ∃ size, execMxaCommandStart sh s = _
  unfold execMxaCommandStart
  rw [if_neg (by omega)]
  simp only [hq, hawake, hheld, hstart]
  rcases hop with hop | hop
  all_goals
    simp only [hop]
    rw [if_neg (by simp)]
    simp only [State.popCommand] at hpop
    simp only [hpop]
    exact ⟨_, rfl⟩

theorem exec_drainStart {t : Tile} (hop : mxOp d.bits.toNat = 4) (htile : (s.mxa sh).tile (mxTile d.bits.toNat) = some t)
    (hcheck : drainCheck d.bits.toNat (some t) = 0) :
    ∃ size sat, exec (.mxaCommandStart sh) s =
      .next (((s.popCommand sh rest).runDrain sh d t).1.modMxa sh (fun m => m.begin d size sat)) := by
  show ∃ size sat, execMxaCommandStart sh s = _
  unfold execMxaCommandStart
  rw [if_neg (by omega)]
  simp only [hq, hawake, hheld, hstart, hop, htile, hcheck]
  rw [if_neg (by simp)]
  exact ⟨_, _, rfl⟩

end

/-! ### A stream starts (O60, first clause) -/

theorem Mxa.begin_stream (m : Mxa) {d : Desc} (size : Nat) (sat : Bool) (hop : mxOp d.bits.toNat = 2 ∨ mxOp d.bits.toNat = 3) :
    m.begin d size sat = { m with stream := some { cmd := d, size := size, sat := sat } } := by
  rcases hop with hop | hop <;> simp only [Mxa.begin, hop]

theorem Mxa.begin_drain (m : Mxa) {d : Desc} (size : Nat) (sat : Bool) (hop : mxOp d.bits.toNat = 4) :
    m.begin d size sat = { m with drain := some { cmd := d, size := size, sat := sat } } := by
  simp only [Mxa.begin, hop]

section
variable (s : State) (sh : Nat) (d : Desc) (rest : List Desc) (x : Slot) (b : Tile) (size : Nat)

/-- The tile a stream of command `d` finds, or binds. -/
def State.streamTile : Tile := ((s.mxa sh).tile (mxTile d.bits.toNat)).getD b

theorem State.streamStarted_mem : (s.streamStarted sh d rest x b size).mem =
    if (s.streamTile sh d b).p ≤ (s.streamTile sh d b).chunks
      then ((s.popCommand sh rest).promoteTile sh (s.streamTile sh d b)).1.mem else s.mem := by
  have hrun := (s.popCommand sh rest).runStream_mem sh d x b
  rw [s.mxa_popCommand_same sh rest, Mxa.tile_queue] at hrun
  exact hrun

theorem State.streamStarted_mxa_ne {j : Nat} (h : j ≠ sh) : (s.streamStarted sh d rest x b size).mxa j = s.mxa j := by
  rw [State.streamStarted, State.mxa_modMxa_ne _ _ h, State.runStream_mxa_ne _ _ _ _ h, State.mxa_popCommand_ne _ _ _ h]

theorem State.streamStarted_mxa_same : ∃ sat, (s.streamStarted sh d rest x b size).mxa sh =
    (({ s.mxa sh with queue := rest, intSat := sat } : Mxa).setTile (mxTile d.bits.toNat)
      (some (s.streamed sh d.bits.toNat x (s.streamTile sh d b)))).begin d size false := by
  obtain ⟨sat, hsat⟩ := (s.popCommand sh rest).runStream_mxa_same sh d x b
  refine ⟨sat, ?_⟩
  rw [State.streamStarted, State.mxa_modMxa_same, hsat, s.mxa_popCommand_same sh rest, Mxa.tile_queue]
  simp only [State.streamed, State.actRows_congr (s.mem_popCommand sh rest)]
  rfl

end

end Sys2Proof.Machine
end

section
/-!
SUPPORT, O60. The tile, the matrix array and the memory that the start of a stream leaves (R55, R71, R77, R83, R90).
-/

namespace Sys2Proof.Machine

/-! ### The tile a stream leaves (R77, R83, R90) -/

theorem Tile.dueRestart_binding (t : Tile) : t.dueRestart.binding = t.binding := by
  unfold Tile.dueRestart
  split <;> rfl

theorem State.streamed_binding (s : State) (k c : Nat) (x : Slot) (t : Tile) : (s.streamed k c x t).binding = t.binding :=
  (Tile.binding_stream ..).trans t.dueRestart_binding

theorem Tile.placed_congr {t u : Tile} (h : t.binding = u.binding) : t.placed = u.placed := by
  simp only [Tile.binding, Prod.mk.injEq] at h
  obtain ⟨⟨hrows, hcols, -⟩, htot, hpitch, -⟩ := h
  simp only [Tile.placed, hrows, hcols, htot, hpitch]

theorem Tile.dueRestart_chunks (t : Tile) : t.dueRestart.chunks + 1 = if t.p ≤ t.chunks then 1 else t.chunks + 1 := by
  unfold Tile.dueRestart
  split <;> rfl

theorem Tile.dueRestart_run (t : Tile) (i n : Nat) : t.dueRestart.run i n = if t.p ≤ t.chunks then 0 else t.run i n := by
  unfold Tile.dueRestart
  split <;> rfl

theorem Tile.dueRestart_hit (t : Tile) (i n : Nat) : t.dueRestart.hit i n = t.hit i n := by
  unfold Tile.dueRestart
  split <;> rfl

theorem Tile.dueRestart_sum (t : Tile) (i n : Nat) : t.dueRestart.sum i n = if t.p ≤ t.chunks then 0 else t.sum i n := by
  unfold Tile.dueRestart
  split
  · simp [Tile.sum, Tile.run, Tile.pending, Tile.restart, FMap.get, toInt]
  · rfl

section
variable (s : State) (k c : Nat) {x : Slot} (t : Tile) (hcols : x.nCols ≤ 512) {i n : Nat}
include hcols

theorem State.streamed_unreached (hn : n < 512) (hout : ¬∃ a, (i, a) ∈ s.actRows k c x ∧ n ∈ a.cols) :
    (s.streamed k c x t).run i n = (if t.p ≤ t.chunks then 0 else t.run i n) ∧ (s.streamed k c x t).hit i n = t.hit i n := by
  have hcell := (s.actRows_ok k c hcols).stream_unreached x (mxFmtF c) t.dueRestart hn hout
  obtain ⟨hrun, hcell⟩ := Prod.mk.inj hcell
  obtain ⟨hhit, -⟩ := Prod.mk.inj hcell
  exact ⟨hrun.trans (t.dueRestart_run i n), hhit.trans (t.dueRestart_hit i n)⟩

theorem State.streamed_int (hint : t.isInt = true) {a : ActRow} (he : (i, a) ∈ s.actRows k c x) (hn : n ∈ a.cols) :
    (s.streamed k c x t).hit i n = true ∧ (s.streamed k c x t).sum i n = (if t.p ≤ t.chunks then 0 else t.sum i n) +
      (List.zipWith (fun p q : Int => p * q) (a.codes.map (toInt 8)) (x.colInt n)).sum := by
  have hint' : t.dueRestart.isInt = true := (congrArg (fun b => b.1.2.2) t.dueRestart_binding).trans hint
  have hcell := (s.actRows_ok k c hcols).stream_int x (mxFmtF c) t.dueRestart hint' he hn
  obtain ⟨hhit, hsum⟩ := Prod.mk.inj hcell
  exact ⟨hhit, t.dueRestart_sum i n ▸ hsum⟩

theorem State.streamed_float (hfloat : t.isInt = false) {a : ActRow} (he : (i, a) ∈ s.actRows k c x) (hn : n ∈ a.cols) :
    (s.streamed k c x t).hit i n = true ∧ (s.streamed k c x t).run i n =
      f32add (if t.p ≤ t.chunks then 0 else t.run i n) (chunk (List.zip (a.vals (mxFmtF c)) (x.col n))).1 := by
  have hfloat' : t.dueRestart.isInt = false := (congrArg (fun b => b.1.2.2) t.dueRestart_binding).trans hfloat
  have hcell := (s.actRows_ok k c hcols).stream_float x (mxFmtF c) t.dueRestart hfloat' he hn
  obtain ⟨hrun, hhit⟩ := Prod.mk.inj hcell
  exact ⟨hhit, t.dueRestart_run i n ▸ hrun⟩

end

/-- The totals of a stream that passes its checks lie in the loft (R92). -/
theorem State.streamTile_placed {s : State} {sh : Nat} {d : Desc} {x : Slot} {b : Tile}
    (hcheck : s.streamCheck sh d.bits.toNat = (0, some (x, b))) (hcols : x.nCols ≤ 512) :
    (s.streamTile sh d b).placed = true := by
  obtain ⟨g, -, rfl, hpitch, hregion, hbinding⟩ := State.streamCheck_ok hcheck
  rw [State.streamTile, Tile.placed_congr hbinding]
  exact decide_eq_true ⟨hcols, hpitch, hregion⟩

/-- A start of a stream changes one tile, the queue and the engine of its matrix array. -/
theorem State.streamStarted_arrays (s : State) (sh : Nat) {d : Desc} (rest : List Desc) (x : Slot) (b : Tile) (size : Nat)
    (hop : mxOp d.bits.toNat = 2 ∨ mxOp d.bits.toNat = 3) :
    let u := (s.streamStarted sh d rest x b size).mxa sh
    let m := s.mxa sh
    u.tile (mxTile d.bits.toNat) = some (s.streamed sh d.bits.toNat x (s.streamTile sh d b)) ∧
      u.tile (!(mxTile d.bits.toNat)) = m.tile (!(mxTile d.bits.toNat)) ∧ (u.slot0, u.slot1, u.queue) = (m.slot0, m.slot1, rest) ∧
      ∃ r, u.stream = some r ∧ r.cmd = d := by
  intro u m
  obtain ⟨sat, hsat⟩ := s.streamStarted_mxa_same sh d rest x b size
  simp only [u, hsat, Mxa.begin_stream _ _ _ hop]
  exact ⟨Mxa.tile_setTile_same .., Mxa.tile_setTile_other .., Mxa.setTile_rest .., _, rfl, rfl⟩

/-- Memory after the start of a stream: the totals promoted where P chunks are due, else as before (R90). -/
theorem State.streamStarted_memory (s : State) (sh : Nat) (d : Desc) (rest : List Desc) (x : Slot) (b : Tile) (size : Nat)
    (hplaced : (s.streamTile sh d b).placed = true) :
    if (s.streamTile sh d b).p ≤ (s.streamTile sh d b).chunks
      then s.Promoted sh (s.streamTile sh d b) (s.streamStarted sh d rest x b size)
      else (s.streamStarted sh d rest x b size).mem = s.mem := by
  have hmem := s.streamStarted_mem sh d rest x b size
  split
  · next hdue =>
    rw [if_pos hdue] at hmem
    exact ((s.popCommand sh rest).promoteTile_promoted sh hplaced).congr rfl hmem
  · next hdue => rwa [if_neg hdue] at hmem

/-- An INT8 stream that reads whole rows adds the exact products of memory's bytes with the weights (R55, R71). -/
theorem State.streamed_dense {s : State} {sh : Nat} {d : Desc} {x : Slot} {b : Tile} 
    (hcheck : s.streamCheck sh d.bits.toNat = (0, some (x, b))) (hcols : x.nCols ≤ 512) (hop : mxOp d.bits.toNat = 2)
    (hint : (s.streamTile sh d b).isInt = true) {i n : Nat} (hi : i < stRows d.bits.toNat) (hn : n < x.nCols) :
    (s.streamed sh d.bits.toNat x (s.streamTile sh d b)).sum i n =
      (if (s.streamTile sh d b).p ≤ (s.streamTile sh d b).chunks then 0 else (s.streamTile sh d b).sum i n) +
      ((List.range x.kRows).map (fun r =>
        toInt 8 (s.loftNum sh (stAct d.bits.toNat + i * stActPitch d.bits.toNat + r) 1) * toInt 8 (x.code r n))).sum := by
  obtain ⟨g, hgroup, rfl, -, -, hbinding⟩ := State.streamCheck_ok hcheck
  have hg : g = 3 := by
    have hkind := congrArg (fun b => b.1.2.2) hbinding
    simpa [Tile.binding, bindTile] using hkind.symm.trans hint
  obtain ⟨a, ha, hacols, hacodes⟩ := s.mem_actRows_dense sh d.bits.toNat x hop hi
  have hsum := (s.streamed_int sh d.bits.toNat _ hcols hint ha (hacols ▸ List.mem_range.mpr hn)).2
  subst hg
  rwa [hacodes, mxaGroup_int hgroup, dot_int] at hsum

end Sys2Proof.Machine
end

section
/-!
SUPPORT, O60. The output elements of a final drain and the checks it passes (R49, R55, R82, R83, R92, R402).
-/

namespace Sys2Proof.Machine

/-! ### Output elements (R49, R55, R82, R83) -/

/-- The output code of a total, in the terms of R82 and R83. -/
def outValue (isInt : Bool) (o w : Nat) : Nat :=
  if isInt then (if o = 0 then fp32.encode (fOfInt (toInt 64 w)) else if o = 5 then
    ofInt 32 (max (-(2 ^ 31)) (min (2 ^ 31 - 1) (toInt 64 w))) else w)
  else (outFmt o).encode ((fp32.decode (w % 2 ^ 32)).add (fp32.decode (w / 2 ^ 32)))

/-- An integer converts to a range by clamping (R49). -/
theorem toRange_fOfInt {i lo hi : Int} (h : lo ≤ hi) : ((fOfInt i).toRange lo hi).1 = max lo (min hi i) := by
  have hexact : (FVal.fin (decide (i < 0)) i.natAbs 0).toIntR = i := by
    simp only [FVal.toIntR, rne, le_refl, if_true, sub_self, Int.toNat_zero, Nat.shiftLeft_zero, decide_eq_true_eq]
    split <;> omega
  simp only [fOfInt, FVal.toRange, hexact]
  split
  · simp only; omega
  · split <;> simp only <;> omega

theorem ofInt_toInt_of_lt {w n : Nat} (h : n < 2 ^ w) : ofInt w (toInt w n) = n := by
  rw [toInt_of_lt h, ofInt_eq]
  have : ((n : Int) - 2 ^ w) % 2 ^ w = n % 2 ^ w := by simp
  split
  · rw [Int.emod_eq_of_lt (by positivity) (by exact_mod_cast h)]; rfl
  · rw [this, Int.emod_eq_of_lt (by positivity) (by exact_mod_cast h)]; rfl

theorem outCode_code {o w : Nat} (isInt : Bool) (hw : w < 256 ^ 8) (cause : Nat) : (outCode isInt o w cause).1 = outValue isInt o w := by
  cases isInt with
  | false => rfl
  | true =>
    simp only [outCode, outValue, if_true]
    split
    · rfl
    · rw [if_neg (by decide), if_pos rfl]
      exact congrArg (ofInt 32) (toRange_fOfInt (by decide))
    · next h0 h5 =>
      rw [if_neg h0, if_neg h5]
      exact ofInt_toInt_of_lt hw

/-- The codes of R82 that a drain may ask of a tile. -/
def outAllowed (isInt : Bool) (o : Nat) : Prop := if isInt then o = 0 ∨ o = 5 ∨ o = 6 else o ≤ 4

theorem outValue_lt {isInt : Bool} {o w : Nat} (ho : outAllowed isInt o) (hw : w < 256 ^ 8) : outValue isInt o w < 256 ^ outSize o := by
  cases isInt with
  | false => exact outFmt_encode_lt ho _
  | true =>
    rcases ho with rfl | rfl | rfl
    · exact fp32_encode_lt (fOfInt (toInt 64 w))
    · exact ofInt_lt 32 (max (-(2 ^ 31)) (min (2 ^ 31 - 1) (toInt 64 w)))
    · exact hw

theorem State.outElem_code (s : State) (k c : Nat) (t : Tile) (i n : Nat) :
    (s.outElem k c t i n).1 = outValue t.isInt (drOfmt c) (s.newTotal k t i n) := by
  unfold State.outElem State.newTotal
  split
  · exact outCode_code _ (promoteElem_lt _ _ _ _) _
  · exact outCode_code _ (s.total_lt _ _ _ _) _

/-! ### The checks of a drain (R92, R402) -/

theorem drainCheck_ok {c : Nat} {t : Tile} (h : drainCheck c (some t) = 0) (hfinal : drFinal c = true) :
    outAllowed t.isInt (drOfmt c) ∧ (drForm c = false → t.nCols * outSize (drOfmt c) ≤ drPitch c) := by
  simp only [drainCheck] at h
  have hfmt : outAllowed t.isInt (drOfmt c) := by
    by_contra hno
    rw [if_pos ⟨hfinal, hno⟩] at h
    cases h
  refine ⟨hfmt, fun hform => ?_⟩
  rw [if_neg fun hbad => hbad.2 hfmt] at h
  by_contra hpitch
  rw [if_pos ⟨hfinal, hform, Nat.not_le.mp hpitch⟩] at h
  cases h

end Sys2Proof.Machine
end

section
/-!
SUPPORT, O60. What a drain leaves: promoted totals, elements in rows, or packed runs with their row ranges (R83, R84, R90).
-/

namespace Sys2Proof.Machine

/-! ### Drains with FINAL = 0 (R83, R90) -/

section
variable (s : State) (k : Nat) (d : Desc) (t : Tile)

theorem State.runDrain_promote (h : drFinal d.bits.toNat = false) :
    (s.runDrain k d t).1.mem = (s.promoteTile k t).1.mem ∧
      (s.runDrain k d t).1.mxa k = (s.mxa k).setTile (mxTile d.bits.toNat) (some t.restart) ∧
      ∀ j, j ≠ k → (s.runDrain k d t).1.mxa j = s.mxa j := by
  obtain ⟨m, hm⟩ := s.promoteTile_eq k t
  unfold State.runDrain
  simp only [h, if_true, State.mem_nanEvents, State.mem_modMxa, State.mxa_nanEvents, State.mxa_modMxa_same,
    State.promoteTile_tile]
  refine ⟨trivial, ?_, fun j hj => ?_⟩
  · rw [hm]; rfl
  · rw [State.mxa_modMxa_ne _ _ hj, hm]; rfl

/-! ### Drains with FINAL = 1 and FORM = 0 (R83) -/

/-- Place of an output element. -/
def drainAt (c : Nat) (e : Nat × Nat) : Nat := drOut c + e.1 * drPitch c + e.2 * outSize (drOfmt c)

/-- The write of one output element of tile `t`, as its totals stand in `s`. -/
def State.drainStep (s : State) (k c : Nat) (t : Tile) (u : State) (e : Nat × Nat) : State :=
  u.putLoft k (drainAt c e) (toBytes (outSize (drOfmt c)) (outValue t.isInt (drOfmt c) (s.newTotal k t e.1 e.2)))

theorem State.drainStep_writesOwn (c : Nat) : WritesOwn k (outSize (drOfmt c)) (drainAt c) (s.drainStep k c t) :=
  fun _ _ => .inr ⟨_, toBytes_length _ _, rfl⟩

theorem State.runDrain_elements (hfinal : drFinal d.bits.toNat = true) (hform : drForm d.bits.toNat = false) :
    (s.runDrain k d t).1.matrixPart = (t.elems.foldl (s.drainStep k d.bits.toNat t) s).matrixPart := by
  unfold State.runDrain
  simp only [hfinal, hform, if_false, Bool.false_eq_true, Bool.true_eq_false, State.matrixPart_nanEvents, List.foldl_map,
    State.outElem_code]
  rfl

/-! ### Drains with FINAL = 1 and FORM = 1 (R84) -/

/-- The elements of row `i` of a packed output: column index and code of those that a run reached. -/
def State.packedRow (s : State) (k c : Nat) (t : Tile) (i : Nat) : List (Nat × Nat) :=
  ((List.range t.nCols).filter (fun n => t.hit i n)).map
    (fun n => ((t.cols[n]?).getD 0, outValue t.isInt (drOfmt c) (s.newTotal k t i n)))

/-- The row ranges and runs of rows 0 to `m` − 1. -/
def packedRows (row : Nat → List Byte) (m : Nat) : List Nat × List Byte :=
  ((List.range (m + 1)).map (fun i => ((List.range i).flatMap row).length), (List.range m).flatMap row)

theorem foldl_packedRows (row : Nat → List Byte) (m : Nat) :
    (List.range m).foldl (fun (acc : List Nat × List Byte) i => (acc.1 ++ [(acc.2 ++ row i).length], acc.2 ++ row i)) ([0], []) =
      packedRows row m := by
  induction m with
  | zero => rfl
  | succ m ih =>
    rw [List.range_succ, List.foldl_append, ih]
    simp [packedRows, List.range_succ (n := m + 1), List.range_succ (n := m), List.flatMap_append]

theorem packedRows_congr {row row' : Nat → List Byte} {m : Nat} (h : ∀ i, i < m → row i = row' i) :
    packedRows row m = packedRows row' m := by
  have hpre : ∀ n, n ≤ m → (List.range n).flatMap row = (List.range n).flatMap row' := fun n hn =>
    List.flatMap_congr fun i hi => h i (lt_of_lt_of_le (List.mem_range.mp hi) hn)
  refine Prod.ext (List.map_congr_left fun i hi => ?_) (hpre m le_rfl)
  rw [hpre i (by have := List.mem_range.mp hi; omega)]

/-- The one row of a table that is taken is that row. -/
theorem flatMap_range_single {α : Type} {m i : Nat} (hi : i < m) (l : List α) :
    (List.range m).flatMap (fun j => if j = i then l else []) = l := by
  induction m with
  | zero => omega
  | succ m ih =>
    rw [List.range_succ, List.flatMap_append]
    rcases Nat.lt_succ_iff_lt_or_eq.mp hi with hi | rfl
    · have hne : m ≠ i := by omega
      simp [ih hi, hne]
    · have hnone : (List.range i).flatMap (fun j => if j = i then l else []) = [] :=
        List.flatMap_eq_nil_iff.mpr fun j hj => if_neg (List.mem_range.mp hj).ne
      simp [hnone]

theorem formRuns_eq (c : Nat) : formRuns t (outSize (drOfmt c)) ((t.elems.filter (fun e => t.hit e.1 e.2)).map
      (fun e => (e, s.outElem k c t e.1 e.2))) =
    packedRows (fun i => rowRuns (outSize (drOfmt c)) (s.packedRow k c t i)) t.rows := by
  unfold formRuns
  rw [foldl_packedRows]
  refine packedRows_congr fun i hi => congrArg _ ?_
  rw [Tile.elems, List.filterMap_map, List.filter_flatMap, List.filterMap_flatMap, ← flatMap_range_single hi (s.packedRow k c t i)]
  refine List.flatMap_congr fun j _ => ?_
  rw [List.filter_map, List.filterMap_map]
  split
  · next hj =>
    subst hj
    rw [State.packedRow, ← List.filterMap_eq_map, List.filterMap_filter, List.filterMap_filter]
    refine List.filterMap_congr fun n _ => ?_
    simp only [Function.comp_apply, State.outElem_code, true_and]
    by_cases hhit : t.hit j n <;> simp [hhit]
  · next hj =>
    refine List.filterMap_eq_nil_iff.mpr fun n _ => ?_
    simp [hj]

theorem State.runDrain_packed (hfinal : drFinal d.bits.toNat = true) (hform : drForm d.bits.toNat = true) :
    let c := d.bits.toNat
    let rows := packedRows (fun i => rowRuns (outSize (drOfmt c)) (s.packedRow k c t i)) t.rows
    (s.runDrain k d t).1.matrixPart =
      ((s.putLoft k (drOut c) rows.2).putLoft k (drOut c + drPitch c) (rows.1.flatMap (toBytes 4))).matrixPart := by
  unfold State.runDrain
  simp only [hfinal, hform, if_true, if_false, Bool.true_eq_false, State.matrixPart_nanEvents, formRuns_eq s k t]

theorem State.mxa_putLoft (off : Nat) (bs : List Byte) : (s.putLoft k off bs).mxa = s.mxa := by
  obtain ⟨m, hm⟩ := s.putBytes_eq (loftKey k off) bs
  rw [State.putLoft, hm]
  rfl

/-- A final drain changes no matrix array: its run on the drainer comes after. -/
theorem State.runDrain_final_mxa (hfinal : drFinal d.bits.toNat = true) : (s.runDrain k d t).1.mxa = s.mxa := by
  cases hform : drForm d.bits.toNat with
  | false =>
    obtain ⟨m, hm⟩ := (s.drainStep_writesOwn k t d.bits.toNat).foldl_eq t.elems s
    refine (congrArg Prod.snd (s.runDrain_elements k d t hfinal hform)).trans ?_
    rw [hm]
    rfl
  | true =>
    refine (congrArg Prod.snd (s.runDrain_packed k d t hfinal hform)).trans ?_
    exact (State.mxa_putLoft ..).trans (s.mxa_putLoft ..)

variable {s k d t}

theorem State.runDrain_elements_loftNum (hfinal : drFinal d.bits.toNat = true) (hform : drForm d.bits.toNat = false)
    (hcheck : drainCheck d.bits.toNat (some t) = 0) {i n : Nat} (hi : i < t.rows) (hn : n < t.nCols) :
    (s.runDrain k d t).1.loftNum k (drainAt d.bits.toNat (i, n)) (outSize (drOfmt d.bits.toNat)) =
      outValue t.isInt (drOfmt d.bits.toNat) (s.newTotal k t i n) := by
  obtain ⟨hfmt, hpitch⟩ := drainCheck_ok hcheck hfinal
  rw [State.loftNum_congr (congrArg Prod.fst (s.runDrain_elements k d t hfinal hform))]
  refine (s.drainStep_writesOwn k t _).foldl_loftNum t.elems_nodup (Tile.mem_elems.mpr ⟨hi, hn⟩) (fun e he hne => ?_)
    fun u _ => ?_
  · exact cells_apart (hpitch hform) (Tile.mem_elems.mp he).2 hn hne
  · have hread := u.loft_putLoft_same k (drainAt d.bits.toNat (i, n)) (toBytes (outSize (drOfmt d.bits.toNat))
      (outValue t.isInt (drOfmt d.bits.toNat) (s.newTotal k t i n)))
    rw [toBytes_length] at hread
    rw [State.loftNum, State.drainStep, hread, ofBytes_toBytes_of_lt (outValue_lt hfmt (s.newTotal_lt k t i n))]

theorem State.runDrain_elements_byte (hfinal : drFinal d.bits.toNat = true) (hform : drForm d.bits.toNat = false) {j : Nat}
    (hj : ∀ i n b, i < t.rows → n < t.nCols → b < outSize (drOfmt d.bits.toNat) →
      j ≠ loftKey k (drainAt d.bits.toNat (i, n)) + b) : (s.runDrain k d t).1.byte j = s.byte j := by
  have hmem : (s.runDrain k d t).1.mem = (t.elems.foldl (s.drainStep k d.bits.toNat t) s).mem :=
    congrArg Prod.fst (s.runDrain_elements k d t hfinal hform)
  rw [State.byte, hmem]
  refine (s.drainStep_writesOwn k t _).foldl_byte (fun e he b hb => ?_) s
  obtain ⟨hi, hn⟩ := Tile.mem_elems.mp he
  exact hj e.1 e.2 b hi hn hb

/-- A packed output: the runs at OUT, the row ranges at OUT + PITCH, and no other byte (R84). -/
theorem State.runDrain_packed_bytes (hfinal : drFinal d.bits.toNat = true) (hform : drForm d.bits.toNat = true)
    {row : Nat → List Byte} (hrow : ∀ i, rowRuns (outSize (drOfmt d.bits.toNat)) (s.packedRow k d.bits.toNat t i) = row i) :
    let c := d.bits.toNat
    let rows := packedRows row t.rows
    let u := (s.runDrain k d t).1
    drOut c + rows.2.length ≤ drOut c + drPitch c →
      u.loft k (drOut c) rows.2.length = rows.2 ∧
      u.loft k (drOut c + drPitch c) (4 * (t.rows + 1)) = rows.1.flatMap (toBytes 4) ∧
      ∀ j, ¬(loftKey k (drOut c) ≤ j ∧ j < loftKey k (drOut c) + rows.2.length) →
        ¬(loftKey k (drOut c + drPitch c) ≤ j ∧ j < loftKey k (drOut c + drPitch c) + 4 * (t.rows + 1)) →
        u.byte j = s.byte j := by
  obtain rfl : (fun i => rowRuns (outSize (drOfmt d.bits.toNat)) (s.packedRow k d.bits.toNat t i)) = row := funext hrow
  intro c rows u hfits
  have hlen : (rows.1.flatMap (toBytes 4)).length = 4 * (t.rows + 1) := by
    simp [rows, packedRows, List.length_flatMap, Function.comp_def, Nat.mul_comm]
  have hmem : u.mem = ((s.putLoft k (drOut c) rows.2).putLoft k (drOut c + drPitch c) (rows.1.flatMap (toBytes 4))).mem :=
    congrArg Prod.fst (s.runDrain_packed k d t hfinal hform)
  refine ⟨?_, ?_, fun j hruns hranges => ?_⟩
  · rw [State.loft_congr hmem, State.loft_putLoft_apart _ (.inr hfits), State.loft_putLoft_same]
  · rw [State.loft_congr hmem, ← hlen, State.loft_putLoft_same]
  · rw [State.byte, hmem]
    refine (State.byte_putLoft_out _ fun i hi => ?_).trans (State.byte_putLoft_out _ fun i hi => ?_)
    · omega
    · omega

end

end Sys2Proof.Machine
end

section
/-!
SUPPORT, O60. The matrix array's arithmetic: streams add exactly or as one chunk, promotions take the runs in, drains write the output.
-/

namespace Sys2Proof.Machine

theorem State.newTotal_congr {s s' : State} (h : s'.mem = s.mem) (k : Nat) (t : Tile) (i n : Nat) :
    s'.newTotal k t i n = s.newTotal k t i n := by
  simp only [State.newTotal, State.total, State.loftNum_congr h]

/-- The state in which a drain that passed its checks is on its engine. -/
def State.drainStarted (s : State) (sh : Nat) (d : Desc) (rest : List Desc) (t : Tile) (size : Nat) (sat : Bool) : State :=
  ((s.popCommand sh rest).runDrain sh d t).1.modMxa sh (fun m => m.begin d size sat)

section
variable (s : State) (sh : Nat) {d : Desc} (rest : List Desc) {t : Tile} (size : Nat) (sat : Bool)

theorem State.drainStarted_mxa_ne {j : Nat} (h : j ≠ sh) : (s.drainStarted sh d rest t size sat).mxa j = s.mxa j := by
  rw [State.drainStarted, State.mxa_modMxa_ne _ _ h]
  cases hfinal : drFinal d.bits.toNat with
  | false => rw [((s.popCommand sh rest).runDrain_promote sh d t hfinal).2.2 j h, State.mxa_popCommand_ne _ _ _ h]
  | true => rw [State.runDrain_final_mxa _ _ _ _ hfinal, State.mxa_popCommand_ne _ _ _ h]

/-- A start of a drain changes the queue and the engine of its matrix array, and with FINAL = 0 the tile. -/
theorem State.drainStarted_arrays (hop : mxOp d.bits.toNat = 4) :
    let u := (s.drainStarted sh d rest t size sat).mxa sh
    let m := s.mxa sh
    (∃ r, u.drain = some r ∧ r.cmd = d) ∧ u.queue = rest ∧ u.tile (!(mxTile d.bits.toNat)) = m.tile (!(mxTile d.bits.toNat)) ∧
      u.tile (mxTile d.bits.toNat) = if drFinal d.bits.toNat then m.tile (mxTile d.bits.toNat) else some t.restart := by
  intro u m
  have hu : u = (((s.popCommand sh rest).runDrain sh d t).1.mxa sh).begin d size sat := State.mxa_modMxa_same _ _ _
  simp only [hu, Mxa.begin_drain _ _ _ hop]
  cases hfinal : drFinal d.bits.toNat with
  | false =>
    obtain ⟨-, hmxa, -⟩ := (s.popCommand sh rest).runDrain_promote sh d t hfinal
    have hqueue := congrArg (fun x => x.2.2) (Mxa.setTile_rest { s.mxa sh with queue := rest } (mxTile d.bits.toNat) (some t.restart))
    rw [hmxa, s.mxa_popCommand_same sh rest]
    exact ⟨⟨_, rfl, rfl⟩, hqueue, Mxa.tile_setTile_other .., Mxa.tile_setTile_same ..⟩
  | true =>
    rw [State.runDrain_final_mxa _ _ _ _ hfinal, s.mxa_popCommand_same sh rest]
    exact ⟨⟨_, rfl, rfl⟩, rfl, rfl, rfl⟩

end

/-- Settles O60: a stream, a promotion and a drain are each a fold over elements that lie apart, so each element is read off from
its own step. -/
theorem matrixArithmetic : Obligations.MatrixArithmetic := by
  unfold Obligations.MatrixArithmetic
  intro s sh d rest hsh hq hawake hheld m c spot total promoted
  have hpromoted : ∀ {t : Tile} {u : State}, s.Promoted sh t u → promoted t u := by
    rintro t u ⟨htotal, hbyte⟩
    exact ⟨fun i n hi hn => (htotal i n hi hn).trans (s.newTotal_eq sh t i n), hbyte⟩
  refine ⟨fun x b hop hstart hcheck hcols => ?_, fun t hop hidle htile hfinal hcheck hplaced => ?_⟩
  · obtain ⟨size, hexec⟩ := exec_streamStart hsh hq hawake hheld hstart hop hcheck
    have hplaced := State.streamTile_placed hcheck hcols
    obtain ⟨htile, hother, hrest, hrun⟩ := s.streamStarted_arrays sh rest x b size hop
    simp only [Prod.mk.injEq] at hrest
    obtain ⟨hslot0, hslot1, hqueue⟩ := hrest
    have hmemory := s.streamStarted_memory sh d rest x b size hplaced
    have hcols512 : (s.streamTile sh d b).nCols ≤ 512 := (of_decide_eq_true hplaced).1
    intro t due reached sum zero
    refine ⟨_, hexec, s.streamed sh c x t, htile, hother, (Tile.placed_congr (s.streamed_binding ..)).trans hplaced, hslot0,
      hslot1, hqueue, hrun, fun j hj => s.streamStarted_mxa_ne sh d rest x b size hj, t.dueRestart_chunks, rfl, ?_, ?_, ?_, ?_, ?_⟩
    · split
      · next hdue => exact hpromoted ((if_pos hdue).mp hmemory)
      · next hdue => exact (if_neg hdue).mp hmemory
    · exact fun i n _ hn hout => s.streamed_unreached sh c t hcols (lt_of_lt_of_le hn hcols512) hout
    · exact fun hint i a n he hn => s.streamed_int sh c t hcols hint he hn
    · exact fun hint hdense i n hi hn => State.streamed_dense hcheck hcols hdense hint hi hn
    · exact fun hfloat i a n he hn => s.streamed_float sh c t hcols hfloat he hn
  · have hstart : (s.mxa sh).mayStart d.bits.toNat = true := by
      have hop' : mxOp d.bits.toNat = 4 := hop
      have hidle' : (s.mxa sh).drain = none := hidle
      have htile' : (s.mxa sh).tile (mxTile d.bits.toNat) = some t := htile
      simp [Mxa.mayStart, hop', hidle', htile', hfinal]
    obtain ⟨size, sat, hexec⟩ := exec_drainStart hsh hq hawake hheld hstart hop htile hcheck
    obtain ⟨hrun, hqueue, hother, htile'⟩ := s.drainStarted_arrays sh rest (t := t) size sat hop
    intro o size' value
    have hvalue : ∀ i n, outValue t.isInt o ((s.popCommand sh rest).newTotal sh t i n) = value i n := fun i n => by
      rw [State.newTotal_congr (s.mem_popCommand sh rest), s.newTotal_eq]
      rfl
    refine ⟨_, hexec, hrun, hqueue, hother, fun j hj => s.drainStarted_mxa_ne sh rest size sat hj, fun hnot => ?_,
      fun hlast => ?_, fun hlast hform => ?_, fun hlast hform => ?_⟩
    · obtain ⟨hmem, -, -⟩ := (s.popCommand sh rest).runDrain_promote sh d t hnot
      refine ⟨hpromoted (((s.popCommand sh rest).promoteTile_promoted sh hplaced).congr rfl hmem), t.restart,
        htile'.trans (if_neg (Bool.eq_false_iff.mp hnot)), rfl, rfl, fun i n => ⟨rfl, rfl⟩⟩
    · exact (htile'.trans (if_pos hlast)).trans htile
    · refine ⟨fun i n hi hn => ?_, fun j hj => State.runDrain_elements_byte (s := s.popCommand sh rest) hlast hform hj⟩
      rw [← hvalue]
      exact State.runDrain_elements_loftNum (s := s.popCommand sh rest) hlast hform hcheck hi hn
    · intro es row bs ptr hfits
      have hrow : ∀ i, rowRuns (outSize (drOfmt c)) ((s.popCommand sh rest).packedRow sh c t i) = row i := fun i =>
        congrArg (rowRuns size') (List.map_congr_left fun n _ => congrArg (Prod.mk _) (hvalue i n))
      exact State.runDrain_packed_bytes (s := s.popCommand sh rest) hlast hform hrow hfits

end Sys2Proof.Machine
end

section
/-!
SUPPORT, O38. What events, reports, packets and fired watches leave: memory, engines, stalls, objects and, but for one, the flags
(R139, R145, R147, R160, R269).
-/

namespace Sys2Proof.Machine

/-! ### What events, reports and packets leave (R139, R147, R160, R269) -/

/-- The parts of the state that neither an event nor a packet on its way changes: memory, engines, stalls, forwarding entries,
objects, routes and flags. -/
structure Still where
  mem     : FMap Byte
  engines : FMap Engine
  stalls  : FMap Stall
  fwd     : List Fwd
  objs    : FMap Nat
  routes  : FMap (BitVec 8)
  flag    : Nat → Bool

def State.still (s : State) : Still :=
  { mem := s.mem, engines := s.engines, stalls := s.stalls, fwd := s.fwd, objs := s.objs, routes := s.routes, flag := s.flag }

theorem State.still_congr {s t : State} (hmem : t.mem = s.mem) (hengines : t.engines = s.engines) (hstalls : t.stalls = s.stalls)
    (hfwd : t.fwd = s.fwd) (hobjs : t.objs = s.objs) (hroutes : t.routes = s.routes) (hsheds : t.sheds = s.sheds) :
    t.still = s.still := by
  have hflag : t.flag = s.flag := by
    funext i
    simp only [State.flag, State.shed, hsheds]
  simp only [State.still, hmem, hengines, hstalls, hfwd, hobjs, hroutes, hflag]

theorem State.still_modShed (s : State) (k : Nat) {f : Shed → Shed} (hf : ∀ x, (f x).flags = x.flags) :
    (s.modShed k f).still = s.still := by
  have hflag : (s.modShed k f).flag = s.flag := by
    funext i
    simp only [State.flag, State.modShed, State.setShed_shed]
    split
    · next h => rw [Shed.flag, hf, ← h]; rfl
    · rfl
  simp only [State.still, hflag]
  rfl

theorem State.still_modPort (s : State) (k : Nat) (f : Port → Port) : (s.modPort k f).still = s.still := rfl

theorem State.still_emit (s : State) (k : Packet) : (s.emit k).still = s.still := by
  unfold State.emit State.emitFrom
  extract_lets h
  split
  · rfl
  · split <;> rfl

theorem State.still_send (s : State) (x : HSpec) (pay : List Byte) (tr : Option (BitVec 256)) :
    (s.send x pay tr).still = s.still := s.still_emit _

theorem State.still_logPart (s : State) (p c sv sk si dt : Nat) :
    (s.logPart p c sv sk si dt).still = s.still := by
  have hflag : (s.logPart p c sv sk si dt).flag = s.flag := by
    funext i
    simp [State.flag, State.shed]
  simp [State.still, hflag]

theorem State.still_pushError (s : State) (p : Nat) (ev : BitVec 256) : (s.pushError p ev).still = s.still := by
  have henqueue : ∀ (k q kind : Nat) (t : State), s.enqueue k q kind ev = .ok t → t.still = s.still := by
    intro k q kind t h
    unfold State.enqueue at h
    extract_lets x Q at h
    by_cases hfull : qDepth Q + (if kind = kindError then 64 else 0) ≤ Q.items.length
    · rw [if_pos hfull] at h
      cases h
    · rw [if_neg hfull] at h
      obtain rfl := Accept.ok.inj h
      unfold State.touch
      refine (State.still_modShed _ _ ?_).trans ?_
      · exact fun _ => rfl
      · refine s.still_modShed k (f := fun y => y.setQueue q { Q with items := Q.items ++ [eventOf Q kind ev s.ctr] }) ?_
        exact fun _ => rfl
  unfold State.pushError
  extract_lets qi k
  split
  · rfl
  · split
    · next h => exact henqueue _ _ _ _ h
    · refine s.still_modShed k ?_
      exact fun _ => rfl

theorem State.still_reportError (s : State) (p code stall kind idx target entry fcode : Nat) :
    (s.reportError p code stall kind idx target entry fcode).still = s.still := by
  unfold State.reportError
  extract_lets s1
  split <;> rw [State.still_logPart, State.still_pushError]

/-! ### Watches that fire (R138, R139, R143) -/

theorem State.still_freeSlot (s : State) (k id : Nat) : (s.freeSlot k id).still = s.still := by
  refine s.still_modShed k ?_
  exact fun _ => rfl

theorem State.still_reply_slot (s : State) (k id : Nat) (v : BitVec 64) : (s.reply (.slot k id) v).still = s.still :=
  s.still_freeSlot k id

theorem State.still_rejectOp (s : State) {m : Mesh} (code fcode : Nat) {k id : Nat} (hr : m.reply = .none ∨ m.reply = .slot k id) :
    (s.rejectOp m code fcode).still = s.still := by
  have hreply : ∀ (u : State) (r : Reply), r = .none ∨ r = .slot k id → (u.reply r 0).still = u.still := by
    rintro u _ (rfl | rfl)
    · rfl
    · exact u.still_reply_slot k id 0
  unfold State.rejectOp
  split
  · rw [hreply _ _ hr, State.still_reportError]
  · extract_lets c no
    rcases hr with hr | hr
    all_goals
      simp only [hr]
      rw [hreply _ _ (by simp)]
      exact s.still_send ..

/-- The event of a fired watch, sent to another module. -/
theorem State.still_sendOp (s : State) {m : Mesh} (a depth : Nat) {k id : Nat} (hop : m.op = .evpush) (hn : m.n = kindWatch) :
    ((s.sendOp m a depth (.slot k id)).getD s).still = s.still := by
  unfold State.sendOp
  by_cases hroute : s.routable (uaDevice a) = false
  · rw [if_pos hroute, Option.getD_some, State.still_reply_slot]
    exact s.still_rejectOp (k := k) (id := id) _ _ (.inl rfl)
  · rw [if_neg hroute]
    extract_lets ev post tagged
    have hpost : ∀ u sub pay aux, (post u sub pay aux).still = u.still := fun u sub pay aux => u.still_send _ pay none
    clear_value tagged post
    rw [hop]
    show ((if m.n = kindWatch then _ else _ : Option State).getD s).still = _
    rw [if_pos hn, Option.getD_some, hpost]
    exact State.still_congr rfl rfl rfl rfl rfl rfl rfl

theorem State.still_fire (s : State) (k : Nat) (w : Watch) : (s.fire k w).still = s.still := by
  unfold State.fire
  extract_lets s1 m
  have hs1 : s1.still = s.still := by
    refine s.still_modShed k ?_
    exact fun _ => rfl
  split
  · exact hs1
  · exact hs1
  · exact (s1.still_sendOp _ _ rfl rfl).trans hs1
  · exact (s1.still_rejectOp _ _ (k := k) (id := w.id) (.inr rfl)).trans hs1

theorem State.still_report (s : State) (k : Nat) (u : UpRef) : (s.report k u).still = s.still := by
  unfold State.report
  split
  · rfl
  · exact s.still_send ..

theorem State.still_setGroup (s : State) (k id : Nat) (wait : List Nat) (more : Nat) (u : UpRef) :
    (s.setGroup k id wait more u).still = s.still := by
  unfold State.setGroup
  split
  · rw [State.still_report, State.still_freeSlot]
  · refine s.still_modShed k ?_
    exact fun _ => rfl

theorem State.still_evalWatch (s : State) (k f : Nat) (v : Bool) (w : Watch) : (s.evalWatch k f v w).still = s.still := by
  unfold State.evalWatch
  split
  · rfl
  · split
    · split
      · exact s.still_fire k w
      · rfl
    · split
      · exact s.still_setGroup ..
      · rfl
    · rfl

theorem State.still_evalWatches (s : State) (k f : Nat) (v : Bool) : (s.evalWatches k f v).still = s.still :=
  foldl_keep (P := fun _ => True) (fun _ _ _ => trivial) (fun u w _ _ => u.still_evalWatch k f v w) trivial

/-! ### The completion of a command (R145) -/

/-- A flag write changes that flag alone. -/
theorem State.flag_writeFlag (s : State) (i : Nat) (v : Bool) (f : Nat) :
    (s.writeFlag i v).flag f = if f = i then v else s.flag f := by
  have hflag := congrFun (congrArg Still.flag (State.still_evalWatches (s.modShed (i / 4096) (fun x => x.setFlag (i % 4096) v))
    (i / 4096) (i % 4096) v)) f
  refine hflag.trans ?_
  simp only [State.still, State.flag, State.modShed, State.setShed_shed]
  by_cases hshed : f / 4096 = i / 4096
  · rw [if_pos hshed, Shed.flag, Shed.setFlag, FMap.get_set]
    by_cases hi : f = i
    · rw [if_pos hi, if_pos (by rw [hi])]
    · rw [if_neg hi, if_neg (by omega), hshed]
      rfl
  · rw [if_neg hshed, if_neg (by rintro rfl; exact hshed rfl)]

theorem State.still_writeFlag (s : State) (i : Nat) (v : Bool) :
    (s.writeFlag i v).still = { s.still with flag := (s.writeFlag i v).flag } := by
  have hstill := State.still_evalWatches (s.modShed (i / 4096) (fun x => x.setFlag (i % 4096) v)) (i / 4096) (i % 4096) v
  have hflag : (s.writeFlag i v).flag = (s.modShed (i / 4096) (fun x => x.setFlag (i % 4096) v)).flag := congrArg Still.flag hstill
  rw [hflag]
  exact hstill

end Sys2Proof.Machine
end

section
/-!
SUPPORT, O38. Row-engine queues and running descriptors, table switches, and descriptors that fail (R126, R196, R198-R200, R228, R231).
-/

namespace Sys2Proof.Machine

/-! ### Queues and running descriptors of the row engines (R196) -/

section
variable (s : State) (e p : Nat)

theorem State.rcur_setRcur_same (c : Option RCur) : (s.setRcur e p c).rcur e p = c := by
  simp [State.rcur, State.setRcur, State.modEngine]

theorem State.rowQueue_setRowQueue_same (q : List Desc) : (s.setRowQueue e p q).rowQueue e p = q := by
  simp [State.rowQueue, State.setRowQueue, State.modEngine]

theorem State.rcur_setRowQueue (q : List Desc) : (s.setRowQueue e p q).rcur e p = s.rcur e p := by
  simp [State.rcur, State.setRowQueue, State.modEngine]

theorem State.rowQueue_setRcur (c : Option RCur) : (s.setRcur e p c).rowQueue e p = s.rowQueue e p := by
  simp [State.rowQueue, State.setRcur, State.modEngine]

theorem State.modRcur_some {c : RCur} (h : s.rcur e p = some c) (f : RCur → RCur) : s.modRcur e p f = s.setRcur e p (some (f c)) := by
  simp only [State.modRcur, h]

end

section
variable {s t : State} (h : t.still = s.still)
include h

theorem State.mem_of_still : t.mem = s.mem := congrArg Still.mem h
theorem State.engines_of_still : t.engines = s.engines := congrArg Still.engines h
theorem State.stalls_of_still : t.stalls = s.stalls := congrArg Still.stalls h
theorem State.stall_of_still (j : Nat) : t.stall j = s.stall j := congrArg (fun x => FMap.get (fun _ => Stall.reset) x j) (congrArg Still.stalls h)
theorem State.obj_of_still (k : Nat) : t.obj k = s.obj k := congrArg (fun x => FMap.get objReset x k) (congrArg Still.objs h)
theorem State.rcur_of_still (e p : Nat) : t.rcur e p = s.rcur e p :=
  congrArg (fun x => FMap.get (fun _ => none) (FMap.get (fun _ => Engine.reset) x e).cur p) (congrArg Still.engines h)
theorem State.rowQueue_of_still (e p : Nat) : t.rowQueue e p = s.rowQueue e p :=
  congrArg (fun x => FMap.get (fun _ => []) (FMap.get (fun _ => Engine.reset) x e).queues p) (congrArg Still.engines h)

end

/-! ### Descriptors that end (R126, R228, R229, R231) -/

/-- Giving a descriptor's tag back, once the stalls are as before. -/
theorem State.tagBack_freeDesc {s u : State} {d : Desc} (h : u.stalls = s.stalls) : tagBack s (u.freeDesc d) d := by
  have hlives : ∀ i, (u.freeDesc d).tagLives i = u.tagLives i := by
    obtain ⟨x, hx⟩ := u.giveTag_eq d.stall d.tagId
    intro i
    rw [State.freeDesc, hx]
    rfl
  have hstall : ∀ j, u.stall j = s.stall j := fun j => by simp only [State.stall, h]
  simp only [tagBack, hlives]
  unfold State.freeDesc State.giveTag
  cases d.tagId with
  | none => exact ⟨by simp [hstall], fun j _ => by rw [hstall]⟩
  | some i =>
    by_cases hl : u.tagLives i
    · simp [hl, hstall]
    · simp only [hl, hstall, State.modStall, Bool.false_eq_true, if_false, State.setStall_same, true_and]
      exact fun j hj => by rw [State.setStall_ne _ _ _ hj, hstall]

/-! ### Fields of a number after one of them was set (R6) -/

theorem setBits_eq (x lo len v : Nat) :
    setBits x lo len v = 2 ^ lo * (2 ^ len * (x / 2 ^ lo / 2 ^ len) + v % 2 ^ len) + x % 2 ^ lo := by
  have hx := Nat.div_add_mod x (2 ^ lo)
  have hq := Nat.div_add_mod (x / 2 ^ lo) (2 ^ len)
  have hout : x - bits x lo len * 2 ^ lo = 2 ^ lo * (2 ^ len * (x / 2 ^ lo / 2 ^ len)) + x % 2 ^ lo := by
    refine Nat.sub_eq_of_eq_add ?_
    rw [bits, Nat.shiftRight_eq_div_pow]
    calc x = 2 ^ lo * (2 ^ len * (x / 2 ^ lo / 2 ^ len) + x / 2 ^ lo % 2 ^ len) + x % 2 ^ lo := by rw [hq, hx]
      _ = _ := by ring
  rw [setBits, hout]
  ring

theorem testBit_setBits (x lo len v i : Nat) :
    (setBits x lo len v).testBit i = if lo ≤ i ∧ i < lo + len then v.testBit (i - lo) else x.testBit i := by
  rw [setBits_eq, Nat.testBit_two_pow_mul_add _ (Nat.mod_lt _ (Nat.two_pow_pos _)),
    Nat.testBit_two_pow_mul_add _ (Nat.mod_lt _ (Nat.two_pow_pos _))]
  by_cases hlo : i < lo
  · rw [if_pos hlo, if_neg (by omega), Nat.testBit_mod_two_pow]
    simp [hlo]
  · rw [if_neg hlo]
    by_cases hhi : i - lo < len
    · rw [if_pos hhi, if_pos (by omega), Nat.testBit_mod_two_pow]
      simp [hhi]
    · rw [if_neg hhi, if_neg (by omega), Nat.testBit_div_two_pow, Nat.testBit_div_two_pow]
      congr 1
      omega

theorem testBit_bits (x lo len i : Nat) : (bits x lo len).testBit i = (decide (i < len) && x.testBit (lo + i)) := by
  rw [bits, Nat.testBit_mod_two_pow, Nat.testBit_shiftRight]

theorem bits_setBits (x lo len v : Nat) : bits (setBits x lo len v) lo len = v % 2 ^ len := by
  refine Nat.eq_of_testBit_eq fun i => ?_
  rw [testBit_bits, testBit_setBits, Nat.testBit_mod_two_pow]
  by_cases hi : i < len <;> simp [hi]

theorem bits_setBits_apart (x v : Nat) {lo len lo' len' : Nat} (h : lo + len ≤ lo' ∨ lo' + len' ≤ lo) :
    bits (setBits x lo len v) lo' len' = bits x lo' len' := by
  refine Nat.eq_of_testBit_eq fun i => ?_
  rw [testBit_bits, testBit_bits, testBit_setBits]
  by_cases hi : i < len'
  · rw [if_neg (by omega)]
  · simp [hi]

theorem bit_setBits_apart (x v : Nat) {lo len i : Nat} (h : i < lo ∨ lo + len ≤ i) :
    bit (setBits x lo len v) i = bit x i := by
  rw [bit, bit, testBit_setBits, if_neg (by omega)]

theorem bit_setBits_one (x lo : Nat) : bit (setBits x lo 1 1) lo = true := by
  rw [bit, testBit_setBits, if_pos (by omega)]
  simp

theorem bits_lt (x lo len : Nat) : bits x lo len < 2 ^ len := Nat.mod_lt _ (Nat.two_pow_pos _)

/-! ### Table switches (R198-R200) -/

/-- A request leaves itself in the table's descriptor, beside what the table is now. -/
theorem requestSwitch_fields (w base v : Nat) (hbase : base < 2 ^ 64) (hv : v < 2 ^ 16) :
    let u := setBits (setBits (setBits w 84 1 1) 96 64 base) 160 16 v
    tdPend u = true ∧ tdPendBase u = base ∧ tdPendVersion u = v ∧ tdBase u = tdBase w ∧ tdVersion u = tdVersion w ∧
      tdKind u = tdKind w := by
  intro u
  refine ⟨?_, ?_, ?_, ?_, ?_, ?_⟩
  · simp only [u, tdPend]
    rw [bit_setBits_apart _ _ (by omega), bit_setBits_apart _ _ (by omega), bit_setBits_one]
  · simp only [u, tdPendBase]
    rw [bits_setBits_apart _ _ (by omega), bits_setBits, Nat.mod_eq_of_lt hbase]
  · simp only [u, tdPendVersion]
    rw [bits_setBits, Nat.mod_eq_of_lt hv]
  all_goals
    simp only [u, tdBase, tdVersion, tdKind]
    rw [bits_setBits_apart _ _ (by omega), bits_setBits_apart _ _ (by omega), bits_setBits_apart _ _ (by omega)]

/-- What a sparse array lists after a write: the entry written, or what it listed before. -/
theorem mem_of_mem_fmapSet {α : Type} [DecidableEq α] {d : Nat → α} {m : FMap α} {k : Nat} {v : α} {e : Nat × α}
    (h : e ∈ FMap.set d m k v) : e = (k, v) ∨ e ∈ m := by
  have herase : ∀ {m : FMap α}, e ∈ FMap.erase m k → e ∈ m := by
    intro m
    induction m with
    | nil => exact id
    | cons x m ih =>
      obtain ⟨i, y⟩ := x
      rw [FMap.erase]
      split
      · exact fun h => .tail _ (ih h)
      · exact fun h => (List.mem_cons.mp h).elim (fun h => h ▸ .head _) (fun h => .tail _ (ih h))
  have hinsert : ∀ {m : FMap α}, e ∈ FMap.insert m k v → e = (k, v) ∨ e ∈ m := by
    intro m
    induction m with
    | nil => exact fun h => .inl (List.mem_singleton.mp h)
    | cons x m ih =>
      obtain ⟨i, y⟩ := x
      rw [FMap.insert]
      split
      · exact List.mem_cons.mp
      · rintro (_ | ⟨_, h⟩)
        · exact .inr (.head _)
        · exact (ih h).imp_right (.tail _)
  unfold FMap.set at h
  split at h
  · exact .inr (herase h)
  · exact (hinsert h).imp_right herase

/-- What a sparse array reads is listed, or the default. -/
theorem fmapGet_listed {α : Type} (d : Nat → α) (m : FMap α) (k : Nat) : FMap.get d m k = d k ∨ (k, FMap.get d m k) ∈ m := by
  induction m with
  | nil => exact .inl rfl
  | cons x m ih =>
    obtain ⟨i, y⟩ := x
    rw [FMap.get]
    split
    · next h => exact .inr (h ▸ .head _)
    · exact ih.imp_right (.tail _)

/-- Leaving the queue captures nothing new (R200). -/
theorem State.captured_setRowQueue {s : State} {e p : Nat} {q : List Desc} {p' t v : Nat}
    (h : (s.setRowQueue e p q).captured p' t v = true) : s.captured p' t v = true := by
  simp only [State.captured, Bool.or_eq_true] at h ⊢
  refine h.imp id fun h => ?_
  obtain ⟨x, hx, hcap⟩ := List.any_eq_true.mp h
  have hx : x ∈ FMap.set (fun _ => Engine.reset) s.engines e
    { s.engine e with queues := FMap.set (fun _ => []) (s.engine e).queues p q } := hx
  rcases mem_of_mem_fmapSet hx with rfl | hx
  · rcases fmapGet_listed (fun _ => Engine.reset) s.engines e with hget | hget
    · have hidle : (s.engine e).cur = [] := congrArg Engine.cur hget
      simp only [hidle, FMap.get] at hcap
      cases hcap
    · exact List.any_eq_true.mpr ⟨_, hget, hcap⟩
  · exact List.any_eq_true.mpr ⟨x, hx, hcap⟩

theorem State.versionLive_setRowQueue {s : State} {e p : Nat} {q : List Desc} {p' t v : Nat} (h : s.versionLive p' t v = false) :
    (s.setRowQueue e p q).versionLive p' t v = false := by
  refine Bool.eq_false_iff.mpr fun hlive => Bool.eq_false_iff.mp h ?_
  simp only [State.versionLive, State.priorLive, Bool.or_eq_true, Bool.and_eq_true] at hlive ⊢
  exact hlive.imp id fun ⟨⟨hbit, hcap⟩, hformer⟩ => ⟨⟨hbit, State.captured_setRowQueue hcap⟩, hformer⟩

/-! ### The start of a descriptor (R196, R199, R228) -/

section
variable {s : State} {e p : Nat} {d : Desc} {rest : List Desc} (he : e < 384) (hp : p < 32) (hidle : s.rcur e p = none)
  (hq : s.rowQueue e p = d :: rest)
include he hp hidle hq

theorem exec_rowStart : exec (.rowDescriptorStart e p) s = .next (((s.setRowQueue e p rest).rowStart e p d).getD s) := by
  show execRowDescriptorStart e p s = _
  unfold execRowDescriptorStart
  rw [if_neg (by omega)]
  simp only [hidle, hq]

end

theorem State.requestSwitch_running {s : State} {p : Nat} (t base v : Nat) (hrun : (s.part p).phase = .running) :
    s.requestSwitch p t base v =
      s.setObj (kTable p t) (setBits (setBits (setBits (s.obj (kTable p t)) 84 1 1) 96 64 base) 160 16 v) := by
  have hstopped : ¬(s.part p).phase = .stopped := by rw [hrun]; decide
  simp only [State.requestSwitch, State.setObj_part, hstopped, false_and, if_false]

theorem State.startSwitch_ok {s : State} (e : Nat) {p : Nat} {d : Desc} (c : RCur)
    (hkind : tdKind (s.obj (kTable p (reTable d.bits.toNat))) ≠ 0)
    (hnew : s.versionLive p (reTable d.bits.toNat) (reVersion d.bits.toNat) = false) :
    s.startSwitch e p d c = (s.requestSwitch p (reTable d.bits.toNat) (reSrc d.bits.toNat) (reVersion d.bits.toNat)).setRcur e p
      (some { c with ready := true }) := by
  unfold State.startSwitch
  extract_lets b t
  rw [if_neg (show ¬tdKind (s.obj (kTable p t)) = 0 from hkind)]
  exact if_neg (Bool.eq_false_iff.mp hnew)

/-- A descriptor that is not a TSWITCH and reads a table of another kind fails (R228). -/
theorem State.rowStart_wrongKind {s : State} (e : Nat) {p : Nat} {d : Desc} (hop : reOp d.bits.toNat ≠ 8)
    (hkind : ∃ t ∈ reCaps d.bits.toNat, tdKind (s.obj (kTable p t)) ≠ 4) :
    s.rowStart e p d = some (s.reFail e d eTable noEntry 0) := by
  have hany : (reCaps d.bits.toNat).any (fun t => decide (tdKind (s.obj (kTable p t)) ≠ 4)) = true := by simpa using hkind
  unfold State.rowStart
  extract_lets b c
  rw [if_neg hop, if_pos hany]

theorem State.reStatus_plain (s : State) (p : Nat) {code : Nat} (stall : Nat) (hplain : code ≠ eFwdFull ∧ code ≠ ePoison) :
    s.reStatus p code stall = s.setObj (kReStatus p) (setBits (setBits (s.obj (kReStatus p)) 16 16 code) 32 10 stall) := by
  simp only [State.reStatus, if_neg hplain.1, if_neg hplain.2, Nat.or_zero]

theorem State.still_failDesc (s : State) (d : Desc) (code kind idx entry fcode : Nat) :
    (s.failDesc d code kind idx entry fcode).still = s.still := State.still_reportError ..

/-- A descriptor that fails: its code stands in RE_STATUS, its tag is given back, and no engine or memory changes
(R228, R229, R231). -/
theorem State.reFail_frame (s : State) (e : Nat) (d : Desc) {code : Nat} (entry fcode : Nat) (hcode : code < 2 ^ 16)
    (hplain : code ≠ eFwdFull ∧ code ≠ ePoison) :
    (s.reFail e d code entry fcode).mem = s.mem ∧ (s.reFail e d code entry fcode).engines = s.engines ∧
      (s.reFail e d code entry fcode).obj (kReStatus d.part) / 2 ^ 16 % 2 ^ 16 = code ∧
      tagBack s (s.reFail e d code entry fcode) d := by
  obtain ⟨u, hfail, hmem, hengines, hstalls, hobj⟩ : ∃ u : State, s.reFail e d code entry fcode = u.freeDesc d ∧ u.mem = s.mem ∧
      u.engines = s.engines ∧ u.stalls = s.stalls ∧
      u.obj (kReStatus d.part) = setBits (setBits (s.obj (kReStatus d.part)) 16 16 code) 32 10 d.stall := by
    refine ⟨(s.reStatus d.part code d.stall).failDesc d code 6 e entry fcode, rfl, ?_⟩
    rw [State.reStatus_plain s d.part d.stall hplain]
    have hstill := State.still_failDesc (s.setObj (kReStatus d.part)
      (setBits (setBits (s.obj (kReStatus d.part)) 16 16 code) 32 10 d.stall)) d code 6 e entry fcode
    have hobj := State.obj_of_still hstill (kReStatus d.part)
    rw [State.setObj_same] at hobj
    exact ⟨(State.mem_of_still hstill).trans (State.setObj_mem ..), (State.engines_of_still hstill).trans (State.setObj_engines ..),
      (State.stalls_of_still hstill).trans (State.setObj_stalls ..), hobj⟩
  obtain ⟨x, hx⟩ := u.giveTag_eq d.stall d.tagId
  have hfree : u.freeDesc d = { u with stalls := x } := hx
  refine ⟨?_, ?_, ?_, hfail ▸ State.tagBack_freeDesc hstalls⟩
  · rw [hfail, hfree, ← hmem]
  · rw [hfail, hfree, ← hengines]
  · have hread : (u.freeDesc d).obj (kReStatus d.part) = u.obj (kReStatus d.part) := by rw [hfree]; rfl
    have hbits : ∀ n : Nat, n / 2 ^ 16 % 2 ^ 16 = bits n 16 16 := fun n => by rw [bits, Nat.shiftRight_eq_div_pow]
    rw [hfail, hread, hobj, hbits, bits_setBits_apart _ _ (by omega), bits_setBits, Nat.mod_eq_of_lt hcode]

end Sys2Proof.Machine
end

section
/-!
SUPPORT, O38. What a row engine sends, the work of a descriptor at its start, completion, and short segments (R51, R126, R145, R194-R196,
R269).
-/

namespace Sys2Proof.Machine

/-! ### What a descriptor sends (R269) -/

section
variable {s : State} {e p : Nat} {c : RCur} (hc : s.rcur e p = some c)
include hc

/-- Nothing is sent where nothing is left to send. -/
theorem State.rowSend_idle (htodo : c.todo = []) : s.rowSend e p = s := by
  simp only [State.rowSend, hc, htodo, List.length_nil, State.pump]

/-- A descriptor that has not failed does not end. -/
theorem State.rowEnd_ok (herr : c.err = 0) : s.rowEnd e p = s := by
  simp only [State.rowEnd, hc, herr, ne_eq, not_true_eq_false, false_and, if_false]

/-- One transaction goes out under one tag. -/
theorem State.rowSend_one {i : Nat} {k : Packet} {ks : List Packet} {g : Nat} (htodo : c.todo = [(i, k :: ks)])
    (hroute : s.routable (hDstDev k.h) = true) (htag : s.freeTag = some g) :
    s.rowSend e p = (k :: ks).foldl (fun s k => s.emit (withTag g k))
      ((s.setRcur e p (some { c with todo := [], tags := c.tags ++ [g] })).holdTag g p (rowUse e p i k (s.rowLen p c))) := by
  simp only [State.rowSend, hc, htodo, List.length_cons, List.length_nil, State.pump, hroute, htag, Bool.true_eq_false, if_false]

/-- A running descriptor without anything to read or send does its work (R194, R195). -/
theorem State.rowAdvance_work {n : Nat} {t : State} (hready : c.ready = false) (htodo : c.todo = []) (htags : c.tags = [])
    (hop : reOp c.desc.bits.toNat ≠ 10) (herr : c.err = 0) (hmissing : s.reMissing p c = some [])
    (hwork : (reWork e p c).run (reHow c.desc.bits.toNat) s = some (.ok n, t)) :
    s.rowAdvance e p = ((t.modRcur e p (fun c => { c with ready := true, size := n })).rowSend e p).rowEnd e p := by
  unfold State.rowAdvance
  rw [State.rowSend_idle hc htodo]
  simp only [hc, hready, htodo, htags, hop, herr, hmissing, hwork, Bool.false_eq_true, ne_eq, not_true_eq_false, or_self,
    false_and, if_false]

end

theorem State.still_foldl_emit (g : Nat) (ks : List Packet) (s : State) :
    (ks.foldl (fun s k => s.emit (withTag g k)) s).still = s.still :=
  foldl_keep (P := fun _ => True) (fun _ _ _ => trivial) (fun u _ _ _ => u.still_emit _) trivial

theorem State.still_holdTag (s : State) (n p : Nat) (use : TagUse) : (s.holdTag n p use).still = s.still := rfl

theorem State.freeTag_setRcur (s : State) (e p : Nat) (c : Option RCur) : (s.setRcur e p c).freeTag = s.freeTag := by
  simp only [State.freeTag, State.setRcur, State.modEngine, State.setEngine_fabric]

/-- Where a packet can go depends on three objects and the routes alone (R274, R276). -/
structure SameRoutes (s t : State) : Prop where
  device   : t.obj kDeviceId = s.obj kDeviceId
  topology : t.obj kTopology = s.obj kTopology
  ports    : t.obj kPortDir = s.obj kPortDir
  routes   : t.routes = s.routes

theorem SameRoutes.routable {s t : State} (h : SameRoutes s t) (n : Nat) : t.routable n = s.routable n := by
  have hdevice : t.device = s.device := by simp only [State.device, h.device]
  have hdims : t.dims = s.dims := by simp only [State.dims, h.topology]
  have hports : ∀ d, t.dirPorts d = s.dirPorts d := fun d => by simp only [State.dirPorts, h.ports]
  have hbyte : ∀ d, t.routeByte d = s.routeByte d := fun d => by simp only [State.routeByte, h.routes]
  have htwins : t.twins n = s.twins n := by simp only [State.twins, hdevice, hdims, hports, hbyte, h.topology]
  simp only [State.routable, hdevice, htwins]

theorem SameRoutes.refl (s : State) : SameRoutes s s := ⟨rfl, rfl, rfl, rfl⟩

theorem SameRoutes.trans {s t u : State} (h : SameRoutes s t) (h' : SameRoutes t u) : SameRoutes s u :=
  ⟨h'.device.trans h.device, h'.topology.trans h.topology, h'.ports.trans h.ports, h'.routes.trans h.routes⟩

theorem SameRoutes.of_objs {s t : State} (hobjs : t.objs = s.objs) (hroutes : t.routes = s.routes) : SameRoutes s t := by
  refine ⟨?_, ?_, ?_, hroutes⟩ <;> simp only [State.obj, hobjs]

theorem State.sameRoutes_setRcur (s : State) (e p : Nat) (c : Option RCur) : SameRoutes s (s.setRcur e p c) :=
  .of_objs (State.setEngine_objs ..) (State.setEngine_routes ..)

theorem State.mem_setRcur (s : State) (e p : Nat) (c : Option RCur) : (s.setRcur e p c).mem = s.mem := rfl

/-! ### The work of a descriptor falls at its start (R194, R195, R203) -/

/-- A descriptor as it starts: its captures, and nothing read or sent yet (R200). -/
def State.fresh (s : State) (p : Nat) (d : Desc) : RCur :=
  { desc := d, caps := s.capture p (reCaps d.bits.toNat),
    bases := (reCaps d.bits.toNat).map (fun t => (t, tdBase (s.obj (kTable p t)))), err := 0, errIdx := noEntry, fcode := 0,
    tags := [], todo := [], reads := [], ready := false, bound := false, next := 0, size := 0 }

section
variable {s : State} {e p : Nat} {d : Desc} (hop : reOp d.bits.toNat ≠ 8)
  (hkind : ∀ t ∈ reCaps d.bits.toNat, tdKind (s.obj (kTable p t)) = 4)
include hop hkind

theorem State.rowStart_prep : s.rowStart e p d =
    ((rePrep p d.bits.toNat ((s.fresh p d).base (reTable d.bits.toNat)) .fore).run (reHow d.bits.toNat) s).map fun r =>
    match r with
    | (.error er, s) => s.reFail e d (er % 2 ^ 16) noEntry 0
    | (.ok none, u) => (u.setRcur e p (some (s.fresh p d))).rowAdvance e p
    | (.ok (some x), u) =>
      match (reNeeds p d.bits.toNat x).look u with
      | .error _ => (u.setRcur e p (some (s.fresh p d))).rowAdvance e p
      | .ok rows => (u.setRcur e p (some { s.fresh p d with todo := u.reReads p d.bits.toNat x rows })).rowAdvance e p := by
  have hany : (reCaps d.bits.toNat).any (fun t => decide (tdKind (s.obj (kTable p t)) ≠ 4)) = false := by simpa using hkind
  unfold State.rowStart
  extract_lets b c
  rw [if_neg hop, if_neg (Bool.eq_false_iff.mp hany)]
  rfl

/-- A descriptor that needs no row of another module is in execution at once. -/
theorem State.rowStart_advance {o : Option Rows} {u : State}
    (hprep : (rePrep p d.bits.toNat ((s.fresh p d).base (reTable d.bits.toNat)) .fore).run (reHow d.bits.toNat) s = some (.ok o, u))
    (hneeds : ∀ x rows, o = some x → (reNeeds p d.bits.toNat x).look u = .ok rows → u.reReads p d.bits.toNat x rows = []) :
    s.rowStart e p d = some ((u.setRcur e p (some (s.fresh p d))).rowAdvance e p) := by
  rw [State.rowStart_prep hop hkind, hprep, Option.map_some]
  cases o with
  | none => rfl
  | some x =>
    simp only
    cases hlook : (reNeeds p d.bits.toNat x).look u with
    | error er => rfl
    | ok rows =>
      simp only [hneeds x rows rfl hlook]
      rfl

end

/-- What a descriptor whose work is done still has to do: send, and end if it failed. -/
def State.rowFinish (s : State) (e p : Nat) (c : RCur) : State := ((s.setRcur e p (some c)).rowSend e p).rowEnd e p

section
variable {s : State} {e p : Nat} {c : RCur} (herr : c.err = 0)
include herr

theorem State.rowFinish_idle (htodo : c.todo = []) : s.rowFinish e p c = s.setRcur e p (some c) := by
  have hc := s.rcur_setRcur_same e p (some c)
  rw [State.rowFinish, State.rowSend_idle hc htodo, State.rowEnd_ok hc herr]

theorem State.rowFinish_one {i : Nat} {k : Packet} {ks : List Packet} {g : Nat} (htodo : c.todo = [(i, k :: ks)])
    (hroute : s.routable (hDstDev k.h) = true) (htag : s.freeTag = some g) :
    (s.rowFinish e p c).mem = s.mem ∧ (s.rowFinish e p c).rcur e p = some { c with todo := [], tags := c.tags ++ [g] } := by
  have hc := s.rcur_setRcur_same e p (some c)
  have hsend := State.rowSend_one hc htodo (((s.sameRoutes_setRcur e p (some c)).routable _).trans hroute) ((s.freeTag_setRcur ..).trans htag)
  have hstill : ((s.setRcur e p (some c)).rowSend e p).still =
      ((s.setRcur e p (some c)).setRcur e p (some { c with todo := [], tags := c.tags ++ [g] })).still := by
    rw [hsend, State.still_foldl_emit, State.still_holdTag]
  have hcur := (State.rcur_of_still hstill e p).trans (State.rcur_setRcur_same ..)
  rw [State.rowFinish, State.rowEnd_ok hcur herr]
  exact ⟨(State.mem_of_still hstill).trans rfl, hcur⟩

end

theorem State.rowStart_work {s : State} {e p : Nat} {d : Desc} (hop : reOp d.bits.toNat ≠ 8)
    (hkind : ∀ t ∈ reCaps d.bits.toNat, tdKind (s.obj (kTable p t)) = 4) {o : Option Rows} {u t : State} {n : Nat} {y : RCur}
    (hprep : (rePrep p d.bits.toNat ((s.fresh p d).base (reTable d.bits.toNat)) .fore).run (reHow d.bits.toNat) s = some (.ok o, u))
    (hmigrate : reOp d.bits.toNat ≠ 10)
    (hneeds : ∀ x rows, o = some x → (reNeeds p d.bits.toNat x).look u = .ok rows → u.reReads p d.bits.toNat x rows = [])
    (hmissing : (u.setRcur e p (some (s.fresh p d))).reMissing p (s.fresh p d) = some [])
    (hwork : (reWork e p (s.fresh p d)).run (reHow d.bits.toNat) (u.setRcur e p (some (s.fresh p d))) = some (.ok n, t))
    (hy : t.rcur e p = some y) : s.rowStart e p d = some (t.rowFinish e p { y with ready := true, size := n }) := by
  rw [State.rowStart_advance hop hkind hprep hneeds, State.rowFinish,
    State.rowAdvance_work (State.rcur_setRcur_same ..) rfl rfl rfl hmigrate rfl hmissing hwork, State.modRcur_some _ _ _ hy]

/-! ### Completion (R126, R145, R196) -/

section
variable {s : State} {e p : Nat} {c : RCur} (he : e < 384) (hp : p < 32) (hc : s.rcur e p = some c)
include he hp hc

theorem exec_rowComplete (hready : c.ready = true) (htodo : c.todo = []) (htags : c.tags = []) (herr : c.err = 0)
    (hcmpl : dCmpl c.desc.bits.toNat < 2) :
    exec (.rowDescriptorComplete e p) s = .next
      (((if dCmpl c.desc.bits.toNat = 1 then s.writeFlag (dIndex c.desc.bits.toNat) true else s).setRcur e p none).freeDesc c.desc) := by
  show execRowDescriptorComplete e p s = _
  unfold execRowDescriptorComplete
  rw [if_neg (by omega)]
  simp only [hc, hready, htodo, htags, herr, Bool.true_eq_false, ne_eq, not_true_eq_false, or_self, if_false]
  obtain hnone | hflag : dCmpl c.desc.bits.toNat = 0 ∨ dCmpl c.desc.bits.toNat = 1 := by omega
  · simp only [State.signal, hnone, if_neg (show ¬(0 = 1) by decide)]
  · simp only [State.signal, hflag, if_true]

end

/-- Whoever completes a descriptor changes one flag at most, its engine and its stall's count of descriptors. -/
theorem State.completed_frame (s : State) (e p : Nat) (d : Desc) :
    let w := if dCmpl d.bits.toNat = 1 then s.writeFlag (dIndex d.bits.toNat) true else s
    let t := (w.setRcur e p none).freeDesc d
    t.rcur e p = none ∧ t.mem = s.mem ∧
      (∀ f, t.flag f = if dCmpl d.bits.toNat = 1 ∧ f = dIndex d.bits.toNat then true else s.flag f) ∧ tagBack s t d := by
  intro w t
  have hw : w.mem = s.mem ∧ w.stalls = s.stalls ∧
      ∀ f, w.flag f = if dCmpl d.bits.toNat = 1 ∧ f = dIndex d.bits.toNat then true else s.flag f := by
    by_cases hcmpl : dCmpl d.bits.toNat = 1
    · have hstill := s.still_writeFlag (dIndex d.bits.toNat) true
      simp only [w, if_pos hcmpl]
      exact ⟨congrArg Still.mem hstill, congrArg Still.stalls hstill, fun f => by
        rw [s.flag_writeFlag]
        simp only [hcmpl, true_and]⟩
    · simp [w, hcmpl]
  obtain ⟨hmem, hstalls, hflag⟩ := hw
  obtain ⟨x, hx⟩ := (w.setRcur e p none).giveTag_eq d.stall d.tagId
  have ht : t = { w.setRcur e p none with stalls := x } := hx
  refine ⟨?_, ?_, fun f => ?_, State.tagBack_freeDesc hstalls⟩
  · rw [ht]
    exact w.rcur_setRcur_same e p none
  · rw [ht]
    exact hmem
  · rw [ht, ← hflag]
    rfl

/-! ### Segments (R51) -/

/-- A segment of up to 128 pairs is one chunk. -/
theorem chunks128_short {α : Type} {l : List α} (hne : l ≠ []) (hlen : l.length ≤ 128) : chunks128 l.length l = [l] := by
  obtain ⟨x, xs, rfl⟩ := List.exists_cons_of_ne_nil hne
  have hstep : chunks128 (xs.length + 1) (x :: xs) = (x :: xs).take 128 :: chunks128 xs.length ((x :: xs).drop 128) := rfl
  rw [List.length_cons, hstep, List.take_of_length_le hlen, List.drop_of_length_le hlen]
  cases xs <;> rfl

theorem segElem_short {seg : List (Nat × List FVal)} (j : Nat) (hne : seg ≠ []) (hlen : seg.length ≤ 128) :
    (segElem seg j).1 = f32add 0 (chunk (seg.map (fun y => (fp32.decode y.1, (y.2[j]?).getD (.fin false 0 0))))).1 := by
  unfold segElem
  rw [chunks128_short hne hlen]
  rfl

end Sys2Proof.Machine
end

section
/-!
SUPPORT, O38. What reading memory and passing an engine leave: forwarding entries, running descriptors, and where packets go (R217, R220,
R245, R246).
-/

namespace Sys2Proof.Machine

/-! ### What reading memory leaves (R217, R245, R246) -/

/-- The parts of the state that a unit's reads leave: forwarding entries, running descriptors, and where packets go. -/
structure Kept (s t : State) : Prop where
  fwd    : t.fwd = s.fwd
  rcur   : ∀ e p, t.rcur e p = s.rcur e p
  routes : SameRoutes s t

namespace Kept

theorem refl (s : State) : Kept s s := ⟨rfl, fun _ _ => rfl, .refl s⟩

theorem trans {s t u : State} (h : Kept s t) (h' : Kept t u) : Kept s u :=
  ⟨h'.fwd.trans h.fwd, fun e p => (h'.rcur e p).trans (h.rcur e p), h.routes.trans h'.routes⟩

theorem of_fields {s t : State} (hfwd : t.fwd = s.fwd) (hengines : t.engines = s.engines) (hobjs : t.objs = s.objs)
    (hroutes : t.routes = s.routes) : Kept s t :=
  ⟨hfwd, fun e p => by simp only [State.rcur, State.engine, hengines], .of_objs hobjs hroutes⟩

/-- A counter beside the module's own identity, topology and port directions. -/
theorem setObj (s : State) {k : Nat} (v : Nat) (hk : kPortDir < k) : Kept s (s.setObj k v) := by
  have hne : ∀ j, j ≤ kPortDir → (s.setObj k v).obj j = s.obj j := fun j hj => s.setObj_ne k v (by omega)
  exact ⟨rfl, fun _ _ => rfl, hne _ (by decide), hne _ (by decide), hne _ (by decide), rfl⟩

theorem bumpStack (s : State) (k sub : Nat) : Kept s (s.bumpStack k sub) :=
  setObj s _ (by simp only [kPortDir, kStack, objKey]; omega)

theorem countLoad (s : State) (p : Nat) (ks : List Nat) : Kept s (s.countLoad p ks) := by
  unfold State.countLoad
  refine keeps_foldl (P := Kept s) (fun u b hu => hu.trans ?_) _ s (refl s)
  exact setObj u _ (by simp only [kPortDir, kStackLoad, objKey]; omega)

theorem putBytes (s : State) (k : Nat) (bs : List Byte) : Kept s (s.putBytes k bs) := by
  obtain ⟨m, hm⟩ := s.putBytes_eq k bs
  rw [hm]
  exact of_fields rfl rfl rfl rfl

theorem setCheck (s : State) (k : Nat) (v : BitVec 288) : Kept s (s.setCheck k v) := of_fields rfl rfl rfl rfl

theorem countCe (s : State) (k : Nat) : Kept s (s.countCe k) := by
  unfold State.countCe
  extract_lets old s1 n th
  have hs1 : Kept s s1 := bumpStack s k 2
  split
  · exact hs1.trans (of_fields (by simp) (by simp) (by simp) (by simp))
  · exact hs1

theorem poisonNew (s : State) (key : Nat) (data : List Byte) : Kept s (s.poisonNew key data) := by
  unfold State.poisonNew
  extract_lets k s1 s2 s3
  have hs1 : Kept s s1 := (putBytes s key data).trans (setCheck _ _ _)
  have hs2 : Kept s s2 := hs1.trans ((bumpStack s1 k 3).trans (of_fields rfl rfl rfl rfl))
  have hs3 : Kept s s3 := hs2.trans (of_fields (by simp [s3]) (by simp [s3]) (by simp [s3]) (by simp [s3]))
  split
  · exact hs3.trans (of_fields (by simp) (by simp) (by simp) (by simp))
  · exact hs3

theorem decodeSector (s : State) (key : Nat) (errs : List (Nat × Byte)) : Kept s (s.decodeSector key errs).1 := by
  unfold State.decodeSector
  extract_lets e n k asRead
  have hdraw : Kept s s.draw := of_fields rfl rfl rfl rfl
  split
  · exact bumpStack s _ 4
  · split
    · exact refl s
    · split
      · exact (setCheck s _ _).trans (countCe _ _)
      · split
        · exact hdraw.trans (poisonNew _ _ _)
        · exact hdraw.trans ((putBytes _ _ _).trans ((setCheck _ _ _).trans (countCe _ _)))

theorem sense (s : State) (secs : List Nat) : Kept s (s.sense secs).1 := by
  unfold State.sense
  refine keeps_foldl (P := fun acc : State × Bool => Kept s acc.1) (fun acc c hacc => ?_) _ (s, false) (refl s)
  exact hacc.trans (decodeSector _ _ _)

theorem modEngine (s : State) (e : Nat) {f : Engine → Engine} (hf : ∀ x, (f x).cur = x.cur) : Kept s (s.modEngine e f) := by
  refine ⟨rfl, fun e' p => ?_, .of_objs rfl rfl⟩
  simp only [State.rcur, State.modEngine, State.setEngine_engine]
  split
  · next h => rw [hf, h]
  · rfl

theorem fill_cur (x : Engine) (p ways sector uses : Nat) : (x.fill p ways sector uses).cur = x.cur := by
  unfold Engine.fill
  extract_lets set new here own
  split
  · rfl
  · split <;> rfl

theorem cacheAccess (s : State) (e p sector : Nat) (fills : Bool) : Kept s (s.cacheAccess e p sector fills) := by
  refine modEngine s e fun x => ?_
  split
  · rfl
  · split
    · exact fill_cur ..
    · rfl

theorem useSlot (s : State) (e pc level : Nat) : Kept s (s.useSlot e pc level) := by
  unfold State.useSlot
  extract_lets n4 n5
  refine modEngine s e ?_
  exact fun _ => rfl

theorem pass (s : State) (back : Bool) (t : Touch) : Kept s (s.pass back t) := by
  unfold State.pass
  extract_lets s1
  have hs1 : Kept s s1 := (cacheAccess s _ _ _ _).trans (useSlot _ _ _ _)
  refine hs1.trans (modEngine s1 _ ?_)
  exact fun _ => rfl

theorem passAll (s : State) (back : Bool) (ts : List Touch) : Kept s (s.passAll back ts) := by
  unfold State.passAll
  exact keeps_foldl (P := Kept s) (fun u t hu => hu.trans (pass u back t)) _ s (refl s)

end Kept

end Sys2Proof.Machine
end

section
/-!
SUPPORT, O38. The work of a unit as the states it leads through, and what its reads give (R125, R165, R201, R217, R245).
-/

namespace Sys2Proof.Machine

/-! ### The work of a unit, step by step -/

theorem UM.bind_run {α β : Type} (m : UM α) (f : α → UM β) (w : Work) :
    (m >>= f) w = match m w with
      | (.ok a, w') => f a w'
      | (.error e, w') => (.error e, w') := by
  show (ExceptT.bind m f) w = _
  simp only [ExceptT.bind, ExceptT.mk, bind, StateT.bind]
  cases h : m w with
  | mk r w' => cases r <;> rfl

/-- Work from state `s` that does not stop gives a value and a state of which `Q` holds. -/
def Leads {α : Type} (m : UM α) (s : State) (Q : α → State → Prop) : Prop :=
  ∀ w, w.st = s → ∀ a w', m w = (.ok a, w') → Q a w'.st

namespace Leads
variable {α β : Type} {s : State} {Q : α → State → Prop}

theorem mono {m : UM α} {Q' : α → State → Prop} (h : Leads m s Q) (hQ : ∀ a t, Q a t → Q' a t) : Leads m s Q' :=
  fun w hw a w' hm => hQ a _ (h w hw a w' hm)

theorem bind {m : UM α} {f : α → UM β} {Q' : β → State → Prop} (h : Leads m s Q) (hf : ∀ a t, Q a t → Leads (f a) t Q') :
    Leads (m >>= f) s Q' := by
  intro w hw b w' hm
  rw [UM.bind_run] at hm
  cases hrun : m w with
  | mk r w1 =>
    rw [hrun] at hm
    cases r with
    | error e => cases hm
    | ok a => exact hf a _ (h w hw a w1 hrun) w1 rfl b w' hm

theorem pure {a : α} (h : Q a s) : Leads (Pure.pure a : UM α) s Q := by
  intro w hw b w' hm
  obtain ⟨hb, rfl⟩ := Prod.mk.inj hm
  obtain rfl := Except.ok.inj hb
  exact hw ▸ h

theorem throw (e : Nat) : Leads (MonadExcept.throw e : UM α) s Q := fun _ _ _ _ hm => nomatch (Prod.mk.inj hm).1

theorem throw_bind (e : Nat) {f : β → UM α} : Leads (MonadExcept.throw e >>= f) s Q :=
  (throw (Q := fun _ _ => False) e).bind fun _ _ h => h.elim

theorem ite {c : Prop} [Decidable c] {m m' : UM α} (h : c → Leads m s Q) (h' : ¬c → Leads m' s Q) :
    Leads (if c then m else m') s Q := by
  split
  · next hc => exact h hc
  · next hc => exact h' hc

/-- A unit that looks at the state goes on from it. -/
theorem now_bind {f : State → UM α} (h : Leads (f s) s Q) : Leads (now >>= f) s Q := by
  intro w hw a w' hm
  subst hw
  exact h w rfl a w' hm

theorem act {f : State → State} {Q : Unit → State → Prop} (h : Q () (f s)) : Leads (Machine.act f) s Q := by
  intro w hw b w' hm
  obtain ⟨-, rfl⟩ := Prod.mk.inj hm
  show Q () (f w.st)
  rwa [hw]

/-- Naming an entry changes nothing of work that does not stop. -/
theorem atEntry {m : UM α} (i : Nat) (h : Leads m s Q) : Leads (Machine.atEntry i m) s Q := by
  intro w hw a w' hm
  refine h w hw a w' ?_
  have hcatch : Machine.atEntry i m w = match m w with
      | (.ok a, w1) => (.ok a, w1)
      | (.error e, w1) => (.error (if e < 2 ^ 16 then e + 2 ^ 16 * (i + 1) else e), w1) := by
    simp only [Machine.atEntry, tryCatch, tryCatchThe, MonadExceptOf.tryCatch, ExceptT.tryCatch, ExceptT.mk, Bind.bind, StateT.bind]
    cases hrun : m w with
    | mk r w1 => cases r <;> rfl
  rw [hcatch] at hm
  cases hrun : m w with
  | mk r w1 =>
    rw [hrun] at hm
    cases r with
    | error e => cases (Prod.mk.inj hm).1
    | ok b => exact hm

end Leads

/-! ### Reads (R125, R217, R245) -/

/-- What a foreground read gives. -/
def State.readFore (s : State) (p unm a n : Nat) : Except Nat (List Byte) :=
  match s.physRange p none a n with
  | none => .error unm
  | some ks =>
    if ((s.countLoad p ks).sense (hbmSectors ks)).2 then .error ePoison
    else .ok (ks.map ((s.countLoad p ks).sense (hbmSectors ks)).1.byte)

theorem rd_fore (p unm a n : Nat) (w : Work) : ∃ w', rd p .fore unm a n w = (w.st.readFore p unm a n, w') ∧ Kept w.st w'.st := by
  unfold rd State.readFore
  rw [UM.bind_run]
  show ∃ w', (match w.st.physRange p none a n with | none => _ | some ks => _ : UM (List Byte)) w = _ ∧ _
  cases w.st.physRange p none a n with
  | none => exact ⟨w, rfl, .refl _⟩
  | some ks =>
    have hkept : Kept w.st ((w.st.countLoad p ks).sense (hbmSectors ks)).1 := (Kept.countLoad _ _ _).trans (Kept.sense _ _)
    simp only [if_true, ne_eq, reduceCtorEq, not_false_eq_true, false_and, or_false]
    generalize (w.st.countLoad p ks).sense (hbmSectors ks) = r at hkept ⊢
    obtain ⟨t, bad⟩ := r
    cases bad <;> exact ⟨_, rfl, hkept⟩

theorem look_rd_fore (s : State) (p unm a n : Nat) : (rd p .fore unm a n).look s = s.readFore p unm a n := by
  obtain ⟨w', hrun, -⟩ := rd_fore p unm a n { st := s, how := plainly, touched := [] }
  exact congrArg Prod.fst hrun

theorem leads_rd (s : State) (p unm a n : Nat) :
    Leads (rd p .fore unm a n) s (fun bs t => (rd p .fore unm a n).look s = .ok bs ∧ Kept s t) := by
  intro w hw bs w' hm
  obtain ⟨w1, hrun, hkept⟩ := rd_fore p unm a n w
  obtain ⟨hbs, rfl⟩ := Prod.mk.inj (hrun.symm.trans hm)
  rw [look_rd_fore, ← hw]
  exact ⟨hbs, hkept⟩

theorem leads_rdNum (s : State) (p unm a n : Nat) :
    Leads (rdNum p .fore unm a n) s (fun v t => (rdNum p .fore unm a n).look s = .ok v ∧ Kept s t) := by
  refine (leads_rd s p unm a n).bind fun bs t h => ?_
  obtain ⟨hbs, hkept⟩ := h
  refine .pure ⟨?_, hkept⟩
  obtain ⟨w', hrun, -⟩ := rd_fore p unm a n { st := s, how := plainly, touched := [] }
  have hread : s.readFore p unm a n = .ok bs := (look_rd_fore ..).symm.trans hbs
  have hrun : rd p .fore unm a n { st := s, how := plainly, touched := [] } = (.ok bs, w') := hrun.trans (by rw [hread])
  show (rdNum p .fore unm a n { st := s, how := plainly, touched := [] }).1 = _
  unfold rdNum
  rw [UM.bind_run, hrun]
  rfl

/-! ### Tables as a unit reads them (R165, R201) -/

theorem leads_rdHomes (s : State) (p unm bad a n : Nat) : Leads (rdHomes p .fore unm bad a n) s (fun _ t => Kept s t) := by
  unfold rdHomes
  refine .ite (fun _ => .pure (.refl s)) fun _ => ?_
  refine (leads_rd s p unm a (16 * n)).bind fun bs t h => ?_
  exact .ite (fun _ => .throw_bind bad) (fun _ => .pure h.2)

theorem leads_rdRows (s : State) (p unm a : Nat) : Leads (rdRows p .fore unm a) s (fun _ t => Kept s t) := by
  unfold rdRows
  refine (leads_rd s p unm a 96).bind fun b t h => ?_
  refine .now_bind ?_
  refine .ite (fun _ => .throw_bind _) fun _ => ?_
  refine (leads_rdHomes t p unm _ _ _).bind fun hs t' hkept => ?_
  have hkept : Kept s t' := h.2.trans hkept
  refine .ite (fun _ => ?_) (fun _ => ?_)
  all_goals
    refine (leads_rd t' p unm _ _).bind fun bs t'' h' => ?_
    exact .ite (fun _ => .throw_bind _) (fun _ => .pure (hkept.trans h'.2))

/-! ### The copy of a row (R218, R219) -/

/-- The destination device of a packet a module makes (R266). -/
theorem hDstDev_mkPacket (me : Nat) (x : HSpec) (pay : List Byte) (tr : Option (BitVec 256)) :
    hDstDev (mkPacket me x pay tr).h = x.dev % 2 ^ 17 := by
  have hbool : ∀ b, b2n b ≤ 1 := by decide
  have h1 := hbool x.fol
  have h2 := hbool x.run
  have h3 := hbool x.err
  have h4 := hbool x.last
  have h5 := hbool x.nf
  simp only [hDstDev, bits, mkPacket, Packet.h, BitVec.toNat_ofNat, Nat.shiftRight_eq_div_pow]
  omega

theorem leads_slotOffset (s : State) (me t dv q slot : Nat) : Leads (slotOffset me t dv q slot) s (fun _ u => Kept s u) := by
  unfold slotOffset
  refine .now_bind ?_
  refine .ite (fun _ => ?_) (fun _ => ?_)
  · exact (leads_rdRows s q _ _).bind fun y t' hkept => .pure hkept
  · refine (Leads.act (Q := fun _ t' => Kept s t') (.of_fields rfl rfl rfl rfl)).bind fun _ t' hkept => ?_
    exact .pure hkept

theorem leads_settled (s : State) (p t r : Nat) : Leads (settled p t r) s (fun _ u => u = s) := by
  unfold settled
  refine .now_bind ?_
  exact .ite (fun _ => .throw _) (fun _ => .pure rfl)

end Sys2Proof.Machine
end

section
/-!
SUPPORT, O38. MIGRATE: the copy of an entry, and sending while every destination has a route (R197, R218, R219, R269, R282).
-/

namespace Sys2Proof.Machine

/-! ### The copy of an entry (R218, R219) -/

/-- Where an entry sends a row: the row, device, partition and slot. -/
structure Move where
  row  : Nat
  dev  : Nat
  part : Nat
  slot : Nat

/-- What copies of the row `v` of tables `qs` leave: a forwarding entry a table, and packets to the row's new device that still have
to be sent. -/
structure Copied (e p i : Nat) (v : Move) (qs : List Nat) (s u : State) : Prop where
  fwd    : ∃ fs : List Fwd, u.fwd = s.fwd ++ fs ∧
    fs.map (fun f => (f.part, f.table, f.row, f.dev, f.dpart, f.slot, f.copier)) =
      qs.map (fun q => (p, q, v.row, v.dev, v.part, v.slot, some (e, i)))
  rcur   : ∀ c, s.rcur e p = some c → ∃ xs : List (Nat × List Packet), u.rcur e p = some { c with todo := c.todo ++ xs } ∧
    ∀ x ∈ xs, ∀ k ∈ x.2, hDstDev k.h = v.dev % 2 ^ 17
  routes : SameRoutes s u

namespace Copied
variable {e p i : Nat} {v : Move} {s t u : State}

theorem of_kept (h : Kept s t) : Copied e p i v [] s t :=
  ⟨⟨[], by rw [h.fwd, List.append_nil], rfl⟩, fun c hc => ⟨[], by rw [h.rcur, hc, List.append_nil], nofun⟩, h.routes⟩

theorem trans {qs rs : List Nat} (h : Copied e p i v qs s t) (h' : Copied e p i v rs t u) : Copied e p i v (qs ++ rs) s u := by
  obtain ⟨fs, hfwd, hfs⟩ := h.fwd
  obtain ⟨gs, hfwd', hgs⟩ := h'.fwd
  refine ⟨⟨fs ++ gs, by rw [hfwd', hfwd, List.append_assoc], by rw [List.map_append, List.map_append, hfs, hgs]⟩, fun c hc => ?_,
    h.routes.trans h'.routes⟩
  obtain ⟨xs, hcur, hxs⟩ := h.rcur c hc
  obtain ⟨ys, hcur', hys⟩ := h'.rcur _ hcur
  refine ⟨xs ++ ys, by rw [hcur', List.append_assoc], fun x hx => ?_⟩
  exact (List.mem_append.mp hx).elim (hxs x) (hys x)

end Copied

theorem mem_writePackets {s : State} {p dv q off : Nat} {bs : List Byte} {k : Packet} (hk : k ∈ s.writePackets p dv q off bs) :
    hDstDev k.h = dv % 2 ^ 17 := by
  obtain ⟨i, -, rfl⟩ := List.mem_map.mp hk
  exact hDstDev_mkPacket ..

theorem State.modRcur_frame (s : State) (e p : Nat) (f : RCur → RCur) :
    (s.modRcur e p f).fwd = s.fwd ∧ (s.modRcur e p f).mem = s.mem ∧ SameRoutes s (s.modRcur e p f) := by
  unfold State.modRcur
  split
  · exact ⟨rfl, rfl, s.sameRoutes_setRcur e p _⟩
  · exact ⟨rfl, rfl, .refl s⟩

theorem State.rcur_modRcur {s : State} {e p : Nat} {c : RCur} (hc : s.rcur e p = some c) (f : RCur → RCur) :
    (s.modRcur e p f).rcur e p = some (f c) := by
  rw [State.modRcur_some _ _ _ hc, State.rcur_setRcur_same]

theorem leads_migrateRow (s : State) (e p t base i : Nat) (v : Move) :
    Leads (migrateRow e p t base i v.row v.dev v.part v.slot) s (fun _ u => Copied e p i v [t] s u) := by
  unfold migrateRow
  refine (leads_rdRows s p _ base).bind fun x s1 hkept1 => ?_
  refine (leads_settled s1 p t v.row).bind fun _ s2 hs2 => ?_
  subst hs2
  refine .now_bind (.ite (fun _ => .throw_bind _) fun _ => ?_)
  cases s2.homePlace x p t v.row with
  | away d q => exact .throw _
  | outside => exact .throw _
  | here a =>
    refine (leads_rd s2 p _ a _).bind fun bs s3 h3 => ?_
    refine (leads_slotOffset s3 _ t v.dev v.part v.slot).bind fun dst s4 h4 => ?_
    have hkept : Kept s s4 := (hkept1.trans h3.2).trans h4
    unfold pushTodo
    refine (Leads.act (Q := fun _ u => u = s4.modRcur e p _) rfl).bind fun _ u hu => ?_
    subst hu
    refine .act ?_
    refine (Copied.of_kept hkept).trans (qs := []) ⟨⟨[_], congrArg (· ++ _) (s4.modRcur_frame e p _).1, rfl⟩, fun c hc => ?_,
      (s4.modRcur_frame e p _).2.2.trans (.of_objs rfl rfl)⟩
    refine ⟨[(i, _)], State.rcur_modRcur hc _, fun x hx k hk => ?_⟩
    obtain rfl := List.mem_singleton.mp hx
    exact mem_writePackets hk

/-- Tables whose row an entry copies (R218). -/
def moveTables (d : Nat) : List Nat := [reTable d] ++ if reTable2 d = 0xFF then [] else [reTable2 d]

/-- What a list entry of a MIGRATE says (R203). -/
def Move.ofEntry (n : Nat) : Move := { row := bits n 0 40, dev := bits n 40 17, part := bits n 57 5, slot := bits n 64 32 }

theorem leads_migrateEntry (s : State) (e p : Nat) (c : RCur) :
    Leads (migrateEntry e p c) s (fun _ u => ∃ n, (rdEntry p c.desc.bits.toNat c.next).look s = .ok n ∧
      Copied e p c.next (.ofEntry n) (moveTables c.desc.bits.toNat) s u) := by
  unfold migrateEntry
  extract_lets d i
  refine .atEntry i ?_
  refine (leads_rdNum s p _ _ _).bind fun n s1 h1 => ?_
  obtain ⟨hread, hkept⟩ := h1
  refine ((leads_migrateRow s1 e p (reTable d) _ i (.ofEntry n))).bind fun _ s2 h2 => ?_
  have h2 : Copied e p i (.ofEntry n) [reTable d] s s2 := (Copied.of_kept hkept).trans (qs := []) h2
  refine .ite (fun htwo => ?_) (fun hone => .pure ⟨n, hread, ?_⟩)
  · refine (leads_migrateRow s2 e p (reTable2 d) _ i (.ofEntry n)).mono fun _ u h3 => ⟨n, hread, ?_⟩
    rw [moveTables, if_neg htwo]
    exact h2.trans h3
  · rw [moveTables, if_pos (not_not.mp hone)]
    exact h2

/-- Work that a unit performs to its end. -/
theorem Leads.run {α : Type} {m : UM α} {s u : State} {how : How} {a : α} {Q : α → State → Prop} (h : Leads m s Q)
    (hrun : m.run how s = some (.ok a, u)) : ∃ t, Q a t ∧ Kept t u := by
  unfold UM.run at hrun
  extract_lets r at hrun
  split at hrun
  · obtain ⟨hr, hu⟩ := Prod.mk.inj (Option.some.inj hrun)
    refine ⟨r.2.st, h { st := s, how := how, touched := [] } rfl a r.2 (Prod.ext hr rfl), ?_⟩
    rw [← hu]
    exact Kept.passAll _ _ _
  · cases hrun

/-! ### Sending while every destination has a route (R269, R282) -/

/-- A descriptor that has not failed and whose packets can all go somewhere. -/
structure Sendable (s : State) (e p : Nat) (c : RCur) : Prop where
  rcur  : s.rcur e p = some c
  err   : c.err = 0
  route : ∀ x ∈ c.todo, ∀ k ∈ x.2, s.routable (hDstDev k.h) = true

theorem pump_frame (len e p : Nat) : ∀ (n : Nat) (s : State) (c : RCur), Sendable s e p c →
    (State.pump len n s e p).mem = s.mem ∧ (State.pump len n s e p).fwd = s.fwd ∧
      ∃ c', (State.pump len n s e p).rcur e p = some c' ∧ c'.err = 0
  | 0, _, c, h => ⟨rfl, rfl, c, h.rcur, h.err⟩
  | n + 1, s, c, h => by
    -- what is left to send after the first transaction
    have hrest : ∀ {i : Nat} {ps : List Packet} {rest : List (Nat × List Packet)} {c' : RCur} {u : State},
        c.todo = (i, ps) :: rest → c'.err = 0 → c'.todo = rest → u.still = (s.setRcur e p (some c')).still →
        (State.pump len n u e p).mem = s.mem ∧ (State.pump len n u e p).fwd = s.fwd ∧
          ∃ c', (State.pump len n u e p).rcur e p = some c' ∧ c'.err = 0 := by
      intro i ps rest c' u htodo herr hrest hu
      have hroutes : SameRoutes s u :=
        (s.sameRoutes_setRcur e p (some c')).trans (.of_objs (congrArg Still.objs hu) (congrArg Still.routes hu))
      have hcur := (State.rcur_of_still hu e p).trans (s.rcur_setRcur_same e p (some c'))
      obtain ⟨hmem, hfwd, hlast⟩ := pump_frame len e p n u c' ⟨hcur, herr, fun x hx k hk => (hroutes.routable _).trans
        (h.route x (htodo ▸ List.mem_cons_of_mem _ (hrest ▸ hx)) k hk)⟩
      exact ⟨hmem.trans (congrArg Still.mem hu), hfwd.trans (congrArg Still.fwd hu), hlast⟩
    unfold State.pump
    simp only [h.rcur]
    cases htodo : c.todo with
    | nil => exact ⟨rfl, rfl, c, h.rcur, h.err⟩
    | cons x rest =>
      obtain ⟨i, ps⟩ := x
      cases ps with
      | nil => exact hrest (c' := { c with todo := rest }) htodo h.err rfl rfl
      | cons k ks =>
        have hroute := h.route (i, k :: ks) (htodo ▸ List.mem_cons_self) k List.mem_cons_self
        simp only [hroute, Bool.true_eq_false, if_false]
        cases s.freeTag with
        | none => exact ⟨rfl, rfl, c, h.rcur, h.err⟩
        | some g =>
          refine hrest (c' := { c with todo := rest, tags := c.tags ++ [g] }) htodo h.err rfl ?_
          rw [State.still_foldl_emit]
          rfl

/-- Sending then ends nothing, and changes neither memory nor a forwarding entry. -/
theorem Sendable.rowSend_rowEnd {s : State} {e p : Nat} {c : RCur} (h : Sendable s e p c) :
    ((s.rowSend e p).rowEnd e p).mem = s.mem ∧ ((s.rowSend e p).rowEnd e p).fwd = s.fwd := by
  have hsend : s.rowSend e p = State.pump (s.rowLen p c) c.todo.length s e p := by simp only [State.rowSend, h.rcur]
  obtain ⟨hmem, hfwd, c', hcur, herr⟩ := pump_frame (s.rowLen p c) e p c.todo.length s c h
  rw [hsend, State.rowEnd_ok hcur herr]
  exact ⟨hmem, hfwd⟩

/-! ### MIGRATE goes on (R197, R218) -/

section
variable {s : State} {e p : Nat} {c : RCur} (he : e < 384) (hp : p < 32) (hc : s.rcur e p = some c)
  (hop : reOp c.desc.bits.toNat = 10) (hready : c.ready = false)
include he hp hc hop hready

omit hop hready in
theorem exec_migrateCopy_waits
    (hwait : (c.bound = false ∧ s.partRuns p = true) ∨ s.orderCount p (reTable c.desc.bits.toNat) ≠ 0) :
    exec (.migrateCopy e p) s = .next s := by
  show execMigrateCopy e p s = _
  unfold execMigrateCopy
  rw [if_neg (by omega)]
  simp only [hc]
  rw [if_pos (hwait.elim (fun h => .inr (.inl h)) (fun h => .inr (.inr (.inr h))))]

/-- The next entry is copied, and its packets are sent. -/
theorem exec_migrateCopy_copies (hgo : c.bound = true ∨ s.partRuns p = false)
    (hempty : s.orderCount p (reTable c.desc.bits.toNat) = 0) {u : State}
    (hrun : (migrateEntry e p c).run (reHow c.desc.bits.toNat) s = some (.ok (), u)) :
    ∃ f : RCur → RCur, (∀ c, (f c).err = c.err ∧ (f c).todo = c.todo) ∧
      exec (.migrateCopy e p) s = .next (((u.modRcur e p f).rowSend e p).rowEnd e p) := by
  have hbound : ¬(c.bound = false ∧ s.partRuns p = true) := by
    rintro ⟨hno, hruns⟩
    rcases hgo with hb | hs
    · simp [hb] at hno
    · simp [hs] at hruns
  have hgoes : ¬(reOp c.desc.bits.toNat ≠ 10 ∨ (c.bound = false ∧ s.partRuns p = true) ∨ c.ready = true ∨
      s.orderCount p (reTable c.desc.bits.toNat) ≠ 0) := by
    simp only [not_or]
    exact ⟨not_not.mpr hop, hbound, by simp [hready], not_not.mpr hempty⟩
  refine ⟨fun c' => { c' with next := c'.next + 1, ready := decide (reCount c.desc.bits.toNat ≤ c'.next + 1) },
    fun _ => ⟨rfl, rfl⟩, ?_⟩
  show execMigrateCopy e p s = _
  unfold execMigrateCopy
  rw [if_neg (by omega)]
  simp only [hc]
  rw [if_neg hgoes]
  simp only [hrun]

/-- R218, R219: what a copied entry leaves, once its packets can all go somewhere. -/
theorem migrateCopy_frame (hgo : c.bound = true ∨ s.partRuns p = false)
    (hempty : s.orderCount p (reTable c.desc.bits.toNat) = 0) (herr : c.err = 0) {u : State} {n : Nat}
    (hrun : (migrateEntry e p c).run (reHow c.desc.bits.toNat) s = some (.ok (), u))
    (hread : (rdEntry p c.desc.bits.toNat c.next).look s = .ok n) (hroute : s.routable (bits n 40 17) = true)
    (htodo : ∀ x ∈ c.todo, ∀ k ∈ x.2, s.routable (hDstDev k.h) = true) :
    ∃ t, exec (.migrateCopy e p) s = .next t ∧ t.mem = u.mem ∧ ∃ fs : List Fwd, t.fwd = s.fwd ++ fs ∧
      fs.map (fun f => (f.part, f.table, f.row, f.dev, f.dpart, f.slot, f.copier)) =
        (moveTables c.desc.bits.toNat).map
          (fun q => (p, q, bits n 0 40, bits n 40 17, bits n 57 5, bits n 64 32, some (e, c.next))) := by
  obtain ⟨f, hf, hexec⟩ := exec_migrateCopy_copies he hp hc hop hready hgo hempty hrun
  obtain ⟨v, ⟨n', hread', hcopied⟩, hkept⟩ := (leads_migrateEntry s e p c).run hrun
  obtain rfl : n = n' := Except.ok.inj (hread.symm.trans hread')
  have hcopied : Copied e p c.next (.ofEntry n) (moveTables c.desc.bits.toNat ++ []) s u := hcopied.trans (.of_kept hkept)
  rw [List.append_nil] at hcopied
  obtain ⟨xs, hcur, hxs⟩ := hcopied.rcur c hc
  obtain ⟨fs, hfwd, hfs⟩ := hcopied.fwd
  obtain ⟨hmodFwd, hmodMem, hmodRoutes⟩ := u.modRcur_frame e p f
  have hroutes := hcopied.routes.trans hmodRoutes
  have hsendable : Sendable (u.modRcur e p f) e p (f { c with todo := c.todo ++ xs }) := by
    refine ⟨State.rcur_modRcur hcur f, (hf _).1.trans herr, fun x hx k hk => (hroutes.routable _).trans ?_⟩
    rw [(hf _).2] at hx
    rcases List.mem_append.mp hx with hx | hx
    · exact htodo x hx k hk
    · have hdev : (Move.ofEntry n).dev % 2 ^ 17 = bits n 40 17 := Nat.mod_eq_of_lt (bits_lt n 40 17)
      rw [hxs x hx k hk, hdev]
      exact hroute
  obtain ⟨hmem, hsent⟩ := hsendable.rowSend_rowEnd
  exact ⟨_, hexec, hmem.trans hmodMem, fs, hsent.trans (hmodFwd.trans hfwd), hfs⟩

end

end Sys2Proof.Machine
end

section
/-!
SUPPORT, O38. Row-engine descriptors: each clause by the equation of its start, its completion or its next copy.
-/

namespace Sys2Proof.Machine

theorem State.stall_setRowQueue (s : State) (e p : Nat) (q : List Desc) (j : Nat) :
    (s.setRowQueue e p q).stall j = s.stall j := State.setEngine_stall ..

theorem State.obj_setRowQueue (s : State) (e p : Nat) (q : List Desc) (j : Nat) :
    (s.setRowQueue e p q).obj j = s.obj j := State.setEngine_obj ..

theorem State.obj_setRcur (s : State) (e p : Nat) (c : Option RCur) (j : Nat) :
    (s.setRcur e p c).obj j = s.obj j := State.setEngine_obj ..

theorem State.rcur_of_engines {s t : State} (h : t.engines = s.engines) (e p : Nat) : t.rcur e p = s.rcur e p := by
  simp only [State.rcur, State.engine, h]

theorem State.rowQueue_of_engines {s t : State} (h : t.engines = s.engines) (e p : Nat) : t.rowQueue e p = s.rowQueue e p := by
  simp only [State.rowQueue, State.engine, h]

theorem State.rowStart_switch (s : State) (e p : Nat) {d : Desc} (hop : reOp d.bits.toNat = 8) :
    ∃ c : RCur, c.desc = d ∧ s.rowStart e p d = some (s.startSwitch e p d c) := by
  refine ⟨s.fresh p d, rfl, ?_⟩
  unfold State.rowStart
  extract_lets b c
  rw [if_pos hop]
  rfl

/-- A tag is given back to the stall as it was before the descriptor left its queue. -/
theorem tagBack_of_setRowQueue {s t : State} {e p : Nat} {q : List Desc} {d : Desc} (h : tagBack (s.setRowQueue e p q) t d) :
    tagBack s t d := by
  simpa only [tagBack, State.stall_setRowQueue] using h

/-- A TSWITCH that is not refused leaves its request in the descriptor of its table (R199). -/
theorem exec_tswitch {s : State} {e p : Nat} {d : Desc} {rest : List Desc} (he : e < 384) (hp : p < 32) (hidle : s.rcur e p = none)
    (hq : s.rowQueue e p = d :: rest) (hop : reOp d.bits.toNat = 8) (hkind : tdKind (s.obj (kTable p (reTable d.bits.toNat))) ≠ 0)
    (hnew : s.versionLive p (reTable d.bits.toNat) (reVersion d.bits.toNat) = false) (hrun : (s.part p).phase = .running) :
    ∃ c : RCur, c.ready = true ∧ c.desc = d ∧ exec (.rowDescriptorStart e p) s =
      .next (((s.setRowQueue e p rest).setObj (kTable p (reTable d.bits.toNat))
        (setBits (setBits (setBits (s.obj (kTable p (reTable d.bits.toNat))) 84 1 1) 96 64 (reSrc d.bits.toNat)) 160 16
          (reVersion d.bits.toNat))).setRcur e p (some c)) := by
  have hkind' : tdKind ((s.setRowQueue e p rest).obj (kTable p (reTable d.bits.toNat))) ≠ 0 := by rwa [State.obj_setRowQueue]
  have hrun' : ((s.setRowQueue e p rest).part p).phase = .running := by
    rwa [State.setRowQueue, State.modEngine, State.setEngine_part]
  obtain ⟨c, hdesc, hstart⟩ := (s.setRowQueue e p rest).rowStart_switch e p hop
  refine ⟨{ c with ready := true }, rfl, hdesc, ?_⟩
  rw [exec_rowStart he hp hidle hq, hstart, Option.getD_some,
    State.startSwitch_ok e c hkind' (State.versionLive_setRowQueue hnew), State.requestSwitch_running _ _ _ hrun',
    State.obj_setRowQueue]

/-- A descriptor of rows starts with the captures of the tables as they are. -/
theorem State.fresh_setRowQueue (s : State) (e p : Nat) (q : List Desc) (d : Desc) : (s.setRowQueue e p q).fresh p d =
    { (s.setRowQueue e p q).fresh p d with
      bases := (reCaps d.bits.toNat).map (fun k => (k, tdBase (s.obj (kTable p k)))) } := by
  simp only [State.fresh, State.obj_setRowQueue]

/-- Settles O38: a descriptor's start, completion or copy is one equation, and what events and packets leave of the state gives the
rest. -/
theorem rowDescriptors : Obligations.RowDescriptors := by
  unfold Obligations.RowDescriptors
  refine ⟨fun seg j hne hlen => segElem_short j hne hlen, fun s e p he hp => ⟨fun d rest hidle hq => ?_, ?_, ?_⟩⟩
  · intro b s0 w
    refine ⟨fun hop hkind hnew hrun => ?_, fun hop hnames hkind => ?_, fun hop hkind => ?_⟩
    · obtain ⟨c, hready, hdesc, hexec⟩ := exec_tswitch he hp hidle hq hop hkind hnew hrun
      refine ⟨_, hexec, ?_, rfl, ⟨c, State.rcur_setRcur_same .., hready, hdesc⟩, ?_⟩
      · rw [State.rowQueue_setRcur, State.rowQueue, State.setObj_engine]
        exact s.rowQueue_setRowQueue_same e p rest
      · rw [State.obj_setRcur, State.setObj_same]
        exact requestSwitch_fields w (reSrc b) (reVersion b) (bits_lt ..) (bits_lt ..)
    · have hswitch : reOp b ≠ 8 := by
        intro h8
        rw [h8] at hop
        exact absurd hop (by decide)
      have hcap : reTable b ∈ reCaps b := by simp [reCaps, hnames]
      have hstart := s0.rowStart_wrongKind e (d := d) hswitch ⟨reTable b, hcap, by rwa [State.obj_setRowQueue]⟩
      obtain ⟨hmem, hengines, hstatus, htag⟩ := s0.reFail_frame e d noEntry 0 (code := eTable) (by decide) (by decide)
      refine ⟨_, (exec_rowStart he hp hidle hq).trans (by rw [hstart, Option.getD_some]), ?_, ?_, hmem, hstatus,
        tagBack_of_setRowQueue htag⟩
      · rw [State.rcur_of_engines hengines, State.rcur_setRowQueue, hidle]
      · rw [State.rowQueue_of_engines hengines, State.rowQueue_setRowQueue_same]
    · intro c prep
      have hc : c = s0.fresh p d := (s.fresh_setRowQueue e p rest d).symm
      have hkind0 : ∀ t ∈ reCaps d.bits.toNat, tdKind (s0.obj (kTable p t)) = 4 := fun t ht => by
        rw [State.obj_setRowQueue]
        exact hkind t ht
      have hprep : prep = (rePrep p b ((s0.fresh p d).base (reTable b)) .fore).run (reHow b) s0 := by rw [← hc]
      clear_value prep c
      subst hprep hc
      refine ⟨fun hnone => ?_, fun o s1 s2 n y hprep hmigrate hneeds hmissing hwork hy herr htags => ?_⟩
      · have hstart : s0.rowStart e p d = none := by rw [s0.rowStart_prep hop hkind0, hnone, Option.map_none]
        rw [exec_rowStart he hp hidle hq, hstart, Option.getD_none]
      · have hexec : exec (.rowDescriptorStart e p) s = .next (s2.rowFinish e p { y with ready := true, size := n }) := by
          rw [exec_rowStart he hp hidle hq, State.rowStart_work hop hkind0 hprep hmigrate hneeds hmissing hwork hy, Option.getD_some]
        refine ⟨fun htodo => ⟨_, hexec, ?_⟩, fun i k ks g htodo hroute htag => ⟨_, hexec, ?_⟩⟩
        · rw [State.rowFinish_idle (c := { y with ready := true, size := n }) herr htodo]
          exact ⟨rfl, State.rcur_setRcur_same ..⟩
        · obtain ⟨hmem, hcur⟩ := State.rowFinish_one (c := { y with ready := true, size := n }) (e := e) (p := p) herr htodo hroute htag
          exact ⟨hmem, hcur.trans (by simp only [htags, List.nil_append])⟩
  · intro c hc hready htodo htags herr d hcmpl
    exact ⟨_, exec_rowComplete he hp hc hready htodo htags herr hcmpl, s.completed_frame e p c.desc⟩
  · intro c hc hop hready d
    exact ⟨exec_migrateCopy_waits he hp hc, fun n u hgo hempty herr hrun hread hroute htodo =>
      migrateCopy_frame he hp hc hop hready hgo hempty herr hrun hread hroute htodo⟩

end Sys2Proof.Machine
end

section
/-!
SUPPORT, O34-O36. What events, packets and flag writes leave of the units of a shed and of the logs, and what a failed command
or descriptor leaves (R93, R126, R139, R145, R160, R192, R228, R391).
-/

namespace Sys2Proof.Machine

/-! ### The units of a shed and the length of the logs -/

/-- The units of a shed that take commands and descriptors. -/
def Shed.units (x : Shed) : Mxa × Sampler × Dma := (x.mxa, x.sampler, x.dma)

def State.units (s : State) (k : Nat) : Mxa × Sampler × Dma := (s.shed k).units

theorem State.units_modShed (s : State) (k : Nat) {f : Shed → Shed} (hf : ∀ x, (f x).units = x.units) :
    (s.modShed k f).units = s.units := by
  funext j
  rw [State.units, State.modShed, State.setShed_shed]
  split
  · next h => rw [hf, h, State.units]
  · rfl

section
variable {s t : State} (h : t.units = s.units)
include h

theorem State.mxa_of_units (k : Nat) : t.mxa k = s.mxa k := congrArg Prod.fst (congrFun h k)
theorem State.sampler_of_units (k : Nat) : t.sampler k = s.sampler k := congrArg (fun x => x.2.1) (congrFun h k)
theorem State.dma_of_units (k : Nat) : t.dma k = s.dma k := congrArg (fun x => x.2.2) (congrFun h k)

end

theorem State.logPart_log_next (s : State) (p code sev kind idx detail w : Nat) :
    ((s.logPart p code sev kind idx detail).log w).next = if w = p + 1 then (s.log w).next + 1 else (s.log w).next := by
  have hlog : (s.logPart p code sev kind idx detail).log w = (s.setLog (p + 1)
      ((s.log (p + 1)).append 1024 (fun n => logWord n s.time code sev (some p) kind idx detail))).log w := by
    simp only [State.log, State.logPart, State.raiseMsix_logs]
  rw [hlog, State.setLog_log]
  split
  · next h => rw [h]; rfl
  · rfl

/-- An error event changes its queue's shed, or that shed's note of the loss, and the arrival count (R147, R160). -/
theorem State.pushError_eq (s : State) (p : Nat) (ev : BitVec 256) :
    ∃ x c, s.pushError p ev = { s with sheds := x, ctr := c } ∧ (s.pushError p ev).units = s.units := by
  have henqueue : ∀ (k q kind : Nat) (t : State), s.enqueue k q kind ev = .ok t →
      ∃ x c, t = { s with sheds := x, ctr := c } ∧ t.units = s.units := by
    intro k q kind t h
    unfold State.enqueue at h
    extract_lets x Q at h
    by_cases hfull : qDepth Q + (if kind = kindError then 64 else 0) ≤ Q.items.length
    · rw [if_pos hfull] at h
      cases h
    · rw [if_neg hfull] at h
      obtain rfl := Accept.ok.inj h
      refine ⟨_, _, rfl, (State.units_modShed _ _ ?_).trans (s.units_modShed k (f := fun y =>
        y.setQueue q { Q with items := Q.items ++ [eventOf Q kind ev s.ctr] }) ?_)⟩
      · exact fun _ => rfl
      · exact fun _ => rfl
  unfold State.pushError
  extract_lets qi k
  split
  · exact ⟨_, _, rfl, rfl⟩
  · split
    · next h => exact henqueue _ _ _ _ h
    · refine ⟨_, _, rfl, s.units_modShed k ?_⟩
      exact fun _ => rfl

/-- What the report of a failure leaves: everything but queues and logs, and one entry more in the log of partition `p`
(R160, R401). -/
structure Reported (s : State) (p : Nat) (t : State) : Prop where
  still : t.still = s.still
  mesh  : t.mesh = s.mesh
  units : t.units = s.units
  log   : ∀ w, (t.log w).next = if w = p + 1 then (s.log w).next + 1 else (s.log w).next

theorem State.reportError_reported (s : State) (p code stall kind idx target entry fcode : Nat) :
    Reported s p (s.reportError p code stall kind idx target entry fcode) := by
  obtain ⟨x, c, hpush, hunits⟩ := s.pushError_eq p (errorEvent code stall target entry fcode)
  have hlog : ∀ k i, Reported s p ((s.pushError p (errorEvent code stall target entry fcode)).logPart p code 2 k i target) :=
    fun k i =>
    { still := (State.still_logPart ..).trans (s.still_pushError ..)
      mesh := by rw [State.logPart_mesh, hpush]
      units := by
        refine Eq.trans (funext fun j => ?_) hunits
        simp only [State.units, State.shed, State.logPart_sheds]
      log := fun w => by
        rw [State.logPart_log_next, hpush]
        rfl }
  unfold State.reportError
  extract_lets s1
  split <;> exact hlog _ _

theorem State.failDesc_reported (s : State) (d : Desc) (code kind idx entry fcode : Nat) :
    Reported s d.part (s.failDesc d code kind idx entry fcode) := s.reportError_reported ..

/-! ### What packets and fired watches leave (R139, R143, R145) -/

/-- From `s` to `t` no unit changed and no log got shorter. -/
structure KeepsUnits (s t : State) : Prop where
  units : t.units = s.units
  logs  : ∀ w, (s.log w).next ≤ (t.log w).next

namespace KeepsUnits

theorem trans {s t u : State} (h : KeepsUnits s t) (h' : KeepsUnits t u) : KeepsUnits s u :=
  ⟨h'.units.trans h.units, fun w => (h.logs w).trans (h'.logs w)⟩

theorem of_eq {s t : State} (hsheds : t.sheds = s.sheds) (hlogs : t.logs = s.logs) : KeepsUnits s t :=
  ⟨funext fun k => by simp only [State.units, State.shed, hsheds], fun w => by simp only [State.log, hlogs, le_refl]⟩

theorem refl (s : State) : KeepsUnits s s := of_eq rfl rfl

theorem modShed (s : State) (k : Nat) {f : Shed → Shed} (hf : ∀ x, (f x).units = x.units) : KeepsUnits s (s.modShed k f) :=
  ⟨s.units_modShed k hf, fun _ => le_rfl⟩

theorem send (s : State) (x : HSpec) (pay : List Byte) : KeepsUnits s (s.send x pay none) := by
  unfold State.send State.emit State.emitFrom
  extract_lets h
  split
  · exact of_eq rfl rfl
  · split <;> exact of_eq rfl rfl

theorem reportError (s : State) (p code stall kind idx target entry fcode : Nat) :
    KeepsUnits s (s.reportError p code stall kind idx target entry fcode) :=
  have h := s.reportError_reported p code stall kind idx target entry fcode
  ⟨h.units, fun w => by rw [h.log]; split <;> omega⟩

theorem freeSlot (s : State) (k id : Nat) : KeepsUnits s (s.freeSlot k id) := by
  refine modShed s k ?_
  exact fun _ => rfl

theorem reply_slot (s : State) (k id : Nat) (v : BitVec 64) : KeepsUnits s (s.reply (.slot k id) v) := freeSlot s k id

theorem rejectOp (s : State) {m : Mesh} (code fcode : Nat) {k id : Nat} (hr : m.reply = .none ∨ m.reply = .slot k id) :
    KeepsUnits s (s.rejectOp m code fcode) := by
  have hreply : ∀ r : Reply, r = .none ∨ r = .slot k id → ∀ u : State, KeepsUnits u (u.reply r 0) := by
    rintro _ (rfl | rfl) u
    · exact refl u
    · exact reply_slot u k id 0
  unfold State.rejectOp
  split
  · exact (reportError ..).trans (hreply _ hr _)
  · extract_lets c no
    rcases hr with hr | hr
    all_goals
      simp only [hr]
      exact (send ..).trans (hreply _ (by simp) _)

theorem sendOp (s : State) {m : Mesh} (a depth : Nat) {k id : Nat} (hop : m.op = .evpush) (hn : m.n = kindWatch) :
    KeepsUnits s ((s.sendOp m a depth (.slot k id)).getD s) := by
  unfold State.sendOp
  by_cases hroute : s.routable (uaDevice a) = false
  · rw [if_pos hroute, Option.getD_some]
    exact (rejectOp s (k := k) (id := id) _ _ (.inl rfl)).trans (reply_slot ..)
  · rw [if_neg hroute]
    extract_lets ev post tagged
    have hpost : ∀ u sub pay aux, KeepsUnits u (post u sub pay aux) := fun u sub pay aux => send u _ pay
    clear_value tagged post
    rw [hop]
    show KeepsUnits s ((if m.n = kindWatch then _ else _ : Option State).getD s)
    rw [if_pos hn, Option.getD_some]
    refine KeepsUnits.trans ?_ (hpost _ _ _ _)
    exact of_eq rfl rfl

theorem fire (s : State) (k : Nat) (w : Watch) : KeepsUnits s (s.fire k w) := by
  unfold State.fire
  extract_lets s1 m
  have hs1 : KeepsUnits s s1 := by
    refine modShed s k ?_
    exact fun _ => rfl
  split
  · exact hs1.trans (of_eq rfl rfl)
  · exact hs1.trans (of_eq rfl rfl)
  · exact hs1.trans (sendOp s1 _ _ rfl rfl)
  · exact hs1.trans (rejectOp s1 (k := k) (id := w.id) _ _ (.inr rfl))

theorem setGroup (s : State) (k id : Nat) (wait : List Nat) (more : Nat) (u : UpRef) :
    KeepsUnits s (s.setGroup k id wait more u) := by
  unfold State.setGroup
  split
  · refine (freeSlot s k id).trans ?_
    unfold State.report
    split
    · exact of_eq rfl rfl
    · exact send ..
  · refine modShed s k ?_
    exact fun _ => rfl

theorem evalWatch (s : State) (k f : Nat) (v : Bool) (w : Watch) : KeepsUnits s (s.evalWatch k f v w) := by
  unfold State.evalWatch
  split
  · exact refl s
  · split
    · split
      · exact fire s k w
      · exact refl s
    · split
      · exact setGroup ..
      · exact refl s
    · exact refl s

/-- A flag write and the watches it fires change no unit. -/
theorem writeFlag (s : State) (i : Nat) (v : Bool) : KeepsUnits s (s.writeFlag i v) := by
  have hset : KeepsUnits s (s.modShed (i / 4096) (fun x => x.setFlag (i % 4096) v)) := by
    refine modShed s _ ?_
    exact fun _ => rfl
  exact List.foldlRecOn _ _ hset fun u hu w _ => hu.trans (evalWatch u _ _ v w)

end KeepsUnits

end Sys2Proof.Machine
end

section
/-!
SUPPORT and O36. A command or descriptor that the mesh brings to its unit waits, is queued, is discarded or fails (R72, R74, R93,
R126, R160, R167, R192, R196, R224, R228).
-/

namespace Sys2Proof.Machine

/-! ### Arrival (R74) -/

/-- The operation at place `k` has left the mesh. -/
def State.offMesh (s : State) (k : Nat) : State := { s with mesh := s.mesh.eraseIdx k }

section
variable {s : State} {k : Nat} {m : Mesh} (hm : s.mesh[k]? = some m) {ok : Mesh → Bool} {full : State → Mesh → Bool}
  {enter : State → Mesh → State}
include hm

theorem arrive_full (hfull : full s m = true) : arrive k ok full enter s = .next s := by
  simp [arrive, hm, hfull]

theorem arrive_enters (hok : ok m = true) (hturn : s.leafTurn k m = true) (hfull : full s m = false) (hreply : m.reply = .none) :
    arrive k ok full enter s = .next (enter (s.offMesh k) m) := by
  simp only [arrive, hm, hok, hturn, hfull, hreply, removeAt_eq_eraseIdx, Bool.true_eq_false, Bool.false_eq_true, or_self,
    if_false]
  rfl

end

/-! ### Descriptors that fail their issue checks (R126, R228, R231) -/

/-- The tag that a failed descriptor gives back leaves units, logs and mesh as its report left them. -/
theorem State.freeDesc_reported {s u : State} {p : Nat} (h : Reported s p u) (d : Desc) :
    (u.freeDesc d).mem = s.mem ∧ (u.freeDesc d).mesh = s.mesh ∧ (u.freeDesc d).units = s.units ∧
      ((u.freeDesc d).log (p + 1)).next = (s.log (p + 1)).next + 1 ∧ tagBack s (u.freeDesc d) d := by
  refine ⟨?_, ?_, ?_, ?_, State.tagBack_freeDesc (State.stalls_of_still h.still)⟩
  all_goals
    obtain ⟨x, hx⟩ := u.giveTag_eq d.stall d.tagId
    rw [State.freeDesc, hx]
  · exact (State.mem_of_still h.still :)
  · exact h.mesh
  · exact h.units
  · exact (h.log (p + 1)).trans (if_pos rfl)

/-- The codes of a row engine's issue checks set RE_STATUS alone (R231). -/
theorem State.reCheck_code (s : State) (p d n : Nat) :
    s.reCheck p d n < 2 ^ 16 ∧ s.reCheck p d n ≠ eFwdFull ∧ s.reCheck p d n ≠ ePoison := by
  unfold State.reCheck
  split_ifs <;> decide

/-! ### Samplers (R167, R192) -/

section
variable {s : State} {k : Nat} {m : Mesh} (hm : s.mesh[k]? = some m) (hop : m.op = .ucmd) (hturn : s.leafTurn k m = true)
  (hreply : m.reply = .none)
include hm hop hturn hreply

theorem saArrive_enters {f : Nat → Bool} (hkind : m.kind = 5) (hf : f (reOp m.data.toNat) = true)
    (hroom : (s.sampler m.idx).queue.length < 16) : saArrive f k s = .next (if s.saCheck m.part m.data.toNat m.n ≠ 0 then
      (s.offMesh k).saFail m.idx m.desc (s.saCheck m.part m.data.toNat m.n)
      else ((s.offMesh k).modSampler m.idx (fun x => { x with queue := x.queue ++ [m.desc] })).touch m.idx) := by
  refine arrive_enters hm ?_ hturn ?_ hreply
  · simp only [hop, hkind, decide_true, Bool.true_and, and_self]
    exact hf
  · exact decide_eq_false (by omega)

theorem reArrive_enters {f : Nat → Bool} (hkind : m.kind = 6) (hf : f (reOp m.data.toNat) = true)
    (hroom : (s.rowQueue m.idx m.part).length < 4) : reArrive f k s = .next (if s.reCheck m.part m.data.toNat m.n ≠ 0 then
      (s.offMesh k).reFail m.idx m.desc (s.reCheck m.part m.data.toNat m.n) noEntry 0
      else (s.offMesh k).setRowQueue m.idx m.part (s.rowQueue m.idx m.part ++ [m.desc])) := by
  refine arrive_enters hm ?_ hturn ?_ hreply
  · simp only [hop, hkind, hf, decide_true, Bool.true_and, and_self]
  · exact decide_eq_false (by omega)

theorem dmArrive_enters {f : Nat → Bool} (hkind : m.kind = 0) (hf : f (reOp m.data.toNat) = true)
    (hroom : (s.dma m.idx).queue.length < 32) : dmArrive f k s = .next (if s.dmCheck m.part m.data.toNat m.n ≠ 0 then
      (s.offMesh k).dmFail m.idx m.desc (s.dmCheck m.part m.data.toNat m.n) noEntry 0
      else ((s.offMesh k).modDma m.idx (fun x => { x with queue := x.queue ++ [m.desc] })).touch m.idx) := by
  refine arrive_enters hm ?_ hturn ?_ hreply
  · simp only [hop, hkind, hf, decide_true, Bool.true_and, and_self]
  · exact decide_eq_false (by omega)

end

/-! ### Queues after an arrival -/

theorem State.sampler_modSampler_same (s : State) (i : Nat) (f : Sampler → Sampler) :
    (s.modSampler i f).sampler i = f (s.sampler i) := by
  simp [State.sampler, State.modSampler, State.modShed]

theorem State.dma_modDma_same (s : State) (i : Nat) (f : Dma → Dma) : (s.modDma i f).dma i = f (s.dma i) := by
  simp [State.dma, State.modDma, State.modShed]

/-- Only the time a shed was last busy changes when it is woken (R32). -/
theorem State.units_touch (s : State) (k : Nat) : (s.touch k).units = s.units := by
  refine s.units_modShed k ?_
  exact fun _ => rfl

theorem State.saFail_frame (s : State) (i : Nat) (d : Desc) (code : Nat) :
    (s.saFail i d code).mem = s.mem ∧ (s.saFail i d code).mesh = s.mesh ∧
      ((s.saFail i d code).log (d.part + 1)).next = (s.log (d.part + 1)).next + 1 ∧
      (s.saFail i d code).sampler i = { s.sampler i with errCode := code, errStall := d.stall } := by
  have h := (s.modSampler i (fun x => { x with errCode := code, errStall := d.stall })).failDesc_reported d code 5 i 0 0
  exact ⟨(State.mem_of_still h.still :), h.mesh, (h.log _).trans (if_pos rfl),
    (State.sampler_of_units h.units i).trans (s.sampler_modSampler_same i _)⟩

/-- A failed descriptor of a row engine or a DMA engine is reported and gives its tag back. -/
theorem State.endDesc_frame (s : State) (d : Desc) (code kind idx entry fcode : Nat) :
    let t := ((s.reStatus d.part code d.stall).failDesc d code kind idx entry fcode).freeDesc d
    t.mem = s.mem ∧ t.mesh = s.mesh ∧ t.units = s.units ∧ (t.log (d.part + 1)).next = (s.log (d.part + 1)).next + 1 ∧
      tagBack s t d := by
  obtain ⟨v, hv⟩ : ∃ v, s.reStatus d.part code d.stall = s.setObj (kReStatus d.part) v := ⟨_, rfl⟩
  rw [hv]
  have h := (s.setObj (kReStatus d.part) v).failDesc_reported d code kind idx entry fcode
  generalize (s.setObj (kReStatus d.part) v).failDesc d code kind idx entry fcode = u at h ⊢
  exact State.freeDesc_reported h d

theorem State.rowQueue_setRowQueue_ne (s : State) (e p : Nat) (q : List Desc) {j : Nat} (h : j ≠ p) :
    (s.setRowQueue e p q).rowQueue e j = s.rowQueue e j := by
  simp [State.rowQueue, State.setRowQueue, State.modEngine, FMap.get_set_ne _ _ _ h]

/-! ### Matrix arrays (R72, R74, R92, R93) -/

theorem mxArrive_full {s : State} {k op : Nat} {m : Mesh} (hm : s.mesh[k]? = some m)
    (hfull : 32 ≤ (s.mxa m.idx).queue.length) (h : (s.mxa m.idx).halted = false ∨ op = 5) :
    mxArrive op k s = .next s := by
  refine arrive_full hm ?_
  rcases h with h | h <;> simp [hfull, h]

section
variable {s : State} {k op : Nat} {m : Mesh} (hm : s.mesh[k]? = some m) (hop : m.op = .mx) (hkind : m.kind = 4)
  (hcmd : mxOp m.data.toNat = op) (hturn : s.leafTurn k m = true) (hreply : m.reply = .none)
include hm hop hkind hcmd hturn hreply

theorem mxArrive_discards (hhalted : (s.mxa m.idx).halted = true) (h : op ≠ 5) : mxArrive op k s = .next (s.offMesh k) := by
  refine (arrive_enters hm ?_ hturn ?_ hreply).trans (congrArg _ (if_pos ⟨hhalted, h⟩))
  · simp [hop, hkind, hcmd]
  · simp [hhalted, h]

theorem mxArrive_enters (h : (s.mxa m.idx).halted = false ∨ op = 5) (hroom : (s.mxa m.idx).queue.length < 32) :
    mxArrive op k s = .next (if s.mxIssueCheck m.part m.data.toNat ≠ 0 then
      (s.offMesh k).mxFail m.idx m.desc (s.mxIssueCheck m.part m.data.toNat) false
      else ((s.offMesh k).modMxa m.idx (fun x => { x with queue := x.queue ++ [m.desc] })).touch m.idx) := by
  have hgo : ¬ ((s.mxa m.idx).halted = true ∧ op ≠ 5) := by
    rintro ⟨h1, h2⟩
    simp [h1, h2] at h
  refine (arrive_enters hm ?_ hturn ?_ hreply).trans (congrArg _ (if_neg hgo))
  · simp [hop, hkind, hcmd]
  · simp [hroom]

end

/-- A command that fails halts an array that is not halted, with its record, and is reported (R93, R94). -/
theorem State.mxFail_frame (s : State) (i : Nat) (d : Desc) (code : Nat) (atStart : Bool) (hrun : (s.mxa i).halted = false) :
    (s.mxFail i d code atStart).mem = s.mem ∧
      ((s.mxFail i d code atStart).log (d.part + 1)).next = (s.log (d.part + 1)).next + 1 ∧
      (s.mxFail i d code atStart).mxa i =
        { s.mxa i with halted := true, errCode := code, errOp := mxOp d.bits.toNat, errStall := d.stall,
                       queue := if atStart then (s.mxa i).queue.filter (fun e => decide (mxOp e.bits.toNat = 5))
                         else (s.mxa i).queue } := by
  unfold State.mxFail
  extract_lets s1
  have h := s1.failDesc_reported d code 4 i 0 0
  refine ⟨(State.mem_of_still h.still :), (h.log _).trans (if_pos rfl), (State.mxa_of_units h.units i).trans ?_⟩
  rw [State.mxa_modMxa_same]
  simp only [hrun, Bool.false_eq_true, if_false]
  rfl

/-- Settles O36: an arrival is held back, queued or failed by the room in its queue and its unit's issue check. -/
theorem arrivals : Obligations.Arrivals := by
  refine ⟨fun s k m hm hop hturn hreply => ?_, fun s k m hm hop hkind hturn hreply => ?_⟩
  · intro d i left logged S R D o
    have hS : ∀ (c : Instr) (ok : Nat → Prop) [DecidablePred ok], exec c s = saArrive (fun o => decide (ok o)) k s →
        S c (ok o) := by
      intro c ok _ hexec hkind hok q
      have henter := saArrive_enters (f := fun o => decide (ok o)) hm hop hturn hreply hkind (decide_eq_true hok)
      rw [hexec]
      refine ⟨fun hfull => arrive_full hm (decide_eq_true hfull), fun hroom hcheck => ?_, fun hroom hcheck => ?_⟩
      · refine ⟨_, (henter hroom).trans (congrArg _ (if_neg (not_not.mpr hcheck))), ⟨rfl, rfl⟩, ?_, rfl, rfl⟩
        exact (State.sampler_of_units (State.units_touch ..) i).trans (State.sampler_modSampler_same ..)
      · obtain ⟨hmem, hmesh, hlog, hunit⟩ := (s.offMesh k).saFail_frame i m.desc (s.saCheck m.part d m.n)
        exact ⟨_, (henter hroom).trans (congrArg _ (if_pos hcheck)), ⟨⟨hmesh, hmem⟩, hlog⟩, (congrArg Sampler.queue hunit :),
          congrArg Sampler.errCode hunit, congrArg Sampler.errStall hunit⟩
    have hR : ∀ (c : Instr) (ok : Nat → Prop) [DecidablePred ok], exec c s = reArrive (fun o => decide (ok o)) k s →
        R c (ok o) := by
      intro c ok _ hexec hkind hok q
      have henter := reArrive_enters (f := fun o => decide (ok o)) hm hop hturn hreply hkind (decide_eq_true hok)
      rw [hexec]
      refine ⟨fun hfull => arrive_full hm (decide_eq_true hfull), fun hroom hcheck => ?_, fun hroom hcheck => ?_⟩
      · refine ⟨_, (henter hroom).trans (congrArg _ (if_neg (not_not.mpr hcheck))), ⟨rfl, rfl⟩,
          State.rowQueue_setRowQueue_same .., fun p hp => ?_, rfl, rfl⟩
        exact (s.offMesh k).rowQueue_setRowQueue_ne i m.part _ hp
      · obtain ⟨hcode, hplain⟩ := s.reCheck_code m.part d m.n
        obtain ⟨hmem, hengines, hstatus, htag⟩ := (s.offMesh k).reFail_frame i m.desc noEntry 0 hcode hplain
        obtain ⟨-, hmesh, -, hlog, -⟩ := (s.offMesh k).endDesc_frame m.desc (s.reCheck m.part d m.n) 6 i noEntry 0
        exact ⟨_, (henter hroom).trans (congrArg _ (if_pos hcheck)), ⟨⟨hmesh, hmem⟩, hlog⟩,
          State.rowQueue_of_engines hengines i m.part, hstatus, htag⟩
    have hD : ∀ (c : Instr) (ok : Nat → Prop) [DecidablePred ok], exec c s = dmArrive (fun o => decide (ok o)) k s →
        D c (ok o) := by
      intro c ok _ hexec hkind hok q
      have henter := dmArrive_enters (f := fun o => decide (ok o)) hm hop hturn hreply hkind (decide_eq_true hok)
      rw [hexec]
      refine ⟨fun hfull => arrive_full hm (decide_eq_true hfull), fun hroom hcheck => ?_, fun hroom hcheck => ?_⟩
      · refine ⟨_, (henter hroom).trans (congrArg _ (if_neg (not_not.mpr hcheck))), ⟨rfl, rfl⟩, ?_, rfl, rfl⟩
        exact (State.dma_of_units (State.units_touch ..) i).trans (State.dma_modDma_same ..)
      · obtain ⟨hmem, hmesh, hunits, hlog, htag⟩ := (s.offMesh k).endDesc_frame m.desc (s.dmCheck m.part d m.n) 0 i noEntry 0
        exact ⟨_, (henter hroom).trans (congrArg _ (if_pos hcheck)), ⟨⟨hmesh, hmem⟩, hlog⟩,
          congrArg Dma.queue (State.dma_of_units hunits i), htag⟩
    exact ⟨hS _ (· ≠ 2) rfl, hS _ (· = 2) rfl, hR _ (fun o => o = 1 ∨ o = 0 ∨ 10 < o) rfl, hR _ (· = 2) rfl, hR _ (· = 3) rfl,
      hR _ (· = 4) rfl, hR _ (· = 5) rfl, hR _ (· = 6) rfl, hR _ (· = 7) rfl, hR _ (· = 8) rfl, hR _ (· = 9) rfl,
      hR _ (· = 10) rfl, hD _ (fun o => o ≠ 2 ∧ o ≠ 3) rfl, hD _ (· = 2) rfl, hD _ (· = 3) rfl⟩
  · intro x c A
    have hA : ∀ (i : Instr) (op : Nat), exec i s = mxArrive op k s → A i op := by
      intro i op hexec hcmd
      rw [hexec]
      refine ⟨mxArrive_full hm, mxArrive_discards hm hop hkind hcmd hturn hreply,
        fun hgo hroom hcheck => ?_, fun hrun hroom hcheck => ?_⟩
      · refine ⟨_, (mxArrive_enters hm hop hkind hcmd hturn hreply hgo hroom).trans (congrArg _ (if_neg (not_not.mpr hcheck))), ?_,
          rfl, rfl, rfl, rfl, fun j hj => ?_⟩
        · exact (State.mxa_touch ..).trans (State.mxa_modMxa_same ..)
        · exact (State.setShed_ne _ _ _ hj).trans (State.setShed_ne _ _ _ hj)
      · obtain ⟨-, hlog, harray⟩ := (s.offMesh k).mxFail_frame m.idx m.desc (s.mxIssueCheck m.part c) false hrun
        exact ⟨_, (mxArrive_enters hm hop hkind hcmd hturn hreply (.inl hrun) hroom).trans (congrArg _ (if_pos hcheck)),
          congrArg Mxa.halted harray, congrArg Mxa.errCode harray, (congrArg Mxa.errOp harray).trans hcmd,
          congrArg Mxa.errStall harray, (congrArg Mxa.queue harray :), hlog⟩
    exact ⟨hA _ _ rfl, hA _ _ rfl, hA _ _ rfl, hA _ _ rfl, hA _ _ rfl⟩

end Sys2Proof.Machine
end

section
/-!
SUPPORT and O35. The completion of a command of a matrix array (R73, R83, R86, R94).
-/

namespace Sys2Proof.Machine

/-! ### Engines and tiles of a matrix array (R67) -/

theorem Mxa.runOf_lt {m : Mxa} {e : Nat} {r : MxRun} (h : m.runOf e = some r) : e < 4 := by
  rcases e with _ | _ | _ | _ | e
  case succ.succ.succ.succ => cases h
  all_goals decide

theorem Mxa.runOf_free (m : Mxa) {e : Nat} (he : e < 4) (f : Nat) : (m.free e).runOf f = if f = e then none else m.runOf f := by
  have hother : 4 ≤ f → ∀ x : Mxa, x.runOf f = none := fun hf x => by
    obtain ⟨g, rfl⟩ := Nat.exists_eq_add_of_le' hf
    rfl
  by_cases hf : f < 4
  · interval_cases e <;> interval_cases f <;> rfl
  · rw [hother (by omega), hother (by omega), ite_self]

/-- What an engine that becomes free leaves of its array. -/
theorem Mxa.free_rest (m : Mxa) (e : Nat) : (∀ b, (m.free e).tile b = m.tile b) ∧ (m.free e).queue = m.queue := by
  unfold Mxa.free
  extract_lets m1
  split <;> exact ⟨fun _ => rfl, rfl⟩

theorem Mxa.setTile_runOf (m : Mxa) (b : Bool) (t : Option Tile) (e : Nat) : (m.setTile b t).runOf e = m.runOf e := by
  cases b <;> rcases e with _ | _ | _ | _ | e <;> rfl

theorem Mxa.tile_setTile (m : Mxa) (b c : Bool) (t : Option Tile) : (m.setTile b t).tile c = if c = b then t else m.tile c := by
  cases b <;> cases c <;> rfl

/-- The sticky bit of a saturation is no engine's. -/
theorem Mxa.runOf_intSat (m : Mxa) (x : Bool) (e : Nat) : ({ m with intSat := x } : Mxa).runOf e = m.runOf e := by
  rcases e with _ | _ | _ | _ | e <;> rfl

/-- The array after its engine `e` completed command `c`: the engine is free, and a drained tile is empty (R83). -/
def Mxa.completed (m : Mxa) (e c : Nat) : Mxa := (if e = 2 then m.setTile (mxTile c) none else m).free e

section
variable (m : Mxa) {e : Nat} (c : Nat)

theorem Mxa.completed_runOf (he : e < 4) (f : Nat) : (m.completed e c).runOf f = if f = e then none else m.runOf f := by
  rw [Mxa.completed, Mxa.runOf_free _ he]
  split
  · rfl
  · split
    · rw [Mxa.setTile_runOf]
    · rfl

theorem Mxa.completed_tile (b : Bool) : (m.completed e c).tile b = if e = 2 ∧ b = mxTile c then none else m.tile b := by
  rw [Mxa.completed, (Mxa.free_rest _ e).1]
  split
  · next he => rw [Mxa.tile_setTile]; simp only [he, true_and]
  · next he => simp only [he, false_and, if_false]

theorem Mxa.completed_queue : (m.completed e c).queue = m.queue := by
  rw [Mxa.completed, (Mxa.free_rest _ e).2]
  split
  · exact congrArg (fun x => x.2.2) (m.setTile_rest (mxTile c) none)
  · rfl

end

/-! ### Completion (R73, R83, R94, R145) -/

/-- The state after a command without a handle push has signalled its completion (R73, R145). -/
def State.signalled (s : State) (c : Nat) : State := if dCmpl c = 1 then s.writeFlag (dIndex c) true else s

theorem State.signal_signalled (s : State) (d : Desc) (handle : Nat) (hcmpl : dCmpl d.bits.toNat < 2) :
    s.signal d handle = .ok (s.signalled d.bits.toNat) := by
  obtain hnone | hflag : dCmpl d.bits.toNat = 0 ∨ dCmpl d.bits.toNat = 1 := by omega
  · simp only [State.signal, State.signalled, hnone, if_neg (show ¬(0 = 1) by decide)]
  · simp only [State.signal, State.signalled, hflag, if_true]

theorem State.signalled_keepsUnits (s : State) (c : Nat) : KeepsUnits s (s.signalled c) := by
  unfold State.signalled
  split
  · exact .writeFlag ..
  · exact .refl s

/-- Signalling changes one flag at most. -/
theorem State.signalled_still (s : State) (c : Nat) : (s.signalled c).still =
    { s.still with flag := fun f => if dCmpl c = 1 ∧ f = dIndex c then true else s.flag f } := by
  unfold State.signalled
  by_cases h : dCmpl c = 1
  · rw [if_pos h, State.still_writeFlag, funext (s.flag_writeFlag (dIndex c) true)]
    simp only [h, true_and]
  · rw [if_neg h]
    simp only [h, false_and, if_false]
    rfl

/-- The sticky bit and the log entry of a drain that saturated (R83, R94). -/
def State.reportSat (s : State) (sh : Nat) (d : Desc) : State :=
  (s.satMxa sh true).logPart d.part 0x0D0E 1 4 sh d.head

theorem State.reportSat_still (s : State) (sh : Nat) (d : Desc) : (s.reportSat sh d).still = s.still := by
  refine (State.still_logPart ..).trans (s.still_modShed sh (f := fun x => { x with mxa := { x.mxa with intSat := true } }) ?_)
  exact fun _ => rfl

theorem State.reportSat_mxa (s : State) (sh : Nat) (d : Desc) : (s.reportSat sh d).mxa sh = { s.mxa sh with intSat := true } := by
  refine (congrFun (congrArg Prod.snd (State.matrixPart_logPart ..)) sh).trans ?_
  exact s.mxa_modMxa_same sh (fun m => { m with intSat := true })

theorem State.reportSat_log (s : State) (sh : Nat) (d : Desc) :
    (s.log (d.part + 1)).next < ((s.reportSat sh d).log (d.part + 1)).next := by
  rw [State.reportSat, State.logPart_log_next, if_pos rfl]
  exact Nat.lt_succ_self _

/-- The state after engine `eng` of shed `sh` has completed its run `r`. -/
def State.mxCompleted (s : State) (sh eng : Nat) (r : MxRun) : State :=
  let u := (s.signalled r.cmd.bits.toNat).modMxa sh (fun m => m.completed eng r.cmd.bits.toNat)
  (if eng = 2 ∧ r.sat = true then u.reportSat sh r.cmd else u).touch sh

theorem exec_streamRowFinal {s : State} {sh : Nat} (hsh : sh < 32) {b : Bool} {x : Tile} (hx : (s.mxa sh).tile b = some x)
    (hlt : x.final < x.rows) : exec (.streamRowFinal sh b) s =
      .next (s.modMxa sh (fun m => m.setTile b (some { x with final := x.final + 1 }))) := by
  show execStreamRowFinal sh b s = _
  unfold execStreamRowFinal
  rw [if_neg (by omega)]
  simp only [hx, hlt, if_true]

section
variable {s : State} {sh eng : Nat} {r : MxRun} (hsh : sh < 32) (hrun : (s.mxa sh).runOf eng = some r)
include hsh hrun

theorem exec_mxComplete_waits (heng : eng = 2) {x : Tile} (hx : (s.mxa sh).tile (mxTile r.cmd.bits.toNat) = some x)
    (hlt : x.final < x.rows) : exec (.mxaCommandComplete sh eng) s = .next s := by
  subst heng
  show execMxaCommandComplete sh 2 s = _
  unfold execMxaCommandComplete
  rw [if_neg (by omega)]
  simp only [hrun, hx, hlt, decide_true, Bool.true_and, if_true]

theorem exec_mxComplete (hwhole : eng = 2 → ∀ x, (s.mxa sh).tile (mxTile r.cmd.bits.toNat) = some x → x.rows ≤ x.final)
    (hcmpl : dCmpl r.cmd.bits.toNat < 2) : exec (.mxaCommandComplete sh eng) s = .next (s.mxCompleted sh eng r) := by
  have hgo : ¬ (decide (eng = 2) && (match (s.mxa sh).tile (mxTile r.cmd.bits.toNat) with
      | some t => decide (t.final < t.rows) | none => false)) = true := by
    rw [Bool.and_eq_true, decide_eq_true_eq]
    rintro ⟨heng, hlt⟩
    split at hlt
    · next x hx => exact absurd (of_decide_eq_true hlt) (Nat.not_lt.mpr (hwhole heng x hx))
    · cases hlt
  show execMxaCommandComplete sh eng s = _
  unfold execMxaCommandComplete
  rw [if_neg (by omega)]
  simp only [hrun]
  refine (if_neg hgo).trans ?_
  simp only [State.signal_signalled _ _ _ hcmpl, decide_eq_true_eq]
  rfl

end

/-- What a completion leaves: one flag at most, one engine and, of a drain, its tile and the report of a saturation. -/
theorem State.mxCompleted_frame (s : State) (sh : Nat) {eng : Nat} (r : MxRun) :
    (s.mxCompleted sh eng r).still = (s.signalled r.cmd.bits.toNat).still ∧
      ∃ sat, (s.mxCompleted sh eng r).mxa sh = { (s.mxa sh).completed eng r.cmd.bits.toNat with intSat := sat } ∧
        (eng = 2 ∧ r.sat = true → sat = true ∧
          (s.log (r.cmd.part + 1)).next < ((s.mxCompleted sh eng r).log (r.cmd.part + 1)).next) := by
  have hkeeps := s.signalled_keepsUnits r.cmd.bits.toNat
  unfold State.mxCompleted
  extract_lets u
  have hu : u.still = (s.signalled r.cmd.bits.toNat).still := by
    refine State.still_modShed _ sh ?_
    exact fun _ => rfl
  have hmxa : u.mxa sh = (s.mxa sh).completed eng r.cmd.bits.toNat := by
    rw [State.mxa_modMxa_same, State.mxa_of_units hkeeps.units]
  have htouch : ∀ v : State, (v.touch sh).still = v.still := fun v => by
    refine v.still_modShed sh ?_
    exact fun _ => rfl
  rw [htouch, State.mxa_touch]
  have hlog : (s.log (r.cmd.part + 1)).next ≤ (u.log (r.cmd.part + 1)).next := hkeeps.logs _
  clear_value u
  by_cases hsat : eng = 2 ∧ r.sat = true
  · rw [if_pos hsat, State.reportSat_still, State.reportSat_mxa, hmxa]
    exact ⟨hu, true, rfl, fun _ => ⟨rfl, lt_of_le_of_lt hlog (u.reportSat_log sh r.cmd)⟩⟩
  · rw [if_neg hsat]
    exact ⟨hu, ((s.mxa sh).completed eng r.cmd.bits.toNat).intSat, hmxa, fun h => absurd h hsat⟩

/-- Settles O35: a completion signals, frees its engine, empties a drained tile and reports a saturation, and nothing else. -/
theorem matrixCompletes : Obligations.MatrixCompletes := by
  intro s sh hsh m
  refine ⟨fun b x hx hlt => ?_, fun eng r hrun => ?_⟩
  · refine ⟨_, exec_streamRowFinal hsh hx hlt, ?_, ?_, State.mem_modMxa ..⟩
    · rw [State.mxa_modMxa_same, Mxa.tile_setTile_same]
    · rw [State.mxa_modMxa_same, Mxa.tile_setTile_other]
  · intro c whole
    refine ⟨fun heng ⟨x, hx, hlt⟩ => exec_mxComplete_waits hsh hrun heng hx hlt, fun hwhole hcmpl => ?_⟩
    obtain ⟨hstill, sat, hmxa, hsat⟩ := s.mxCompleted_frame sh (eng := eng) r
    have hflags := hstill.trans (s.signalled_still c)
    have heng := Mxa.runOf_lt hrun
    have hruns : ∀ f, ((s.mxCompleted sh eng r).mxa sh).runOf f = if f = eng then none else m.runOf f := fun f => by
      rw [hmxa, Mxa.runOf_intSat, Mxa.completed_runOf _ _ heng]
    refine ⟨_, exec_mxComplete hsh hrun hwhole hcmpl, (hruns eng).trans (if_pos rfl), fun f hf => (hruns f).trans (if_neg hf),
      fun b => ?_, ?_, congrArg Still.mem hflags, congrArg Still.stalls hflags, fun f => congrFun (congrArg Still.flag hflags) f,
      fun h => ⟨?_, (hsat h).2⟩⟩
    · rw [hmxa]
      exact Mxa.completed_tile m c b
    · rw [hmxa]
      exact Mxa.completed_queue m c
    · rw [hmxa]
      exact (hsat h).1

end Sys2Proof.Machine
end

section
/-!
SUPPORT and O34. Commands of a matrix array that start: MX.LOADW, MX.RESET, and those that halt it (R75, R85, R86, R92, R93,
R402).
-/

namespace Sys2Proof.Machine

/-! ### Lists cut into rows of one length -/

/-- Element `n` of row `r`, where every row has `len` elements. -/
theorem getElem?_flatMap_rows {α β : Type} {f : α → List β} {len : Nat} {l : List α} (hlen : ∀ a ∈ l, (f a).length = len)
    {r n : Nat} (hr : r < l.length) (hn : n < len) : (l.flatMap f)[r * len + n]? = (f l[r])[n]? := by
  induction l generalizing r with
  | nil => exact absurd hr (Nat.not_lt_zero r)
  | cons a l ih =>
    have ha : (f a).length = len := hlen a (by simp)
    rw [List.flatMap_cons]
    cases r with
    | zero => rw [List.getElem?_append_left (by omega)]; simp
    | succ r =>
      rw [List.getElem?_append_right (by rw [ha, Nat.succ_mul]; omega), ha,
        show (r + 1) * len + n - len = r * len + n by rw [Nat.succ_mul]; omega]
      exact ih (fun b hb => hlen b (by simp [hb])) (Nat.lt_of_succ_lt_succ hr)

theorem rising_iff_isChain (l : List Nat) : rising l = true ↔ l.IsChain (· < ·) := by
  induction l with
  | nil => simp [rising]
  | cons x l ih =>
    cases l with
    | nil => simp [rising]
    | cons y l => simp [rising, ih]

theorem rising_map_range (g : Nat → Nat) (n : Nat) :
    rising ((List.range n).map g) = true ↔ ∀ i, i + 1 < n → g i < g (i + 1) := by
  simp [rising_iff_isChain, List.isChain_iff_getElem]

/-! ### The slot of an MX.LOADW (R75, R71, R402) -/

/-- A reserved format code has no group and no element size (R69, R70). -/
theorem mxaGroup_eq_none_iff {f : Nat} : mxaGroup f = none ↔ mxaBits f = 0 := by
  by_cases hf : f < 12
  · interval_cases f <;> decide
  · obtain ⟨g, rfl⟩ := Nat.exists_eq_add_of_le' (Nat.not_lt.mp hf)
    exact ⟨fun _ => rfl, fun _ => rfl⟩

theorem State.rowElems_length (s : State) (k off f n : Nat) : (s.rowElems k off f n).length = n := by
  simp [State.rowElems]

theorem State.rowElems_getElem? (s : State) (k off f : Nat) {n i : Nat} (hi : i < n) : (s.rowElems k off f n)[i]? =
    some (s.loftNum k off (rowBytes f n) / 2 ^ (i * mxaBits f) % 2 ^ mxaBits f) := by
  simp [State.rowElems, hi, bits, Nat.shiftRight_eq_div_pow]

theorem State.loft_getElem? (s : State) (k off : Nat) {n i : Nat} (hi : i < n) :
    (s.loft k off n)[i]? = some (s.byte (loftKey k (off + i))) := by
  simp [State.loft, State.getBytes, hi, loftKey, Nat.add_assoc]

section
variable (s : State) (k c : Nat)

/-- The indices of the weights run upward, as their list or their base gives them. -/
def State.lwRuns : Prop :=
  if lwIdxv c then ∀ i, i + 1 < lwEntries c → s.loftNum k (lwIdx c + 4 * i) 4 < s.loftNum k (lwIdx c + 4 * (i + 1)) 4
  else lwBase c + lwEntries c ≤ 2 ^ 32

theorem State.loadSlot_reserved (h : mxaBits (mxFmtF c) = 0) : (s.loadSlot k c).1 = 0x0303 := by
  simp [State.loadSlot, mxaGroup_eq_none_iff.mpr h]

/-- MX.LOADW in a format that is not reserved fails for its indices alone. -/
theorem State.loadSlot_code (h : mxaBits (mxFmtF c) ≠ 0) :
    (s.lwRuns k c → (s.loadSlot k c).1 = 0) ∧ (¬ s.lwRuns k c → (s.loadSlot k c).1 = 0x0309) := by
  have hgroup : mxaGroup (mxFmtF c) ≠ none := fun hnone => h (mxaGroup_eq_none_iff.mp hnone)
  have hbad : (if lwIdxv c then !(rising (s.lwIndices k c)) else decide (2 ^ 32 < lwBase c + lwEntries c)) = true ↔
      ¬ s.lwRuns k c := by
    unfold State.lwRuns State.lwIndices
    by_cases hlist : lwIdxv c
    · simp only [hlist, if_true, Bool.not_eq_true', ← rising_map_range, Bool.not_eq_true]
    · simp [hlist]
  unfold State.loadSlot
  extract_lets f idx slot
  rw [if_neg hgroup]
  exact ⟨fun hruns => by rw [if_neg (fun hb => hbad.mp hb hruns)], fun hruns => by rw [if_pos (hbad.mpr hruns)]⟩

/-- The slot that MX.LOADW loads (R75). -/
def State.lwSlot : Slot :=
  { wfmt := mxFmtF c, kRows := lwK c, nCols := lwN c, axis := lwAxis c, idx := s.lwIndices k c,
    w := (List.range (lwK c)).flatMap (fun r => s.rowElems k (lwW c + r * lwPitch c) (mxFmtF c) (lwN c)),
    sc := if mxaIsMx (mxFmtF c) then (s.loft k (lwScale c) (lwK c / 32 * lwN c)).map BitVec.toNat else [] }

theorem State.loadSlot_slot : (s.loadSlot k c).2 = s.lwSlot k c := by
  unfold State.loadSlot
  rw [apply_ite Prod.snd, apply_ite Prod.snd, ite_self, ite_self, State.lwSlot]

theorem State.lwSlot_idx : (s.lwSlot k c).idx =
    (List.range (lwEntries c)).map (fun i => if lwIdxv c then s.loftNum k (lwIdx c + 4 * i) 4 else lwBase c + i) := by
  simp only [State.lwSlot, State.lwIndices]
  split <;> rfl

theorem State.lwSlot_code {r n : Nat} (hr : r < lwK c) (hn : n < lwN c) : (s.lwSlot k c).code r n =
    s.loftNum k (lwW c + r * lwPitch c) (rowBytes (mxFmtF c) (lwN c)) / 2 ^ (n * mxaBits (mxFmtF c)) % 2 ^ mxaBits (mxFmtF c) := by
  have hrow := getElem?_flatMap_rows (f := fun r => s.rowElems k (lwW c + r * lwPitch c) (mxFmtF c) (lwN c))
    (l := List.range (lwK c)) (fun _ _ => s.rowElems_length ..) (by simpa using hr) hn
  rw [List.getElem_range, s.rowElems_getElem? _ _ _ hn] at hrow
  simp only [Slot.code, State.lwSlot, hrow, Option.getD_some]

theorem State.lwSlot_scale (hmx : mxaIsMx (mxFmtF c) = true) {j n : Nat} (hj : j < lwK c / 32) (hn : n < lwN c) :
    (s.lwSlot k c).scale j n = s.loftNum k (lwScale c + j * lwN c + n) 1 := by
  have hin : j * lwN c + n < lwK c / 32 * lwN c := by
    calc j * lwN c + n < (j + 1) * lwN c := by rw [Nat.succ_mul]; omega
      _ ≤ lwK c / 32 * lwN c := Nat.mul_le_mul_right _ hj
  simp only [Slot.scale, State.lwSlot, hmx, if_true, List.getElem?_map, s.loft_getElem? _ _ hin, Option.map_some,
    Option.getD_some, State.loftNum_one, Nat.add_assoc]

end

/-- What MX.LOADW reads of the loft depends on memory alone. -/
theorem State.loadSlot_congr {s s' : State} (h : s'.mem = s.mem) (k c : Nat) : s'.loadSlot k c = s.loadSlot k c := by
  have hidx : s'.lwIndices k c = s.lwIndices k c := by simp only [State.lwIndices, State.loftNum_congr h]
  simp only [State.loadSlot, hidx, State.rowElems_congr h, State.loft_congr h]

/-! ### Starts (R85, R86, R93) -/

/-- When the weight loader is free, and the streamer uses the other slot, MX.LOADW may start (R86). -/
theorem Mxa.mayStart_load (m : Mxa) {c : Nat} (hop : mxOp c = 1) (hload : m.load = none)
    (hslot : ∀ r, m.stream = some r → mxSlot r.cmd.bits.toNat ≠ mxSlot c) : m.mayStart c = true := by
  have huse : usesSlot m.stream (mxSlot c) = false := by
    cases hs : m.stream with
    | none => rfl
    | some r => exact beq_false_of_ne (hslot r hs)
  simp [Mxa.mayStart, hop, hload, huse]

theorem Mxa.mayStart_reset (m : Mxa) {c : Nat} (hop : mxOp c = 5) (hload : m.load = none) (hstream : m.stream = none)
    (hdrain : m.drain = none) (hctrl : m.ctrl = none) : m.mayStart c = true := by
  simp [Mxa.mayStart, hop, hload, hstream, hdrain, hctrl]

theorem Mxa.mayStart_drain (m : Mxa) {c : Nat} (hop : mxOp c = 4) (hdrain : m.drain = none) (htile : m.tile (mxTile c) = none) :
    m.mayStart c = true := by
  simp [Mxa.mayStart, hop, hdrain, htile]

/-- The state in which MX.LOADW has filled its slot and runs. -/
def State.loadStarted (s : State) (sh : Nat) (d : Desc) (rest : List Desc) : State :=
  ((s.popCommand sh rest).modMxa sh (fun m => m.setSlot (mxSlot d.bits.toNat) (some (s.lwSlot sh d.bits.toNat)))).modMxa sh
    (fun m => m.begin d (lwK d.bits.toNat * lwPitch d.bits.toNat) false)

/-- The state in which MX.RESET has cleared its array and runs. -/
def State.resetStarted (s : State) (sh : Nat) (d : Desc) (rest : List Desc) : State :=
  ((s.popCommand sh rest).modMxa sh Mxa.resetAll).modMxa sh (fun m => m.begin d 0 false)

/-- What the start of a command answers, but for the streams and drains that run. -/
theorem exec_start {s : State} {sh : Nat} {d : Desc} {rest : List Desc} (hsh : sh < 32) (hq : (s.mxa sh).queue = d :: rest)
    (hawake : (s.shed sh).asleep = false) (hheld : (s.mxa sh).held = [])
    (hstart : (s.mxa sh).mayStart d.bits.toNat = true) :
    (mxOp d.bits.toNat = 1 → (s.loadSlot sh d.bits.toNat).1 = 0 →
      exec (.mxaCommandStart sh) s = .next (s.loadStarted sh d rest)) ∧
    (mxOp d.bits.toNat = 1 → (s.loadSlot sh d.bits.toNat).1 ≠ 0 →
      exec (.mxaCommandStart sh) s = .next ((s.popCommand sh rest).mxFail sh d (s.loadSlot sh d.bits.toNat).1 true)) ∧
    (mxOp d.bits.toNat = 2 ∨ mxOp d.bits.toNat = 3 → (s.streamCheck sh d.bits.toNat).1 ≠ 0 →
      exec (.mxaCommandStart sh) s = .next ((s.popCommand sh rest).mxFail sh d (s.streamCheck sh d.bits.toNat).1 true)) ∧
    (mxOp d.bits.toNat = 4 → (s.mxa sh).tile (mxTile d.bits.toNat) = none →
      exec (.mxaCommandStart sh) s = .next ((s.popCommand sh rest).mxFail sh d 0x030B true)) ∧
    (mxOp d.bits.toNat = 5 → exec (.mxaCommandStart sh) s = .next (s.resetStarted sh d rest)) := by
  have hgo : ¬ ((s.shed sh).asleep = true ∨ (s.mxa sh).held ≠ [] ∨ (s.mxa sh).mayStart d.bits.toNat = false) := by
    simp [hawake, hheld, hstart]
  have hload : (s.popCommand sh rest).loadSlot sh d.bits.toNat = s.loadSlot sh d.bits.toNat :=
    State.loadSlot_congr (s.mem_popCommand sh rest) ..
  have hcheck : (s.popCommand sh rest).streamCheck sh d.bits.toNat = s.streamCheck sh d.bits.toNat := by
    refine State.streamCheck_congr (s.mem_popCommand sh rest) _ _ ?_ ?_
    · rw [s.mxa_popCommand_same sh rest, Mxa.slot_queue]
    · rw [s.mxa_popCommand_same sh rest, Mxa.tile_queue]
  have hexec : exec (.mxaCommandStart sh) s = execMxaCommandStart sh s := rfl
  unfold execMxaCommandStart at hexec
  rw [if_neg (by omega)] at hexec
  simp only [hq] at hexec
  rw [if_neg hgo] at hexec
  rw [hexec]
  unfold State.popCommand at hload hcheck
  refine ⟨fun hop hcode => ?_, fun hop hcode => ?_, fun hop hcode => ?_, fun hop htile => ?_, fun hop => ?_⟩
  · simp only [hop, hload]
    rw [if_neg (not_not.mpr hcode), State.loadSlot_slot]
    rfl
  · simp only [hop, hload]
    exact if_pos hcode
  · rcases hop with hop | hop
    all_goals
      simp only [hop, hcheck]
      split
      · next h => exact absurd (congrArg Prod.fst h) hcode
      · next h => rw [h]; rfl
  · simp only [hop, htile]
    rfl
  · simp only [hop]
    rfl

/-! ### What a start leaves (R75, R85, R93) -/

theorem State.loadStarted_mem (s : State) (sh : Nat) (d : Desc) (rest : List Desc) : (s.loadStarted sh d rest).mem = s.mem := by
  rw [State.loadStarted, State.mem_modMxa, State.mem_modMxa, State.mem_popCommand]

theorem State.resetStarted_mem (s : State) (sh : Nat) (d : Desc) (rest : List Desc) : (s.resetStarted sh d rest).mem = s.mem := by
  rw [State.resetStarted, State.mem_modMxa, State.mem_modMxa, State.mem_popCommand]

theorem Mxa.slot_setSlot (m : Mxa) (b c : Bool) (x : Option Slot) : (m.setSlot b x).slot c = if c = b then x else m.slot c := by
  cases b <;> cases c <;> rfl

theorem Mxa.setSlot_queue (m : Mxa) (b : Bool) (x : Option Slot) : (m.setSlot b x).queue = m.queue := by cases b <;> rfl

theorem Mxa.begin_load (m : Mxa) {d : Desc} (size : Nat) (sat : Bool) (hop : mxOp d.bits.toNat = 1) :
    m.begin d size sat = { m with load := some { cmd := d, size := size, sat := sat } } := by
  simp only [Mxa.begin, hop]

theorem Mxa.begin_ctrl (m : Mxa) {d : Desc} (size : Nat) (sat : Bool) (hop : mxOp d.bits.toNat = 5) :
    m.begin d size sat = { m with ctrl := some { cmd := d, size := size, sat := sat } } := by
  simp only [Mxa.begin, hop]

theorem State.loadStarted_mxa (s : State) (sh : Nat) {d : Desc} (rest : List Desc) (hop : mxOp d.bits.toNat = 1) :
    (s.loadStarted sh d rest).mxa sh =
      { ({ s.mxa sh with queue := rest } : Mxa).setSlot (mxSlot d.bits.toNat) (some (s.lwSlot sh d.bits.toNat)) with
        load := some { cmd := d, size := lwK d.bits.toNat * lwPitch d.bits.toNat, sat := false } } := by
  rw [State.loadStarted, State.mxa_modMxa_same, State.mxa_modMxa_same, State.mxa_popCommand_same, Mxa.begin_load _ _ _ hop]

theorem State.loadStarted_shed_ne (s : State) (sh : Nat) (d : Desc) (rest : List Desc) {j : Nat} (h : j ≠ sh) :
    (s.loadStarted sh d rest).shed j = s.shed j := by
  simp only [State.loadStarted, State.popCommand, State.touch, State.modMxa, State.modShed, State.setShed_ne _ _ _ h]

theorem State.resetStarted_mxa (s : State) (sh : Nat) {d : Desc} (rest : List Desc) (hop : mxOp d.bits.toNat = 5) :
    (s.resetStarted sh d rest).mxa sh =
      { ({ s.mxa sh with queue := rest } : Mxa).resetAll with ctrl := some { cmd := d, size := 0, sat := false } } := by
  rw [State.resetStarted, State.mxa_modMxa_same, State.mxa_modMxa_same, State.mxa_popCommand_same, Mxa.begin_ctrl _ _ _ hop]

/-- Settles O34: a start is its start checks, and then the loaded slot, the cleared array or the halt with its code. -/
theorem matrixStarts : Obligations.MatrixStarts := by
  intro s sh d rest hsh hq hawake hheld m c f halts listed runs
  have hstarts := fun hmay => exec_start hsh hq hawake hheld hmay
  -- every halt is the failure of the head of the queue
  have hhalts : ∀ code, exec (.mxaCommandStart sh) s = .next ((s.popCommand sh rest).mxFail sh d code true) → halts code := by
    intro code hexec hrun
    have hpop := s.mxa_popCommand_same sh rest
    obtain ⟨hmem, -, harray⟩ := (s.popCommand sh rest).mxFail_frame sh d code true (by rw [hpop]; exact hrun)
    rw [hpop] at harray
    refine ⟨_, hexec, ?_, ?_, ?_, ?_, ?_, fun b => ?_, hmem⟩
    all_goals rw [harray]
    · rfl
    · exact ⟨rfl, rfl⟩
  refine ⟨fun hop hidle hslot => ?_, fun hop hmay hcode => ?_, fun hop hl hs hd hc => ?_, fun hop hidle htile => ?_⟩
  · have hmay : m.mayStart c = true := m.mayStart_load hop hidle hslot
    obtain ⟨hload, hfail, -⟩ := hstarts hmay
    refine ⟨fun hbits hidx => ?_, fun hbits => ?_, fun hbits hidx => ?_⟩
    · have harray := s.loadStarted_mxa sh rest hop
      refine ⟨_, hload hop ((s.loadSlot_code sh c hbits).1 hidx), s.lwSlot sh c, ?_, ?_, rfl, rfl, rfl, rfl,
        s.lwSlot_idx sh c, fun r n hr hn => s.lwSlot_code sh c hr hn, fun hmx j n hj hn => s.lwSlot_scale sh c hmx hj hn, ?_, ?_,
        s.loadStarted_mem sh d rest, fun j hj => s.loadStarted_shed_ne sh d rest hj⟩
      all_goals rw [harray]
      · exact (Mxa.slot_setSlot ..).trans (if_pos rfl)
      · exact (Mxa.slot_setSlot ..).trans (if_neg (Bool.not_ne_self _))
      · exact Mxa.setSlot_queue ..
      · exact ⟨_, rfl, rfl⟩
    · have hcode := s.loadSlot_reserved sh c hbits
      exact hhalts _ (hcode ▸ hfail hop (by rw [hcode]; decide))
    · have hcode := (s.loadSlot_code sh c hbits).2 hidx
      exact hhalts _ (hcode ▸ hfail hop (by rw [hcode]; decide))
  · obtain ⟨-, -, hfail, -⟩ := hstarts hmay
    exact hhalts _ (hfail hop hcode)
  · obtain ⟨-, -, -, -, hreset⟩ := hstarts (m.mayStart_reset hop hl hs hd hc)
    have harray := s.resetStarted_mxa sh rest hop
    refine ⟨_, hreset hop, ?_, ?_, ?_, ?_, ?_, ?_, ?_, ?_, s.resetStarted_mem sh d rest⟩
    all_goals rw [harray]
    case refine_8 => exact ⟨_, rfl, rfl⟩
    all_goals rfl
  · obtain ⟨-, -, -, hfail, -⟩ := hstarts (m.mayStart_drain hop hidle htile)
    exact hhalts _ (hfail hop htile)

end Sys2Proof.Machine
end

section
/-!
SUPPORT, O5, O14 and O15. The scalar immediate forms, the predicate instructions, and branches and jumps (R104-R107, R111).
-/

namespace Sys2Proof.Machine

/-! ### Immediate forms (R104, R105, R107) -/

section
variable {s : State} {t p : Nat} {a : BitVec 5} (h : s.canRun t p [a.toNat]) (d : BitVec 5) {imm : BitVec 15}
  {g : BitVec 64 → BitVec 64 → GRes} {r : BitVec 64} {f : BitVec 4}
include h

/-- gd and status of an immediate form that can run. -/
theorem execGI_run (hg : g ((s.stall t).getG a) (imm64 imm) = (r, f)) :
    Alters s t (execGI t d a imm g s) fun y => GWrite (s.stall t) y d r f := by
  have hrun := execG_run d (fun x => g (x.getG a) (imm64 imm)) h
  rwa [hg] at hrun

/-- A shift by IMM[5:0] is the immediate form where IMM[14:6] is zero (R105). -/
theorem execShiftI_run (hi : imm.toNat < 64) (hg : g ((s.stall t).getG a) (imm64 imm) = (r, f)) :
    Alters s t (execShiftI t d a imm g s) fun y => GWrite (s.stall t) y d r f := by
  rw [execShiftI, if_pos hi]
  exact execGI_run h d hg

/-- A shift amount of 64 or more is an invalid encoding (R105). -/
theorem execShiftI_illegal (hi : 64 ≤ imm.toNat) :
    execShiftI t d a imm g s = .next (s.stallFault p t 0x0401 (s.stall t).pc.toNat 0) := by
  have hnone : s.canRun t p [] := h.mono (by simp)
  rw [execShiftI, if_neg (Nat.not_lt.mpr hi), issue_run hnone, illegal]

end

/-- A shift amount below 64 is not changed by the sign extension nor by the reduction modulo 64. -/
theorem imm64_mod (imm : BitVec 15) (hi : imm.toNat < 64) : (imm64 imm).toNat % 64 = imm.toNat := by
  have hmsb : imm.msb = false := by rw [BitVec.msb_eq_decide]; simp; omega
  rw [imm64, BitVec.signExtend_eq_setWidth_of_msb_false hmsb, BitVec.toNat_setWidth]
  omega

/-- Settles O5: the register forms' results on the sign-extended immediate. -/
theorem scalarImmediates : Obligations.ScalarImmediates := by
  intro s st p d a imm off h x u v ov W
  have hu : u.setWidth 64 = u := BitVec.setWidth_eq u
  have hv : v.setWidth 64 = v := BitVec.setWidth_eq v
  have wide {g : BitVec 64 → BitVec 64 → GRes} {r : BitVec 64} {f} (hg : g u v = (r.signExtend 64, f)) :=
    execGI_run h d (imm := imm) (hg.trans (by rw [BitVec.signExtend_eq]))
  refine ⟨wide (aluAdd_eq hu hv), execGI_run h d (aluAdd_eq rfl rfl), execGI_run h d rfl, execGI_run h d rfl,
    execGI_run h d rfl, execGI_run h d (aluSlt_eq u v), execG_run d (fun _ => (off.signExtend 64 <<< 12, 0)) (rs := []) (h.mono (by simp)), fun hi => ?_, fun hi c hc => ?_⟩
  · have shift {g : BitVec 64 → BitVec 64 → GRes} {r : BitVec 64} {f} (hg : g u v = (r.signExtend 64, f)) :=
      execShiftI_run h d hi (hg.trans (by rw [BitVec.signExtend_eq]))
    have hn : v.toNat % 64 = imm.toNat := imm64_mod imm hi
    refine ⟨shift ?_, shift ?_, shift ?_⟩
    · exact hn ▸ aluShl_eq hu
    · exact hn ▸ aluShr_eq hu
    · exact hn ▸ aluSra_eq hu
  · simp only [List.mem_cons, List.not_mem_nil, or_false] at hc
    rcases hc with rfl | rfl | rfl <;> exact execShiftI_illegal h d hi

/-! ### Predicate instructions (R111) -/

/-- A predicate instruction of valid fields that can run writes pd alone. -/
theorem execP_run {s : State} {t p : Nat} {rs : List Nat} {d : BitVec 5} {ok : Bool} (h : s.canRun t p rs) (hok : ok = true)
    (f : Stall → BitVec 128) :
    Alters s t (execP ok t d rs f s) fun y => PWrite (s.stall t) y d.toNat (f (s.stall t)) := by
  subst hok
  exact ⟨_, issue_run h _, Stall.setP_pwrite _ _ _⟩

/-- Every byte bit of an element below the count is set, and no other (R111). -/
theorem countPred_getLsbD (w g : Nat) {j : Nat} (hj : j < 128) :
    (countPred w g).getLsbD j = decide (j / (w / 8) < g) := by
  have hmap : (List.range 128).map (fun j => b2n (decide (j / (w / 8) < g))) =
      ((List.range 128).map (fun j => decide (j / (w / 8) < g))).map b2n := by rw [List.map_map]; rfl
  rw [countPred, hmap, BitVec.getLsbD_ofNat, packNat_b2n_testBit _ (by simpa using hj)]
  simp [hj]

theorem predOk_of_forall {rs : List (BitVec 5)} (h : ∀ r ∈ rs, r.toNat < 8) : predOk rs = true := by
  simpa [predOk] using h

/-- Settles O14: each form is its bitwise result, and PCNT the count, under the frame of a predicate write. -/
theorem predicates : Obligations.Predicates := by
  intro s st p d a b et h hd ha hb het x W
  have hnone : s.canRun st p [] := h.mono (by simp)
  have three : predOk [d, a, b] = true := predOk_of_forall (by simp [hd, ha, hb])
  have two : predOk [d, a] = true := predOk_of_forall (by simp [hd, ha])
  have one : (predOk [d] && etOk .any et.toNat) = true := by
    rw [predOk_of_forall (by simp [hd]), Bool.true_and]
    exact decide_eq_true het
  refine ⟨execP_run hnone three (fun x => x.getP a.toNat &&& x.getP b.toNat),
    execP_run hnone three (fun x => x.getP a.toNat ||| x.getP b.toNat),
    execP_run hnone three (fun x => x.getP a.toNat ^^^ x.getP b.toNat),
    execP_run hnone two (fun x => ~~~(x.getP a.toNat)), ?_⟩
  obtain ⟨y, hy, hw⟩ := execP_run (d := d) h one (fun x => countPred (etWidth et.toNat) (x.getG a).toNat)
  exact ⟨y, hy, _, hw, fun j hj => countPred_getLsbD _ _ hj⟩

/-! ### Branches and jumps (R104, R106) -/

theorem target15_eq (pc : BitVec 32) (off : BitVec 15) : target15 pc off = pc + off.signExtend 32 * 4 := by
  rw [target15, BitVec.shiftLeft_eq_mul_twoPow]
  rfl

theorem target20_eq (pc : BitVec 32) (off : BitVec 20) : target20 pc off = pc + off.signExtend 32 * 4 := by
  rw [target20, BitVec.shiftLeft_eq_mul_twoPow]
  rfl

/-- A branch that can run goes to its target where the comparison holds, and on where it does not. -/
theorem execBranch_run {s : State} {t p : Nat} {a b : BitVec 5} (h : s.canRun t p [a.toNat, b.toNat]) (off : BitVec 15)
    {c : BitVec 64 → BitVec 64 → Bool} {taken : Bool} (hc : c ((s.stall t).getG a) ((s.stall t).getG b) = taken) :
    execBranch t a b off c s = .next (s.setStall t { s.stall t with
      pc := if taken then (s.stall t).pc + off.signExtend 32 * 4 else (s.stall t).pc + 4 }) := by
  rw [execBranch, issue_run h, hc, target15_eq]
  cases taken <;> rfl

/-- The frame of a jump that links: gd takes the address after it, pc is given apart. -/
theorem Stall.getG_link (x : Stall) (d i : BitVec 5) (pc : BitVec 32) :
    Stall.getG { x.setG d (linkOf x) with pc := pc } i = if i = 31 then 0 else if i = d then (x.pc + 4).setWidth 64 else x.getG i :=
  x.getG_setG d i (linkOf x)

theorem Stall.setG_frame (x : Stall) (d : BitVec 5) (v : BitVec 64) : (x.setG d v).v = x.v ∧ (x.setG d v).p = x.p ∧
    (x.setG d v).astat = x.astat ∧ (x.setG d v).mode = x.mode ∧ (x.setG d v).pc = x.pc := by
  by_cases hd : d.toNat = 31 <;> simp [Stall.setG, Stall.putG, hd, Stall.supersede, Stall.supersedeAt]

/-- Clearing bits [1:0] rounds a word down to a multiple of 4. -/
theorem toNat_and_clear2 (v : BitVec 32) : (v &&& 0xFFFFFFFC).toNat = v.toNat / 4 * 4 := by
  have hmask : ∀ i, (hi : i < 32) → (0xFFFFFFFC : BitVec 32)[i] = decide (2 ≤ i) := by decide
  have hclear : v &&& (0xFFFFFFFC : BitVec 32) = v >>> 2 <<< 2 := by
    ext i hi
    rw [BitVec.getElem_and, hmask i hi]
    by_cases hlow : i < 2
    · simp [hlow]
    · simp [hlow, Nat.le_of_not_lt hlow, show 2 + (i - 2) = i by omega, BitVec.getLsbD_eq_getElem hi]
  have hv := v.isLt
  rw [hclear, BitVec.toNat_shiftLeft, BitVec.toNat_ushiftRight, Nat.shiftRight_eq_div_pow, Nat.shiftLeft_eq]
  omega

/-- Settles O15: every branch by its comparison, and the link of JAL and JALR. -/
theorem branchesAndJumps : Obligations.BranchesAndJumps := by
  intro s st p d a b imm off far h x u v B J
  have ha : s.canRun st p [a.toNat] := h.mono (by simp)
  have hnone : s.canRun st p [] := h.mono (by simp)
  have branch {k : Instr} {c : BitVec 64 → BitVec 64 → Bool} {taken : Bool} (hk : exec k s = execBranch st a b off c s)
      (hc : c u v = taken) : B k taken := hk.trans (execBranch_run h off hc)
  have link {k : Instr} {pc tgt : BitVec 32} (hk : exec k s = .next (s.setStall st { x.setG d (linkOf x) with pc := pc }))
      (hpc : pc = tgt) : J k tgt := by
    subst hpc
    obtain ⟨hv, hp, hastat, hmode, -⟩ := x.setG_frame d (linkOf x)
    exact ⟨_, hk, rfl, hv, hp, hastat, hmode, fun i => x.getG_link d i pc⟩
  have hjal : execJal st d far s = .next (s.setStall st { x.setG d (linkOf x) with pc := target20 x.pc far }) :=
    issue_run hnone fun _ x => .next (s.setStall st { x.setG d (linkOf x) with pc := target20 x.pc far })
  have hjalr : execJalr st d a imm s =
      .next (s.setStall st { x.setG d (linkOf x) with pc := (u + imm64 imm).setWidth 32 &&& 0xFFFFFFFC }) :=
    issue_run ha fun _ x => .next (s.setStall st
      { x.setG d (linkOf x) with pc := (x.getG a + imm64 imm).setWidth 32 &&& 0xFFFFFFFC })
  refine ⟨branch (c := fun u v => decide (u = v)) rfl (beq_eq_decide u v).symm,
    branch (c := fun u v => decide (u ≠ v)) rfl ?bne, branch rfl rfl,
    branch (c := fun u v => decide (v.toInt ≤ u.toInt)) rfl ?bge, branch rfl rfl,
    branch (c := fun u v => decide (v.toNat ≤ u.toNat)) rfl ?bgeu, link hjal (target20_eq x.pc far), _, link hjalr rfl, ?aligned, ?target⟩
  case bne => rw [bne, beq_eq_decide]; exact decide_not
  case bge => exact (decide_eq_decide.mpr not_lt.symm).trans decide_not
  case bgeu => exact (decide_eq_decide.mpr not_lt.symm).trans decide_not
  case aligned => rw [toNat_and_clear2]; omega
  case target =>
    rw [toNat_and_clear2, BitVec.toNat_setWidth, Nat.mul_div_cancel _ (by decide)]
    rfl

end Sys2Proof.Machine
end

section
/-!
SUPPORT, O16 and O17. What a stall fault leaves (R131, R132), and the special registers (R100-R102).
-/

namespace Sys2Proof.Machine

/-! ### Stall faults (R131, R132) -/

/-- From `s` to `t` stall `st` of partition `p` stopped on a fault: memory and the other stalls are unchanged, the fault is
counted, and STALL_FAULT takes the record only when it holds none (R132). -/
structure Stopped (s : State) (p st code pc ad : Nat) (t : State) : Prop where
  stall  : t.stall st = { s.stall st with mode := .faulted, pc := BitVec.ofNat 32 pc }
  others : ∀ u, u ≠ st → t.stall u = s.stall u
  mem    : t.mem = s.mem
  count  : t.obj (kStallFaultCount p) = sat32 (s.obj (kStallFaultCount p)) 1
  record : bit (s.obj (kStallFault p)) 31 = false →
    t.obj (kStallFault p) = stallFaultWord code st pc ad (s.stepOf p) s.time
  held   : bit (s.obj (kStallFault p)) 31 = true → t.obj (kStallFault p) = s.obj (kStallFault p)

theorem kStallFault_ne_count (p : Nat) : kStallFault p ≠ kStallFaultCount p := by
  simp only [kStallFault, kStallFaultCount, pkey, objKey]
  omega

theorem kStep_ne_kStallFaultCount (p : Nat) : kStep p ≠ kStallFaultCount p := by
  simp only [kStep, kStallFaultCount, pkey, tkey, objKey]
  omega

/-- What a stall fault leaves but for events and logs: the stall, its count and its record. -/
theorem State.still_stallFault (s : State) (p st code pc ad : Nat) :
    (s.stallFault p st code pc ad).still =
      (if bit (s.obj (kStallFault p)) 31 then
        (s.modStall st fun x => { x with mode := .faulted, pc := BitVec.ofNat 32 pc }).bumpObj (kStallFaultCount p) 1
       else ((s.modStall st fun x => { x with mode := .faulted, pc := BitVec.ofNat 32 pc }).bumpObj (kStallFaultCount p) 1).setObj
        (kStallFault p) (stallFaultWord code st pc ad (s.stepOf p) s.time)).still := by
  have hrecord : ((s.modStall st fun x => { x with mode := .faulted, pc := BitVec.ofNat 32 pc }).bumpObj
      (kStallFaultCount p) 1).obj (kStallFault p) = s.obj (kStallFault p) := by
    simp [kStallFault_ne_count, State.modStall]
  have hstep : ((s.modStall st fun x => { x with mode := .faulted, pc := BitVec.ofNat 32 pc }).bumpObj
      (kStallFaultCount p) 1).stepOf p = s.stepOf p := by
    simp [State.stepOf, kStep_ne_kStallFaultCount, State.modStall]
  rw [State.stallFault, State.still_pushError, State.still_logPart, hrecord, hstep]
  rfl

theorem State.stallFault_stopped (s : State) (p st code pc ad : Nat) :
    Stopped s p st code pc ad (s.stallFault p st code pc ad) := by
  have hstill := s.still_stallFault p st code pc ad
  have hne := kStallFault_ne_count p
  by_cases hheld : bit (s.obj (kStallFault p)) 31
  · rw [if_pos hheld] at hstill
    exact
      { stall := by rw [State.stall_of_still hstill, State.bumpObj, State.setObj_stall, State.modStall, State.setStall_same]
        others := fun u hu => by
          rw [State.stall_of_still hstill, State.bumpObj, State.setObj_stall, State.modStall, State.setStall_ne _ _ _ hu]
        mem := by rw [State.mem_of_still hstill, State.bumpObj, State.setObj_mem, State.modStall, State.setStall_mem]
        count := by rw [State.obj_of_still hstill, State.obj_bumpObj, if_pos rfl, State.modStall, State.setStall_obj]
        record := fun h => absurd hheld (by simp [h])
        held := fun _ => by rw [State.obj_of_still hstill, State.obj_bumpObj, if_neg hne, State.modStall, State.setStall_obj] }
  · rw [if_neg hheld] at hstill
    exact
      { stall := by rw [State.stall_of_still hstill, State.setObj_stall, State.bumpObj, State.setObj_stall, State.modStall, State.setStall_same]
        others := fun u hu => by
          rw [State.stall_of_still hstill, State.setObj_stall, State.bumpObj, State.setObj_stall, State.modStall, State.setStall_ne _ _ _ hu]
        mem := by rw [State.mem_of_still hstill, State.setObj_mem, State.bumpObj, State.setObj_mem, State.modStall, State.setStall_mem]
        count := by rw [State.obj_of_still hstill, State.setObj_obj, if_neg hne.symm, State.obj_bumpObj, if_pos rfl, State.modStall, State.setStall_obj]
        record := fun _ => by rw [State.obj_of_still hstill, State.setObj_obj, if_pos rfl]
        held := fun h => absurd h hheld }

/-- Settles O17: each of the two commands is one stall fault at pc. -/
theorem stallFaults : Obligations.StallFaults := by
  intro s st p w hst howner hruns hmode x F
  have hpc : BitVec.ofNat 32 x.pc.toNat = x.pc := by simp
  have hfault {o : Out1} {code : Nat} (ho : o = .next (s.stallFault p st code x.pc.toNat 0)) : F o code := by
    have h := s.stallFault_stopped p st code x.pc.toNat 0
    exact ⟨_, ho, by rw [h.stall, hpc], h.mem, h.others, by rw [h.count, sat32, Nat.min_comm], h.record, h.held⟩
  refine ⟨fun hlt hnone => hfault ?_, fun hle => hfault ?_⟩
  · have hrunner : s.runner st = some p := by
      simp only [State.runner, howner]
      exact if_pos ⟨hruns, hmode, hlt⟩
    have hrun : s.canRun st p [] := ⟨hst, hrunner, rfl⟩
    change execInvalidEncoding st w s = _
    rw [execInvalidEncoding, hnone]
    exact issue_run hrun _
  · change execFetchOutsideLocalMemory st s = _
    simp only [execFetchOutsideLocalMemory, if_neg (Nat.not_le.mpr hst), howner]
    exact if_pos ⟨hruns, hmode, hle⟩

/-! ### Special registers (R100-R102) -/

theorem b2n_mul (b : Bool) (n : Nat) : b2n b * n = if b then n else 0 := by cases b <;> simp [b2n]

/-- CYCLE reads with its WRAP (R100, R388). -/
theorem State.special_cycle (s : State) (p t : Nat) : s.special p t 0x02 = some (BitVec.ofNat 64 (s.cycles p t % 2 ^ 48 +
    if (s.stall t).wrap || decide ((s.stall t).wraps < s.cycles p t / 2 ^ 48) then 2 ^ 63 else 0)) := by
  rw [State.special, if_neg (by decide), if_neg (by decide), if_pos rfl]
  simp only [b2n_mul]

theorem State.special_reserved (s : State) (p t : Nat) {n : Nat} (hn : n ∉ [0, 1, 2, 3, 4, 5, 8, 9, 10]) :
    s.special p t n = none := by
  simp only [List.mem_cons, List.not_mem_nil, or_false, not_or] at hn
  obtain ⟨h0, h1, h2, h3, h4, h5, h8, h9, h10⟩ := hn
  rw [State.special, if_neg h0, if_neg h1, if_neg h2, if_neg h3, if_neg h4, if_neg h5, if_neg h8, if_neg h9, if_neg h10]

/-- SRD of a register that is not reserved writes gd. -/
theorem execSrd_run {s : State} {t p : Nat} {rs : List Nat} (h : s.canRun t p rs) (d : BitVec 5) {idx : BitVec 8} {v : BitVec 64}
    (hv : s.special p t idx.toNat = some v) :
    Alters s t (execSrd t d idx s) fun y => GWrite (s.stall t) y d v 0 := by
  have hnone : s.canRun t p [] := h.mono (by simp)
  have hframe : ((s.stall t).setG d v).advance = (s.stall t).doG d (v, 0) := by
    simp [Stall.doG, Stall.flag, Stall.advance]
  refine ⟨(s.stall t).doG d (v, 0), ?_, Stall.doG_gwrite _ _ _⟩
  rw [execSrd, issue_run hnone, hv, ← hframe]

theorem execSrd_illegal {s : State} {t p : Nat} {rs : List Nat} (h : s.canRun t p rs) (d : BitVec 5) {idx : BitVec 8}
    (hv : s.special p t idx.toNat = none) :
    execSrd t d idx s = .next (s.stallFault p t 0x0401 (s.stall t).pc.toNat 0) := by
  have hnone : s.canRun t p [] := h.mono (by simp)
  rw [execSrd, issue_run hnone, hv, illegal]

/-- SWR of a register that takes writes. -/
theorem execSwr_run {s : State} {t p : Nat} {a : BitVec 5} (h : s.canRun t p [a.toNat]) {idx : BitVec 8} {y : Stall}
    (hy : (if idx.toNat = 0x02 then (s.stall t).takeWraps (s.cycles p t) else s.stall t).swr idx.toNat ((s.stall t).getG a) = some y) :
    execSwr t a idx s = .next (s.setStall t { y with pc := y.pc + 4 }) := by
  rw [execSwr, issue_run h, hy]
  rfl

/-- SWR of CYCLE clears the WRAP that SRD shows (R101, R388). -/
theorem Stall.takeWraps_eq (x : Stall) (c : Nat) : x.takeWraps c =
    { x with wrap := x.wrap || decide (x.wraps < c / 2 ^ 48), wraps := max x.wraps (c / 2 ^ 48) } := by
  rw [Stall.takeWraps]
  generalize c / 2 ^ 48 = n
  by_cases h : x.wraps < n
  · simp [h, Nat.max_eq_right h.le]
  · simp [h, Nat.max_eq_left (Nat.le_of_not_lt h)]

theorem Stall.swr_cycle (x : Stall) (v : BitVec 64) : x.swr 0x02 v = some { x with wrap := x.wrap && !v.msb } := by
  rw [Stall.swr, if_neg (by decide), if_pos rfl, BitVec.msb_eq_getLsbD_last]

theorem Stall.swr_readOnly (x : Stall) (v : BitVec 64) {n : Nat} (hn : n ∉ [0, 2, 8, 9, 10]) : x.swr n v = none := by
  simp only [List.mem_cons, List.not_mem_nil, or_false, not_or] at hn
  obtain ⟨h0, h2, h8, h9, h10⟩ := hn
  rw [Stall.swr, if_neg h0, if_neg h2, if_neg h8, if_neg h9, if_neg h10]

/-- SWR of a read-only or reserved index is an invalid encoding (R101, R131). -/
theorem execSwr_illegal {s : State} {t p : Nat} {a : BitVec 5} (h : s.canRun t p [a.toNat]) {idx : BitVec 8}
    (hn : idx.toNat ∉ [0, 2, 8, 9, 10]) :
    execSwr t a idx s = .next (s.stallFault p t 0x0401 (s.stall t).pc.toNat 0) := by
  rw [execSwr, issue_run h, Stall.swr_readOnly _ _ hn, illegal]

/-- Settles O16: the table of SRD and that of SWR, index by index. -/
theorem specialRegisters : Obligations.SpecialRegisters := by
  intro s st p d a idx h x u n Rd Wr
  have rd {k : Nat} {v : BitVec 64} (hv : s.special p st k = some v) : Rd k v := by
    rintro rfl
    exact execSrd_run h d hv
  have wr {k : Nat} {y : Stall} (hpc : y.pc = x.pc)
      (hy : (if k = 0x02 then x.takeWraps (s.cycles p st) else x).swr k u = some y) : Wr k y := by
    rintro rfl
    rw [← hpc]
    exact execSwr_run h hy
  refine ⟨rd rfl, rd rfl, rd rfl, rd rfl, rd rfl, rd rfl, rd rfl, rd (s.special_cycle p st), rd rfl, wr rfl rfl, wr rfl ?wrap,
    wr rfl rfl, wr rfl rfl, wr rfl rfl, fun hn => execSrd_illegal h d (s.special_reserved p st hn),
    fun hn => execSwr_illegal h hn⟩
  case wrap => rw [if_pos rfl, Stall.takeWraps_eq, Stall.swr_cycle]

end Sys2Proof.Machine
end

section
/-!
SUPPORT, O9 and O12. The elementwise vector instructions of one and two sources, and the reductions (R106, R110, R112, R113).
-/

namespace Sys2Proof.Machine

/-! ### Elementwise instructions (R110) -/

section
variable {s : State} {t p : Nat} {d a b : BitVec 5} {k : EtSet} {et : BitVec 3} (q : BitVec 3)

/-- An instruction of two sources of a valid element type works on their elements. -/
theorem execVV_run (h : s.canRun t p [vreg d.toNat, vreg a.toNat, vreg b.toNat]) (hk : etOk k et.toNat = true)
    (f : Nat → Nat → Nat → ERes) :
    let x := s.stall t
    let w := etWidth et.toNat
    let r (i : Nat) := f et.toNat (elem w (x.getV a) i) (elem w (x.getV b) i)
    ∃ y, execVV k t d a b q et f s = .next ((s.setStall t y).nanEvents p ⟨1, 1, t, x.pc.toNat⟩
      (causesOf (activeRes (x.getP q.toNat) w r))) ∧ VWrite x y d (x.getP q.toNat) w r := by
  rw [execVV, hk]
  exact execV_run h q _ 1 _

/-- An instruction of one source of a valid element type works on its elements. -/
theorem execVA_run (h : s.canRun t p [vreg d.toNat, vreg a.toNat]) (hk : etOk k et.toNat = true) (f : Nat → Nat → ERes) :
    let x := s.stall t
    let w := etWidth et.toNat
    let r (i : Nat) := f et.toNat (elem w (x.getV a) i)
    ∃ y, execVA k t d a q et f s = .next ((s.setStall t y).nanEvents p ⟨1, 1, t, x.pc.toNat⟩
      (causesOf (activeRes (x.getP q.toNat) w r))) ∧ VWrite x y d (x.getP q.toNat) w r := by
  rw [execVA, hk]
  exact execV_run h q _ 1 _

end

/-- Settles O9: every form is elementwise on the elements of its sources; VBCAST and VPERM choose their element. -/
theorem vectorFloats : Obligations.VectorFloats := by
  constructor
  · intro s st p d a b q et h x w pr E
    have two {k : EtSet} (hk : etOk k et.toNat = true) (f : Nat → Nat → Nat → ERes) := execVV_run q h hk f
    refine ⟨fun het => ?any, fun het => ?int, fun het => ?float⟩
    case any =>
      have hk : etOk .any et.toNat = true := decide_eq_true het
      exact ⟨two hk vAdd, two hk vSub, two hk vMul, two hk vMin, two hk vMax, two hk vAnd, two hk vOr, two hk vXor⟩
    case int =>
      have hk : etOk .int et.toNat = true := het
      exact ⟨two hk vAdds, two hk vSubs, two hk vMuls, two hk vShl, two hk vShr, two hk vSra⟩
    case float =>
      have hk : etOk .float et.toNat = true := decide_eq_true het
      exact ⟨two hk vDiv, two hk vExpd⟩
  · intro s st p d a b q et h x w pr V E
    have hv : s.canRun st p [vreg d.toNat, vreg a.toNat] := h.mono (by simp)
    have hg : s.canRun st p [vreg d.toNat, a.toNat] := h.mono (by simp)
    have hvv : s.canRun st p [vreg d.toNat, vreg a.toNat, vreg b.toNat] := h.mono (by simp)
    have one {k : EtSet} (hk : etOk k et.toNat = true) (f : Nat → Nat → ERes) := execVA_run q hv hk f
    refine ⟨fun het => ?any, fun het => ?int, fun het => ?float⟩
    case any =>
      have hk : etOk .any et.toNat = true := decide_eq_true het
      refine ⟨one hk vAbs, one hk vNeg, one hk vMov, ?bcast, ?perm⟩
      case bcast =>
        change ∃ y, execVbcast st d a q et s = _ ∧ _
        rw [execVbcast, hk]
        exact execV_run hg q w 1 fun x _ => plain ((x.getG a).toNat % 2 ^ w)
      case perm =>
        change ∃ y, execVperm st d a b q et s = _ ∧ _
        simp only [execVperm, hk]
        exact execV_run hvv q w 1 fun x i => plain (elem w (x.getV a) (elem w (x.getV b) i % (1024 / w)))
    case int =>
      have hk : etOk .int et.toNat = true := het
      exact ⟨one hk vAbss, one hk vNegs⟩
    case float =>
      have hk : etOk .float et.toNat = true := decide_eq_true het
      exact ⟨one hk vSqrt, one hk vRcp, one hk vRsqrt, one hk vExp2, one hk vExpe, one hk vLog2, one hk vLn⟩

/-! ### Reductions (R113) -/

theorem execRed_run {s : State} {t p : Nat} {a : BitVec 5} {et : BitVec 3} (h : s.canRun t p [vreg a.toNat])
    (het : et.toNat ≤ 6) (o : RedOp) (d : BitVec 5) (q : BitVec 3) :
    let x := s.stall t
    let r := redResult o et.toNat (x.getP q.toNat) (x.getV a)
    ∃ y, execRed o t d a q et s = .next ((s.setStall t y).nanEvents p ⟨1, 1, t, x.pc.toNat⟩ [(0, r.cause)]) ∧
      GWrite x y d (BitVec.ofNat 64 r.code) r.flags := by
  have hk : etOk .any et.toNat = true := decide_eq_true het
  rw [execRed, if_pos hk]
  exact ⟨_, issue_run h _, Stall.doG_gwrite _ _ _⟩

theorem extend_eq (signed : Bool) {w n : Nat} (hn : n < 2 ^ w) :
    extend signed w n = if signed then BitVec.ofInt 64 (toInt w n) else BitVec.ofNat 64 n := by
  cases signed
  · simp [extend, Nat.mod_eq_of_lt hn]
  · simp [extend, sext]

/-! ### The pairwise tree (R113) -/

section
variable {α : Type} {f : α → α → α}

theorem pairUp_length (l : List α) : (pairUp f l).length = (l.length + 1) / 2 := by
  induction l using pairUp.induct with
  | case1 x y r ih => simp only [pairUp, List.length_cons, ih]; omega
  | case2 l hl =>
    match l, hl with
    | [], _ => simp [pairUp]
    | [_], _ => simp [pairUp]
    | x :: y :: r, hl => exact absurd rfl (hl x y r)

/-- The tree over 2^n elements leaves one. -/
theorem treeN_length {n : Nat} {l : List α} (hl : l.length = 2 ^ n) : (treeN f n l).length = 1 := by
  induction n generalizing l with
  | zero => exact hl
  | succ n ih => exact ih (by rw [pairUp_length, hl, pow_succ]; omega)

/-- What each level of the tree keeps, the tree keeps. -/
theorem treeN_rel {Rel : List α → List α → Prop} (refl : ∀ l, Rel l l) (trans : ∀ {a b c}, Rel a b → Rel b c → Rel a c)
    (level : ∀ l, Rel l (pairUp f l)) (n : Nat) (l : List α) : Rel l (treeN f n l) := by
  induction n generalizing l with
  | zero => exact refl l
  | succ n ih => exact trans (level l) (ih (pairUp f l))

/-- The elements of `m` are among those of `l`, and each element of `l` is at most one of them. -/
def Bounds (le : α → α → Prop) (l m : List α) : Prop := (∀ x ∈ m, x ∈ l) ∧ ∀ x ∈ l, ∃ y ∈ m, le x y

/-- A tree of an operation that chooses the greater of two elements leaves the greatest. -/
theorem treeN_bounds {le : α → α → Prop} (refl : ∀ x, le x x) (trans : ∀ {x y z}, le x y → le y z → le x z)
    (choice : ∀ x y, f x y = x ∨ f x y = y) (left : ∀ x y, le x (f x y)) (right : ∀ x y, le y (f x y)) (n : Nat) (l : List α) :
    Bounds le l (treeN f n l) := by
  refine treeN_rel (fun l => ⟨fun x hx => hx, fun x hx => ⟨x, hx, refl x⟩⟩) ?_ ?_ n l
  · rintro a b c ⟨hab, hab'⟩ ⟨hbc, hbc'⟩
    refine ⟨fun x hx => hab x (hbc x hx), fun x hx => ?_⟩
    obtain ⟨y, hy, hxy⟩ := hab' x hx
    obtain ⟨z, hz, hyz⟩ := hbc' y hy
    exact ⟨z, hz, trans hxy hyz⟩
  · intro l
    induction l using pairUp.induct with
    | case1 x y r ih =>
      obtain ⟨hmem, hbound⟩ := ih
      rw [pairUp]
      refine ⟨fun z hz => ?_, fun z hz => ?_⟩
      · rcases List.mem_cons.mp hz with rfl | hz
        · rcases choice x y with h | h <;> simp [h]
        · exact List.mem_cons_of_mem _ (List.mem_cons_of_mem _ (hmem z hz))
      · rcases List.mem_cons.mp hz with rfl | hz
        · exact ⟨_, List.mem_cons_self, left _ _⟩
        · rcases List.mem_cons.mp hz with rfl | hz
          · exact ⟨_, List.mem_cons_self, right _ _⟩
          · obtain ⟨u, hu, hzu⟩ := hbound z hz
            exact ⟨u, List.mem_cons_of_mem _ hu, hzu⟩
    | case2 l hl =>
      rw [pairUp.eq_2 f l hl]
      exact ⟨fun x hx => hx, fun x hx => ⟨x, hx, refl x⟩⟩

/-- The one element such a tree leaves is in the list and bounds it. -/
theorem treeN_head_bounds {le : α → α → Prop} {n : Nat} {l : List α} (hl : l.length = 2 ^ n)
    (h : Bounds le l (treeN f n l)) (d : α) : (treeN f n l).headD d ∈ l ∧ ∀ x ∈ l, le x ((treeN f n l).headD d) := by
  obtain ⟨m, hm⟩ := List.length_eq_one_iff.mp (treeN_length (f := f) hl)
  obtain ⟨hmem, hbound⟩ := h
  rw [hm] at hmem hbound ⊢
  exact ⟨hmem m (by simp), fun x hx => by simpa using hbound x hx⟩

end

/-- The tree of sums keeps the sum of its elements in 64 bits (R113). -/
theorem pairUp_sum_mod (l : List Int) : (pairUp RedOp.sum.combI l).sum % 2 ^ 64 = l.sum % 2 ^ 64 := by
  induction l using pairUp.induct with
  | case1 x y r ih =>
    have hwrap : toInt 64 (ofInt 64 (x + y)) % 2 ^ 64 = (x + y) % 2 ^ 64 := by
      rw [toInt_eq_toInt_ofNat, ofNat_ofInt, BitVec.toInt_ofInt]
      exact Int.bmod_emod
    rw [pairUp, List.sum_cons, List.sum_cons, List.sum_cons, RedOp.combI]
    omega
  | case2 l hl => rw [pairUp.eq_2 _ l hl]

theorem treeN_sum_mod (n : Nat) (l : List Int) : (treeN RedOp.sum.combI n l).sum % 2 ^ 64 = l.sum % 2 ^ 64 :=
  treeN_rel (Rel := fun a b => b.sum % 2 ^ 64 = a.sum % 2 ^ 64) (fun _ => rfl) (fun hab hbc => hbc.trans hab) pairUp_sum_mod n l

/-! ### Integer reductions of all elements (R113) -/

/-- The width of an integer type is a multiple of 8, and the count of its elements a power of 2 (R104). -/
theorem etWidth_of_etInt {et : Nat} (h : etInt et = true) :
    0 < etWidth et / 8 ∧ 8 * (etWidth et / 8) = etWidth et ∧ etWidth et * (1024 / etWidth et) = 1024 ∧
      1024 / etWidth et = 2 ^ Nat.log2 (1024 / etWidth et) := by
  simp only [etInt, decide_eq_true_eq] at h
  match et, h with
  | 3, _ | 4, _ | 5, _ | 6, _ => decide

/-- Under a predicate of ones every element is active (R112). -/
theorem active_allOnes {et i : Nat} (h : etInt et = true) (hi : i < 1024 / etWidth et) :
    active (BitVec.allOnes 128) (etWidth et) i = true := by
  obtain ⟨hpos, h8, hall, -⟩ := etWidth_of_etInt h
  have hlt : i * (etWidth et / 8) < 128 := by
    have hle : 8 * (i * (etWidth et / 8)) + etWidth et ≤ 1024 := by
      calc 8 * (i * (etWidth et / 8)) + etWidth et
        _ = (i + 1) * (8 * (etWidth et / 8)) := by rw [Nat.mul_comm 8, Nat.mul_assoc, Nat.mul_comm _ 8, h8]; ring
        _ = etWidth et * (i + 1) := by rw [h8, Nat.mul_comm]
        _ ≤ etWidth et * (1024 / etWidth et) := Nat.mul_le_mul_left _ hi
        _ = 1024 := hall
    omega
  rw [active, BitVec.getLsbD_allOnes, decide_eq_true hlt]

/-- An integer reduction of all elements is the tree over them (R113). -/
theorem redResult_allOnes (o : RedOp) {et : Nat} (v : BitVec 1024) (h : etInt et = true) :
    redResult o et (BitVec.allOnes 128) v = ⟨((treeN o.combI (Nat.log2 (1024 / etWidth et))
      ((List.range (1024 / etWidth et)).map (fun i => toInt (etWidth et) (elem (etWidth et) v i)))).headD 0 % 2 ^ 64).toNat,
      0, 0⟩ := by
  have hall : (List.range (1024 / etWidth et)).map (fun i => if active (BitVec.allOnes 128) (etWidth et) i
      then toInt (etWidth et) (elem (etWidth et) v i) else o.idI (etWidth et)) =
      (List.range (1024 / etWidth et)).map (fun i => toInt (etWidth et) (elem (etWidth et) v i)) :=
    List.map_congr_left fun i hi => if_pos (active_allOnes h (List.mem_range.mp hi))
  simp only [redResult, fmtOf_of_etInt h, hall, plain, ofInt_eq]

/-- Settles O12: the frame of gd for each form, and the three integer trees over all elements. -/
theorem vectorReductions : Obligations.VectorReductions := by
  constructor
  · intro s st p d a b q et h het x w E
    have ha : s.canRun st p [vreg a.toNat] := h.mono (by simp)
    have red (o : RedOp) := execRed_run ha het o d q
    refine ⟨red .sum, red .max, red .min, ?_⟩
    have hget := execG_run d (fun x => (extend (etInt et.toNat) w (elem w (x.getV a) ((x.getG b).toNat % (1024 / w))), 0)) h
    have hexec : exec (.vget st d a b et) s = execG st d [vreg a.toNat, b.toNat]
        (fun x => (extend (etInt et.toNat) w (elem w (x.getV a) ((x.getG b).toNat % (1024 / w))), 0)) s :=
      if_pos (decide_eq_true het)
    rw [hexec]
    simpa only [extend_eq _ (elem_lt w _ _)] using hget
  · intro et v h w l pr
    have hlen : l.length = 2 ^ Nat.log2 (1024 / w) := by
      simpa [l] using (etWidth_of_etInt h).2.2.2
    refine ⟨?sum, ?max, ?min⟩
    case sum =>
      rw [redResult_allOnes .sum v h, ← treeN_sum_mod (Nat.log2 (1024 / w)) l]
      obtain ⟨m, hm⟩ := List.length_eq_one_iff.mp (treeN_length (f := RedOp.sum.combI) hlen)
      rw [hm, List.sum_singleton]
      rfl
    case max =>
      obtain ⟨hmem, hbound⟩ := treeN_head_bounds hlen (treeN_bounds (f := RedOp.max.combI) (le := (· ≤ ·)) le_refl le_trans
        max_choice le_max_left le_max_right _ l) 0
      exact ⟨_, hmem, hbound, redResult_allOnes .max v h⟩
    case min =>
      obtain ⟨hmem, hbound⟩ := treeN_head_bounds hlen (treeN_bounds (f := RedOp.min.combI) (le := (· ≥ ·)) (fun _ => le_rfl) ge_trans
        min_choice min_le_left min_le_right _ l) 0
      exact ⟨_, hmem, hbound, redResult_allOnes .min v h⟩

end Sys2Proof.Machine
end

section
/-!
SUPPORT, O57. The passing of a microsecond, and the wraps of counters (R100, R280, R387).
-/

namespace Sys2Proof.Machine

/-! ### What a microsecond counts and notes (R32, R249, R387) -/

/-- From `s` to `t` only what yards and performance counters count and what sheds and engines note changed. -/
def Idles (s t : State) : Prop :=
  ∃ yards perfs sheds engines, t = { s with yards := yards, perfs := perfs, sheds := sheds, engines := engines }

namespace Idles

theorem refl (s : State) : Idles s s := ⟨_, _, _, _, rfl⟩

theorem trans {s t u : State} (h : Idles s t) (h' : Idles t u) : Idles s u := by
  obtain ⟨_, _, _, _, rfl⟩ := h
  obtain ⟨_, _, _, _, rfl⟩ := h'
  exact ⟨_, _, _, _, rfl⟩

theorem foldl {ι : Type} {F : State → ι → State} (hF : ∀ s i, Idles s (F s i)) (l : List ι) (s : State) :
    Idles s (l.foldl F s) := by
  induction l generalizing s with
  | nil => exact refl s
  | cons i l ih => exact (hF s i).trans (ih (F s i))

theorem ite {c : Prop} [Decidable c] {s t u : State} (ht : Idles s t) (hu : Idles s u) : Idles s (if c then t else u) := by
  split
  · exact ht
  · exact hu

theorem modYard (s : State) (y : Nat) (f : Yard → Yard) : Idles s (s.modYard y f) := ⟨_, _, _, _, rfl⟩

theorem modShed (s : State) (k : Nat) (f : Shed → Shed) : Idles s (s.modShed k f) := ⟨_, _, _, _, rfl⟩

theorem countPerf (s : State) (n : Nat) : Idles s (s.countPerf n) := ite ⟨_, _, _, _, rfl⟩ (refl s)

theorem noteBusy (s : State) : Idles s s.noteBusy := by
  have hsheds : Idles s ((List.range 32).foldl (fun s k => if s.quiet k then s else
      s.modShed k (fun x => { x with busyAt := s.clock })) s) := foldl (fun s k => ite (refl s) (modShed s k _)) _ s
  exact hsheds.trans ⟨_, _, _, _, rfl⟩

end Idles

/-- What yards and performance counters count in a microsecond of running clocks. -/
def State.counted (s : State) : State :=
  if s.clocksUp then
    (List.range 4).foldl (fun s y => s.modYard y (fun x => { x with cycles := x.cycles + s.cyclesIn y s.clock }))
      ((List.range 16).foldl (fun s n => s.countPerf n) s)
  else s

theorem State.counted_idles (s : State) : Idles s s.counted :=
  Idles.ite ((Idles.foldl Idles.countPerf _ s).trans (Idles.foldl (fun s y => Idles.modYard s y _) _ _)) (Idles.refl s)

/-- A microsecond with input power: the counts, the clocks, the notes, and the end of a write of flash. -/
theorem State.tick_eq (s : State) (h : s.season.phase ≠ .noPower) : s.tick =
    ({ s.counted with clock := s.counted.clock + 1000, time := ((s.counted.time : Int) + 1000 + s.counted.fabric.slewStep.1).toNat,
                      fabric := s.counted.fabric.slewStep.2 } : State).noteBusy.finishFlash := by
  rw [State.tick, if_neg h]
  rfl

/-- What passes with a microsecond of input power. -/
theorem State.tick_passes (s : State) (h : s.season.phase ≠ .noPower) : ∃ yards perfs sheds engines, s.tick =
    { s with clock := s.clock + 1000, time := ((s.time : Int) + 1000 + s.fabric.slewStep.1).toNat, fabric := s.fabric.slewStep.2,
             flash := s.flash.finish s.season.flashWpN, yards := yards, perfs := perfs, sheds := sheds, engines := engines } := by
  obtain ⟨_, _, _, _, hcounted⟩ := s.counted_idles
  obtain ⟨_, _, _, _, hnoted⟩ := Idles.noteBusy { s.counted with
    clock := s.counted.clock + 1000, time := ((s.counted.time : Int) + 1000 + s.counted.fabric.slewStep.1).toNat,
    fabric := s.counted.fabric.slewStep.2 }
  rw [s.tick_eq h, hnoted, hcounted]
  exact ⟨_, _, _, _, rfl⟩

/-! ### Wraps (R387, R388) -/

theorem State.wrapPerf_below (s : State) {n : Nat} (h : (s.perf n).count < 2 ^ 48) : s.wrapPerf n = s := if_pos h

theorem State.logModule_log_next (s : State) (code sev : Nat) (part : Option Nat) (kind idx detail : Nat) :
    ((s.logModule code sev part kind idx detail).log 0).next = (s.log 0).next + 1 := by
  have hlog : (s.logModule code sev part kind idx detail).logs = (s.setLog 0
      ((s.log 0).append 16384 (fun n => logWord n s.time code sev part kind idx detail))).logs := by
    rw [State.logModule]
    split <;> simp
  rw [State.log, hlog]
  exact congrArg Log.next (State.setLog_same ..)

/-- PERF_n that has wrapped: 2^48 less, with WRAP, and a log entry where WRAP_LOG asks for it (R387). -/
theorem State.wrapPerf_wraps (s : State) {n : Nat} (h : 2 ^ 48 ≤ (s.perf n).count) :
    ((s.wrapPerf n).perf n).count = (s.perf n).count - 2 ^ 48 ∧ ((s.wrapPerf n).perf n).wrap = true ∧
    (s.wrapPerf n).mem = s.mem ∧ ((s.wrapPerf n).log 0).next = (s.log 0).next + b2n (bit (s.obj (kPerfSel n)) 6) := by
  rw [State.wrapPerf, if_neg (Nat.not_lt.mpr h)]
  dsimp only
  rw [State.setPerf_obj]
  cases bit (s.obj (kPerfSel n)) 6 with
  | false =>
    rw [if_neg Bool.false_ne_true, State.setPerf_same]
    simp [b2n]
  | true =>
    have hperf (u : State) : (u.logModule 0x0D02 0 none 0x10 0 n).perf n = u.perf n := by
      rw [State.perf, State.logModule_perfs, State.perf]
    rw [if_pos rfl, hperf, State.setPerf_same, State.logModule_log_next, State.logModule_mem]
    simp [b2n]

/-- Settles O57: the fields a microsecond changes, and the two kinds of COUNTER_WRAP. -/
theorem timePasses : Obligations.TimePasses := by
  intro s
  refine ⟨fun hq hp => ?off, fun hq hp => ?on, fun n hn => ⟨fun hlt => ?below, fun hle => ?wraps⟩, fun st p hst ho => ?cycle⟩
  case off => rw [step, hq, State.tick, if_pos hp]
  case on =>
    obtain ⟨_, _, _, _, htick⟩ := s.tick_passes hp
    have hslew : s.fabric.slew = 0 → s.fabric.slewStep.1 = 0 := fun h => by rw [Fabric.slewStep, if_pos h]
    refine ⟨s.tick, by rw [step, hq], ?_⟩
    rw [htick]
    refine ⟨rfl, hq, rfl, rfl, rfl, rfl, rfl, fun h => ?_⟩
    change ((s.time : Int) + 1000 + s.fabric.slewStep.1).toNat = s.time + 1000
    rw [hslew h]
    omega
  case below =>
    change execCounterWrap 1 n s = _
    rw [execCounterWrap, if_neg (by omega), s.wrapPerf_below hlt]
  case wraps =>
    refine ⟨s.wrapPerf n, ?_, s.wrapPerf_wraps hle⟩
    change execCounterWrap 1 n s = _
    rw [execCounterWrap, if_neg (by omega)]
  case cycle =>
    have hexec : exec (.counterWrap 0 st) s = .next (s.wrapCycle st) := by
      change execCounterWrap 0 st s = _
      rw [execCounterWrap, if_neg (by omega)]
    rw [hexec, State.wrapCycle, ho]
    exact ⟨fun hlt => congrArg _ (if_pos hlt), fun hle => congrArg _ (if_neg (by omega))⟩

end Sys2Proof.Machine
end

section
/-!
SUPPORT, O13. Conversions and random numbers (R115, R116, R123).
-/

namespace Sys2Proof.Machine

/-! ### The frame of a whole vector register (R99) -/

/-- A stall that differs from `x.setV d v` in neither vector registers nor outstanding results. -/
theorem VLoad.of_setV {x y : Stall} {d : BitVec 5} {v : BitVec 1024} (hv : y.v = (x.setV d v).v)
    (hacc : y.acc = (x.setV d v).acc) (hwaits : y.waits = (x.setV d v).waits) : VLoad x y d v where
  reads j := by
    have hread := x.getV_setV d j v
    rwa [Stall.getV, ← hv] at hread
  free := by
    have hfree := x.supersede_waiting (vreg d.toNat)
    rw [Stall.waiting, hacc, hwaits]
    exact hfree

/-! ### Conversions (R115, R116) -/

theorem causesOf_filterMap (l : List Nat) (act : Nat → Bool) (r : Nat → ERes) :
    causesOf (l.filterMap (fun i => if act i then some (i, r i) else none)) =
      l.filterMap (fun i => if act i then some (i, (r i).cause) else none) := by
  rw [causesOf, List.map_filterMap]
  refine List.filterMap_congr fun i _ => ?_
  cases act i <;> rfl

/-- VCVT of a valid form that can run (R115). -/
theorem execVcvt_run {s : State} {t p : Nat} {d a b : BitVec 5} {et : BitVec 3} {fn : BitVec 4} {f g : NumTy}
    (h : s.canRun t p [vreg d.toNat, vreg a.toNat]) (hf : cvtForm et.toNat b.toNat fn.toNat = some (f, g)) (q : BitVec 3) :
    let x := s.stall t
    ∃ y, execVcvt t d a b q et fn s = .next ((s.setStall t y).nanEvents p ⟨1, 2, t, x.pc.toNat⟩
        ((List.range (1024 / max f.width g.width)).filterMap (fun i =>
          if active (x.getP q.toNat) f.width i then some (i, (cvtElem f g fn.toNat (x.getV a) i).cause) else none))) ∧
      VLoad x y d (cvtMerge f g fn.toNat (x.getP q.toNat) (x.getV d) (x.getV a)) ∧ y.g = x.g ∧ y.p = x.p ∧ y.pc = x.pc + 4 := by
  intro x
  rw [← causesOf_filterMap, execVcvt, hf]
  exact ⟨_, issue_run h _, VLoad.of_setV rfl rfl rfl, rfl, rfl, rfl⟩

/-- The first element of a list that `p` holds of, by the two functions that find it. -/
theorem indexOf?_eq {α : Type} (p : α → Bool) (l : List α) :
    indexOf? p l = if l.any p then some (l.findIdx p) else none := by
  induction l with
  | nil => rfl
  | cons x l ih =>
    rw [indexOf?, ih, List.any_cons, List.findIdx_cons]
    cases p x <;> cases l.any p <;> simp

/-- An MX block raises a first-NaN event exactly for a block with an element that is not finite (R41). -/
theorem mxBlock_event (k : Nat) (xs : List Nat) : (mxBlock k xs).2.2 = !(xs.all f32fin) := by
  have hany : (xs.map fp32.decode).any (fun v => !v.isFin) = !(xs.all f32fin) := by
    rw [List.any_map, List.not_all_eq_any_not]
    rfl
  rw [mxBlock, ← hany]
  dsimp only
  cases (xs.map fp32.decode).any (fun v => !v.isFin) with
  | true => rfl
  | false =>
    rw [if_neg Bool.false_ne_true]
    cases amaxExp (xs.map fp32.decode) <;> rfl

/-- The event of VCVTMX: the first element that is not finite, none where all are (R41; assumption log 53). -/
theorem mxBlock_first (k : Nat) (xs : List Nat) :
    ((indexOf? (fun c => !(f32fin c)) xs).getD 0, if (mxBlock k xs).2.2 then causeMxBlock else 0) =
      if xs.all f32fin then (0, 0) else (xs.findIdx (fun c => !(f32fin c)), 4) := by
  rw [mxBlock_event, indexOf?_eq, ← List.not_all_eq_any_not]
  cases xs.all f32fin <;> rfl

/-- VCVTMX of a valid format that can run (R116). -/
theorem execVcvtmx_run {s : State} {t p : Nat} {d a b k : BitVec 5} (h : s.canRun t p [vreg a.toNat, vreg b.toNat])
    (hk : k.toNat % 8 < 6) :
    let x := s.stall t
    let xs := (List.range 32).map (elem 32 (x.getV a))
    let r := mxBlock (k.toNat % 8) xs
    let m := mxBits (k.toNat % 8)
    ∃ y, execVcvtmx t d a b k s = .next ((s.setStall t y).nanEvents p ⟨1, 2, t, x.pc.toNat⟩
        [if xs.all f32fin then (0, 0) else (xs.findIdx (fun c => !(f32fin c)), 4)]) ∧
      y = ((x.setV b (BitVec.ofNat 1024 (setBits (x.getV b).toNat (k.toNat / 8 * 32 * m) (32 * m) (packNat m r.2.1)))).setG d
        (BitVec.ofNat 64 r.1)).advance := by
  intro x xs r m
  rw [← mxBlock_first (k.toNat % 8) xs]
  refine ⟨_, ?_, rfl⟩
  simp only [execVcvtmx, if_neg (Nat.not_le.mpr hk)]
  exact issue_run h _

/-! ### Random numbers (R123) -/

theorem rng_next (c : Nat) : (BitVec.ofNat 64 (c % 2 ^ 128)).toNat + 2 ^ 64 * (BitVec.ofNat 64 (c % 2 ^ 128 / 2 ^ 64)).toNat =
    c % 2 ^ 128 := by
  simp only [BitVec.toNat_ofNat]
  omega

theorem execVrand_run {s : State} {t p : Nat} {fn : BitVec 4} (h : s.canRun t p []) (d : BitVec 5) (hfn : fn.toNat ≤ 1) :
    let x := s.stall t
    let c := x.rngLo.toNat + 2 ^ 64 * x.rngHi.toNat
    Alters s t (execVrand t d fn s) fun y => VLoad x y d (randVec (decide (fn = 1)) x.rngKey.toNat c) ∧ y.pc = x.pc + 4 ∧
      y.g = x.g ∧ y.rngKey = x.rngKey ∧ y.rngLo.toNat + 2 ^ 64 * y.rngHi.toNat = (c + 8) % 2 ^ 128 := by
  rw [execVrand, issue_run h, if_neg (Nat.not_lt.mpr hfn)]
  dsimp only
  generalize (s.stall t).rngLo.toNat + 2 ^ 64 * (s.stall t).rngHi.toNat = c
  generalize randVec (decide (fn = 1)) (s.stall t).rngKey.toNat c = v
  exact ⟨_, rfl, VLoad.of_setV rfl rfl rfl, rfl, rfl, rfl, rng_next (c + 8)⟩

theorem execVrandc_run {s : State} {t p : Nat} {a : BitVec 5} {fn : BitVec 4} (h : s.canRun t p [vreg a.toNat]) (d : BitVec 5)
    (hfn : fn.toNat ≤ 1) :
    let x := s.stall t
    Alters s t (execVrandc t d a fn s) fun y =>
      VLoad x y d (randVec (decide (fn = 1)) x.rngKey.toNat ((x.getV a).toNat % 2 ^ 128)) ∧ y.pc = x.pc + 4 ∧ y.g = x.g ∧
      y.rngKey = x.rngKey ∧ y.rngLo = x.rngLo ∧ y.rngHi = x.rngHi := by
  rw [execVrandc, issue_run h, if_neg (Nat.not_lt.mpr hfn)]
  dsimp only
  generalize randVec (decide (fn = 1)) (s.stall t).rngKey.toNat (((s.stall t).getV a).toNat % 2 ^ 128) = v
  exact ⟨_, rfl, VLoad.of_setV rfl rfl rfl, rfl, rfl, rfl, rfl, rfl⟩

/-- Settles O13: each instruction's one state, read by the laws of register writes. -/
theorem vectorConvertsAndRandoms : Obligations.VectorConvertsAndRandoms := by
  intro s st p d a b q et fn k h x
  have hcvt : s.canRun st p [vreg d.toNat, vreg a.toNat] := h.mono (by simp)
  have hmx : s.canRun st p [vreg a.toNat, vreg b.toNat] := h.mono (by simp)
  have ha : s.canRun st p [vreg a.toNat] := h.mono (by simp)
  have hnone : s.canRun st p [] := h.mono (by simp)
  refine ⟨fun f t hf => execVcvt_run hcvt hf q, fun hk => ?mx, fun hfn => ⟨?rand, ?randc⟩⟩
  case mx =>
    intro xs r m e
    obtain ⟨y, hy, hyeq⟩ := execVcvtmx_run (d := d) hmx hk
    refine ⟨y, hy, ?_⟩
    subst hyeq
    have hreads (j : BitVec 5) := x.getV_setV b j
      (BitVec.ofNat 1024 (setBits (x.getV b).toNat (k.toNat / 8 * 32 * m) (32 * m) (packNat m r.2.1)))
    obtain ⟨hv, hp, hastat, -, hpc⟩ := Stall.setG_frame (x.setV b
      (BitVec.ofNat 1024 (setBits (x.getV b).toNat (k.toNat / 8 * 32 * m) (32 * m) (packNat m r.2.1)))) d (BitVec.ofNat 64 r.1)
    have hgetV (j : BitVec 5) := congrArg (fun v => FMap.get (fun _ => (0 : BitVec 1024)) v j.toNat) hv
    refine ⟨?_, fun i => Stall.getG_setG _ d i _, fun j hj => ?_, hp, ?_, hastat⟩
    · exact (hgetV b).trans ((hreads b).trans (if_pos rfl))
    · exact (hgetV j).trans ((hreads j).trans (if_neg hj))
    · exact congrArg (· + 4) hpc
  case rand => exact execVrand_run hnone d hfn
  case randc => exact execVrandc_run ha d hfn

end Sys2Proof.Machine
end

section
/-!
SUPPORT, O2. Decoding of encoded words (R104-R116): which decoder a word of each opcode goes to, and the words of each instruction.
-/

namespace Sys2Proof

/-! ### The decoder of each opcode (R106-R111) -/

section
variable (st : Nat) {w : BitVec 32} {op : Nat} (h : opcF w = op)
include h

theorem decodeStallWord_imm (hne : op ≠ 0x01) (hlt : op < 0x2B) : decodeStallWord st w = decodeImm st op w := by
  simp only [decodeStallWord, h]
  rw [if_neg hne, if_neg (by omega), if_pos hlt]

theorem decodeStallWord_unit (hlo : 0x2B < op) (hhi : op < 0x40) :
    decodeStallWord st w = decodeUnit st op (f20 w) (f15 w) (f10 w) (f5 w) (f0 w) := by
  simp only [decodeStallWord, h]
  rw [if_neg (by omega), if_neg (by omega), if_neg (by omega), if_pos hhi]

theorem decodeStallWord_vec (hlo : 0x40 ≤ op) : decodeStallWord st w = decodeVec st op w := by
  simp only [decodeStallWord, h]
  rw [if_neg (by omega), if_neg (by omega), if_neg (by omega), if_neg (by omega)]

end

section
variable (st : Nat) (d a b c : BitVec 5) (p et : BitVec 3)

/-! ### Words of the groups with a function field (R107-R111, R113) -/

theorem decode_encR_int {fn : Nat} (hf : fn < 1024) : decodeStallWord st (encR 0x01 d a b fn) = decodeInt st d a b fn := by
  simp [decodeStallWord, hf]

theorem decode_encR_fp {fn : Nat} (hf : fn < 1024) : decodeStallWord st (encR 0x2B d a b fn) = decodeFp st d a b fn := by
  simp [decodeStallWord, hf]

theorem decode_encU {op : Nat} (hlo : 0x2B < op) (hhi : op < 0x40) (fn : BitVec 5) :
    decodeStallWord st (encU op d a b c fn) = decodeUnit st op d a b c fn := by
  have hop : op < 128 := by omega
  rw [decodeStallWord_unit st (encU_opcF op hop d a b c fn) hlo hhi, encU_f20 op hop, encU_f15 op hop, encU_f10 op hop,
    encU_f5 op hop, encU_f0 op hop]

section
variable {fn : Nat} (hf : fn < 16)
include hf

theorem decode_encV_va : decodeStallWord st (encV 0x40 d a b p et fn) = decodeVa st d a b p et fn := by
  rw [encV, decodeStallWord_vec st (encX_opcF 0x40 (by decide) d a b p et _) (by decide)]
  simp [decodeVec, Nat.mod_eq_of_lt hf]

theorem decode_encV_vb : decodeStallWord st (encV 0x41 d a b p et fn) = decodeVb st d a b p et fn := by
  rw [encV, decodeStallWord_vec st (encX_opcF 0x41 (by decide) d a b p et _) (by decide)]
  simp [decodeVec, Nat.mod_eq_of_lt hf]

theorem decode_encV_vcmp : decodeStallWord st (encV 0x42 d a b p et fn) = decodeVcmp st d a b p et fn := by
  rw [encV, decodeStallWord_vec st (encX_opcF 0x42 (by decide) d a b p et _) (by decide)]
  simp [decodeVec, Nat.mod_eq_of_lt hf]

theorem decode_encV_vred : decodeStallWord st (encV 0x49 d a b p et fn) = decodeVred st d a b p et fn := by
  rw [encV, decodeStallWord_vec st (encX_opcF 0x49 (by decide) d a b p et _) (by decide)]
  simp [decodeVec, Nat.mod_eq_of_lt hf]

theorem decode_encV_pred : decodeStallWord st (encV 0x4D d a b p et fn) = decodePred st d a b p et fn := by
  rw [encV, decodeStallWord_vec st (encX_opcF 0x4D (by decide) d a b p et _) (by decide)]
  simp [decodeVec, Nat.mod_eq_of_lt hf]

end

end

theorem whenZero_of {ok : Bool} (h : ok = true) (i : Instr) : whenZero ok i = some i := by rw [whenZero, if_pos h]

/-- Settles O2: each instruction by the decoder of its opcode. -/
theorem decodeEncode : Obligations.DecodeEncode := by
  intro i st w hwf henc
  have hfields : i.fieldsOk = true := by
    rw [Instr.wf, Bool.and_eq_true] at hwf
    exact hwf.2
  clear hwf
  cases i
  case add | sub | mul | mulh | mulhu | div | divu | rem | remu | and | or | xor | shl | shr | sra | slt | sltu | min | max |
    addw | subw | mulw | divw | divuw | remw | remuw | shlw | shrw | sraw | neg | abs | negw | absw =>
    obtain ⟨rfl, rfl⟩ := Prod.mk.inj (Option.some.inj henc)
    exact decode_encR_int _ _ _ _ (by decide)
  case fadd | fsub | fmul | fdiv | fmin | fmax | feq | flt | fle | fmadd | fsqrt | fcvtFI | fcvtIF =>
    obtain ⟨rfl, rfl⟩ := Prod.mk.inj (Option.some.inj henc)
    exact decode_encR_fp _ _ _ _ (by decide)
  case vadd | vsub | vmul | vmin | vmax | vadds | vsubs | vmuls | vand | vor | vxor | vabs | vneg | vabss | vnegs | vmov =>
    obtain ⟨rfl, rfl⟩ := Prod.mk.inj (Option.some.inj henc)
    exact decode_encV_va _ _ _ _ _ _ (by decide)
  case vshl | vshr | vsra | vdiv | vexpd | vsqrt | vrcp | vrsqrt | vexp2 | vexpe | vlog2 | vln =>
    obtain ⟨rfl, rfl⟩ := Prod.mk.inj (Option.some.inj henc)
    exact decode_encV_vb _ _ _ _ _ _ (by decide)
  case vcmpEq | vcmpNe | vcmpLt | vcmpLe | vcmpLtu | vcmpLeu | vcmpIsnan | vcmpIsinf =>
    obtain ⟨rfl, rfl⟩ := Prod.mk.inj (Option.some.inj henc)
    exact decode_encV_vcmp _ _ _ _ _ _ (by decide)
  case vredRsum | vredRmax | vredRmin =>
    obtain ⟨rfl, rfl⟩ := Prod.mk.inj (Option.some.inj henc)
    exact decode_encV_vred _ _ _ _ _ _ (by decide)
  case pand | por | pxor | pnot | pcnt =>
    obtain ⟨rfl, rfl⟩ := Prod.mk.inj (Option.some.inj henc)
    exact decode_encV_pred _ _ _ _ _ _ (by decide)
  case acas | getWork | evdone | evpush | send | hpush | fset | fclr | ftest | wcancel =>
    obtain ⟨rfl, rfl⟩ := Prod.mk.inj (Option.some.inj henc)
    exact decode_encU _ _ _ _ _ (by decide) (by decide) _
  case aadd | watch | ucmd | mxInstruction =>
    obtain ⟨rfl, rfl⟩ := Prod.mk.inj (Option.some.inj henc)
    rw [decode_encU _ _ _ _ _ (by decide) (by decide)]
    exact whenZero_of (by simpa [Instr.fieldsOk] using hfields) _
  case addi | addiw | andi | ori | xori | slti | ldB | ldH | ldW | ldD | ldBu | ldHu | ldWu | stB | stH | stW | stD | vld |
    vst | beq | bne | blt | bge | bltu | bgeu | jalr =>
    obtain ⟨rfl, rfl⟩ := Prod.mk.inj (Option.some.inj henc)
    rw [decodeStallWord_imm _ (encI_opcF _ (by decide) _ _ _) (by decide) (by decide)]
    simp [decodeImm]
  case lui | jal =>
    obtain ⟨rfl, rfl⟩ := Prod.mk.inj (Option.some.inj henc)
    rw [decodeStallWord_imm _ (encJ_opcF _ (by decide) _ _) (by decide) (by decide)]
    simp [decodeImm]
  case shli | shri | srai =>
    obtain ⟨rfl, rfl⟩ := Prod.mk.inj (Option.some.inj henc)
    rw [decodeStallWord_imm _ (encI_opcF _ (by decide) _ _ _) (by decide) (by decide)]
    simpa [decodeImm, whenZero, Instr.fieldsOk] using hfields
  case fence | srd | swr =>
    obtain ⟨rfl, rfl⟩ := Prod.mk.inj (Option.some.inj henc)
    rw [decodeStallWord_imm _ (encI_opcF _ (by decide) _ _ _) (by decide) (by decide)]
    simp [decodeImm, whenZero]
    omega
  case vstp =>
    obtain ⟨rfl, rfl⟩ := Prod.mk.inj (Option.some.inj henc)
    rw [encV, decodeStallWord_imm _ (encX_opcF _ (by decide) _ _ _ _ _ _) (by decide) (by decide)]
    simp [decodeImm, whenZero]
  case vperm | vbcast | vget =>
    obtain ⟨rfl, rfl⟩ := Prod.mk.inj (Option.some.inj henc)
    rw [encV, decodeStallWord_vec _ (encX_opcF _ (by decide) _ _ _ _ _ _) (by decide)]
    simp [decodeVec, whenZero]
  case vcvt =>
    obtain ⟨rfl, rfl⟩ := Prod.mk.inj (Option.some.inj henc)
    rw [decodeStallWord_vec _ (encX_opcF _ (by decide) _ _ _ _ _ _) (by decide)]
    simp [decodeVec]
  case vrand | vrandc =>
    obtain ⟨rfl, rfl⟩ := Prod.mk.inj (Option.some.inj henc)
    rw [decodeStallWord_vec _ (encX_opcF _ (by decide) _ _ _ _ _ _) (by decide)]
    simpa [decodeVec, whenZero, Instr.fieldsOk] using hfields
  case vfma | vfms | vclamp =>
    obtain ⟨rfl, rfl⟩ := Prod.mk.inj (Option.some.inj henc)
    rw [decodeStallWord_vec _ (encW_opcF _ (by decide) _ _ _ _ _ _) (by decide)]
    simp [decodeVec]
  case vcvtmx =>
    obtain ⟨rfl, rfl⟩ := Prod.mk.inj (Option.some.inj henc)
    rw [decodeStallWord_vec _ (encU_opcF _ (by decide) _ _ _ _ _) (by decide)]
    simp [decodeVec, whenZero]
  all_goals cases henc

end Sys2Proof
end

section
/-!
SUPPORT, O18, O19 and O20. The checks of an access, and loads and stores of the stall's own local memory (R106, R125, R131).
-/

namespace Sys2Proof.Machine

/-! ### Checks (R125, R131) -/

theorem State.checkAccess_unmapped {s : State} {p t a n : Nat} (al : Nat) (h : s.mapped p (some t) a n = false) :
    s.checkAccess p t a n al = 0x0404 := if_pos h

theorem State.checkAccess_misaligned {s : State} {p t a n al : Nat} (h : s.mapped p (some t) a n = true) (ha : a % al ≠ 0) :
    s.checkAccess p t a n al = 0x0403 := by
  rw [State.checkAccess, if_neg (by simp [h]), if_pos ha]

theorem State.checkAccess_ok {s : State} {p t a n al : Nat} (h : s.mapped p (some t) a n = true) (ha : a % al = 0) :
    s.checkAccess p t a n al = 0 := by
  rw [State.checkAccess, if_neg (by simp [h]), if_neg (by simp [ha])]

/-- Outcome `o` is the stall fault that the check of `n` bytes at `ad` asks for, where it asks for one. -/
def Checked (s : State) (p t ad n al : Nat) (o : Out1) : Prop :=
  s.checkAccess p t ad n al ≠ 0 → o = .next (s.stallFault p t (s.checkAccess p t ad n al) (s.stall t).pc.toNat ad)

/-- An access that is checked raises E_ACCESS before E_ALIGN. -/
theorem Checked.faults {s : State} {p t ad n al : Nat} {o : Out1} (h : Checked s p t ad n al o) :
    (s.mapped p (some t) ad n = false → o = .next (s.stallFault p t 0x0404 (s.stall t).pc.toNat ad)) ∧
    (s.mapped p (some t) ad n = true → ad % al ≠ 0 → o = .next (s.stallFault p t 0x0403 (s.stall t).pc.toNat ad)) := by
  constructor
  · intro hmap
    have hcode := State.checkAccess_unmapped al hmap
    rw [Checked, hcode] at h
    exact h (by decide)
  · intro hmap ha
    have hcode := State.checkAccess_misaligned hmap ha
    rw [Checked, hcode] at h
    exact h (by decide)

section
variable {s : State} {t p : Nat} {a b : BitVec 5}

theorem execLoad_checked (h : s.canRun t p [a.toNat]) (imm : BitVec 15) (n al : Nat) (signed : Bool) (dst : Option Nat) :
    Checked s p t ((s.stall t).getG a + imm64 imm).toNat n al (execLoad t a imm n al signed dst s) := fun hc => by
  rw [execLoad, issue_run h]
  exact if_pos hc

theorem execStore_checked {rs : List Nat} (h : s.canRun t p rs) (addr : Stall → Nat) (v : Stall → BitVec 1024)
    (mask : Stall → BitVec 128) (n al : Nat) :
    Checked s p t (addr (s.stall t)) n al (execStore t rs addr v mask n al s) := fun hc => by
  rw [execStore, issue_run h]
  exact if_pos hc

theorem execAadd_checked (h : s.canRun t p [a.toNat, b.toNat]) {fn : BitVec 5} {n : Nat} (hn : aaddSize fn.toNat = some n) :
    Checked s p t ((s.stall t).getG a).toNat n n (execAadd t a b fn s) := fun hc => by
  rw [execAadd, hn]
  dsimp only
  rw [issue_run h]
  exact if_pos hc

theorem execAcas_checked {c : BitVec 5} (h : s.canRun t p [a.toNat, b.toNat, c.toNat]) (d : BitVec 5) :
    Checked s p t ((s.stall t).getG a).toNat 8 8 (execAcas t d a b c s) := fun hc => by
  rw [execAcas, issue_run h]
  exact if_pos hc

end

/-- Settles O20: every form is checked at its own address, width and alignment. -/
theorem accessChecks : Obligations.AccessChecks := by
  intro s st p d a b c imm q fn h x At F
  have ha : s.canRun st p [a.toNat] := h.mono (by simp)
  have hda : s.canRun st p [d.toNat, a.toNat] := h.mono (by simp)
  have hva : s.canRun st p [vreg d.toNat, a.toNat] := h.mono (by simp)
  have hvab : s.canRun st p [vreg d.toNat, a.toNat, b.toNat] := h.mono (by simp)
  have hab : s.canRun st p [a.toNat, b.toNat] := h.mono (by simp)
  have habc : s.canRun st p [a.toNat, b.toNat, c.toNat] := h.mono (by simp)
  have load (n al : Nat) (signed : Bool) (dst : Option Nat) := (execLoad_checked ha imm n al signed dst).faults
  have store (n : Nat) := (execStore_checked hda (fun x => (x.getG a + imm64 imm).toNat)
    (fun x => BitVec.ofNat 1024 ((x.getG d).toNat % 2 ^ (8 * n))) (fun _ => maskOf n) n n).faults
  have hvst := (execStore_checked hva (fun x => (x.getG a + imm64 imm).toNat) (fun x => x.getV d)
    (fun _ => BitVec.allOnes 128) 128 32).faults
  have hvstp := (execStore_checked hvab (fun x => (x.getG a + x.getG b).toNat) (fun x => x.getV d)
    (fun x => x.getP q.toNat) 128 32).faults
  exact ⟨load 1 1 true (gdst d), load 1 1 false (gdst d), store 1, load 2 2 true (gdst d), load 4 4 true (gdst d),
    load 8 8 true (gdst d), load 2 2 false (gdst d), load 4 4 false (gdst d), load 128 32 false (some (vreg d.toNat)),
    store 2, store 4, store 8, hvst, hvstp, (execAcas_checked habc d).faults, fun n hn => (execAadd_checked hab hn).faults⟩

/-! ### The stall's own local memory (R125) -/

theorem State.phys_local (s : State) (p t : Nat) {a : Nat} (h : a < 2 ^ 18) : s.phys p (some t) a = some (stallKey t a) := by
  rw [State.phys, if_pos h]
  rfl

theorem State.mapped_local (s : State) (p t : Nat) {a n : Nat} (h : a + n ≤ 2 ^ 18) : s.mapped p (some t) a n = true := by
  rw [State.mapped]
  rcases Nat.eq_zero_or_pos n with hn | hn
  · simp [hn]
  · rw [Bool.or_eq_true, List.all_eq_true]
    refine .inr fun i hi => ?_
    rw [List.mem_range] at hi
    have hlt : (if i = 0 then a else 32 * (a / 32 + i)) < 2 ^ 18 := by split <;> omega
    rw [s.phys_local p t hlt]
    rfl

/-- The parts of an access of `n` bytes within local memory at `a`, before any is performed. -/
def localPart (t a n i : Nat) : APart := { phys := stallKey t (a + 32 * i), len := min n 32, off := 32 * i, stage := .issued, data := [] }

theorem State.mkParts_local (s : State) (p t : Nat) {a n : Nat} (hn : 0 < n) (h : a + n ≤ 2 ^ 18) :
    s.mkParts p t a n = (List.range (max 1 (n / 32))).map (localPart t a n) := by
  rw [State.mkParts, ← List.filterMap_eq_map]
  refine List.filterMap_congr fun i hi => ?_
  rw [List.mem_range] at hi
  rw [s.phys_local p t (by omega)]
  rfl

/-- The places of the parts within an access: one of all its bytes, or one for each sector (R125). -/
theorem part_offset {n i : Nat} (hi : i < max 1 (n / 32)) : 32 * i = min n 32 * i := by
  rcases Nat.lt_or_ge n 32 with hn | hn
  · have hzero : i = 0 := by omega
    simp [hzero]
  · rw [Nat.min_eq_right hn]

/-- A part within local memory takes no tag (R126). -/
theorem tagged_local {t : Nat} {a : Access} (h : ∀ q ∈ a.parts, ∃ i, i < 2 ^ 18 ∧ q.phys = stallKey t i) : a.tagged t = false := by
  rw [Access.tagged, List.any_eq_false]
  intro q hq
  obtain ⟨i, hi, hphys⟩ := h q hq
  rw [hphys]
  rw [decide_eq_true_eq, not_not, stallKey, stallKey]
  omega

theorem mem_mkParts_local {s : State} {p t a n : Nat} (hn : 0 < n) (h : a + n ≤ 2 ^ 18) {q : APart} (hq : q ∈ s.mkParts p t a n) :
    ∃ i, i < 2 ^ 18 ∧ q.phys = stallKey t i := by
  rw [s.mkParts_local p t hn h, List.mem_map] at hq
  obtain ⟨i, hi, rfl⟩ := hq
  rw [List.mem_range] at hi
  exact ⟨a + 32 * i, by omega, rfl⟩

/-- With nothing outstanding an access of the stall's own memory is performed at once (R120, R126). -/
theorem launch_local {s : State} {t : Nat} {x : Stall} {a : Access} (now : Stall → Stall) (hacc : x.acc = []) (hwaits : x.waits = [])
    (hown : a.tagged t = false) (hkind : a.kind = .load ∨ a.kind = .store) :
    launch t a now s x = .next ((if a.kind = .store then (s.writeAll (a.parts.flatMap (storeBytes a))).1 else s).setStall t
      (now x).advance) := by
  have hmay (b : Access) (q : APart) : x.mayPerform b q = true := by simp [Stall.mayPerform, Stall.before, hacc, hwaits]
  have hall (l : List APart) (b : Access) : l.all (fun q => x.mayPerform b q) = true := by simp [hmay]
  simp only [launch, hown, hall, hacc, List.all_nil, Bool.not_false, Bool.and_true, hkind, and_self, if_true]

/-! ### Loads (R106, R125) -/

theorem Stall.supersede_of_idle {x : Stall} (hacc : x.acc = []) (hwaits : x.waits = []) (r : Nat) : x.supersede r = x := by
  cases x
  dsimp only at hacc hwaits
  subst hacc hwaits
  rfl

/-- Consecutive runs of bytes make one. -/
theorem State.flatMap_getBytes (s : State) (k w m : Nat) :
    (List.range m).flatMap (fun i => s.getBytes (k + w * i) w) = s.getBytes k (w * m) := by
  have happend (n : Nat) : s.getBytes k (n + w) = s.getBytes k n ++ s.getBytes (k + n) w := by
    simp only [State.getBytes, List.range_add, List.map_append, List.map_map, Function.comp_def, Nat.add_assoc]
  induction m with
  | zero => rfl
  | succ m ih => rw [List.range_succ, List.flatMap_append, ih, Nat.mul_succ, happend]; simp

section
variable {s : State} {t p : Nat} {a : BitVec 5} (h : s.canRun t p [a.toNat]) (hacc : (s.stall t).acc = [])
  (hwaits : (s.stall t).waits = []) {imm : BitVec 15} {n al : Nat} (hn : 0 < n) (hparts : min n 32 * max 1 (n / 32) = n)
  (hlt : ((s.stall t).getG a + imm64 imm).toNat + n ≤ 2 ^ 18) (hal : ((s.stall t).getG a + imm64 imm).toNat % al = 0)
include h hacc hwaits hn hparts hlt hal

/-- A load within local memory goes on with its destination written from memory. -/
theorem execLoad_local (signed : Bool) (dst : Option Nat) : ∃ b : Access, b.dst = dst ∧ b.signed = signed ∧ b.size = n ∧
    b.bytes = s.getBytes (stallKey t ((s.stall t).getG a + imm64 imm).toNat) n ∧
    execLoad t a imm n al signed dst s = .next (s.setStall t ((s.stall t).deliver b).advance) := by
  generalize had : ((s.stall t).getG a + imm64 imm).toNat = ad at hlt hal
  have hcheck := State.checkAccess_ok (s.mapped_local p t hlt) hal
  refine ⟨s.readNow { mkAccess (s.stall t) .load ad n (s.mkParts p t ad n) with dst := dst, signed := signed }, rfl, rfl, rfl,
    ?bytes, ?exec⟩
  case bytes =>
    rw [Access.bytes, State.readNow, mkAccess]
    simp only [s.mkParts_local p t hn hlt, List.map_map, List.flatMap_map]
    rw [← congrArg (s.getBytes (stallKey t ad)) hparts, ← s.flatMap_getBytes]
    refine List.flatMap_congr fun i hi => ?_
    rw [List.mem_range] at hi
    have hkey : stallKey t (ad + 32 * i) = stallKey t ad + min n 32 * i := by
      rw [← part_offset hi, stallKey, stallKey]
      omega
    exact congrArg (s.getBytes · (min n 32)) hkey
  case exec =>
    rw [execLoad, issue_run h]
    simp only [had, hcheck]
    rw [if_neg (by decide), launch_local _ hacc hwaits (tagged_local fun q hq => mem_mkParts_local hn hlt hq) (.inl rfl)]
    cases dst <;> simp [mkAccess, Stall.supersede_of_idle hacc hwaits]

/-- A load of a g register within local memory. -/
theorem execLoad_local_g (d : BitVec 5) (signed : Bool) {v : BitVec 64}
    (hv : extend signed (8 * n) (ofBytes (s.getBytes (stallKey t ((s.stall t).getG a + imm64 imm).toNat) n)) = v) :
    Alters s t (execLoad t a imm n al signed (gdst d) s) fun y => GWrite (s.stall t) y d v 0 := by
  obtain ⟨b, hdst, hsigned, hsize, hbytes, hexec⟩ := execLoad_local h hacc hwaits hn hparts hlt hal signed (gdst d)
  have hdo : ((s.stall t).deliver b).advance = (s.stall t).doG d (v, 0) := by
    rw [Stall.deliver, hdst, hsigned, hsize, hbytes, hv, Stall.doG, Stall.setG, Stall.supersede_of_idle hacc hwaits]
    by_cases hd : d = 31
    · subst hd
      simp [gdst, Stall.putG, Stall.flag]
    · have hlt32 := d.isLt
      rw [gdst, if_neg hd]
      dsimp only
      rw [if_pos hlt32]
      simp [Stall.flag]
  exact ⟨_, hexec.trans (by rw [hdo]), Stall.doG_gwrite _ _ _⟩

/-- A load of a v register within local memory. -/
theorem execLoad_local_v (d : BitVec 5) {v : BitVec 1024}
    (hv : BitVec.ofNat 1024 (ofBytes (s.getBytes (stallKey t ((s.stall t).getG a + imm64 imm).toNat) n)) = v) :
    Alters s t (execLoad t a imm n al false (some (vreg d.toNat)) s) fun y => VLoad (s.stall t) y d v ∧ y.g = (s.stall t).g ∧
      y.p = (s.stall t).p ∧ y.pc = (s.stall t).pc + 4 ∧ y.astat = (s.stall t).astat := by
  obtain ⟨b, hdst, -, -, hbytes, hexec⟩ := execLoad_local h hacc hwaits hn hparts hlt hal false (some (vreg d.toNat))
  have hdeliver : (s.stall t).deliver b = (s.stall t).setV d v := by
    rw [Stall.deliver, hdst, hbytes, hv, Stall.setV, Stall.supersede_of_idle hacc hwaits]
    dsimp only
    rw [if_neg (by rw [vreg]; omega), vreg, Nat.add_sub_cancel_left]
  rw [hdeliver] at hexec
  exact ⟨_, hexec, VLoad.of_setV rfl rfl rfl, rfl, rfl, rfl, rfl⟩

end

/-- An aligned access of a size that divides that of local memory and begins within it ends within it. -/
theorem fits_of_aligned {a n m : Nat} (hdvd : n ∣ m) (hlt : a < m) (hal : a % n = 0) : a + n ≤ m := by
  obtain ⟨k, rfl⟩ := Nat.dvd_of_mod_eq_zero hal
  obtain ⟨j, rfl⟩ := hdvd
  have hkj : k < j := Nat.lt_of_mul_lt_mul_left hlt
  calc n * k + n = n * (k + 1) := (Nat.mul_succ n k).symm
    _ ≤ n * j := Nat.mul_le_mul_left n hkj

/-- Settles O18: each form reads the bytes at its address. -/
theorem localLoads : Obligations.LocalLoads := by
  intro s st p d a imm h hacc hwaits x ad m L
  have load {n : Nat} (hn : 0 < n) (hdvd : n ∣ 2 ^ 18) (hparts : min n 32 * max 1 (n / 32) = n) (signed : Bool) {v : BitVec 64}
      (hv : extend signed (8 * n) (m n) = v) (hlt : ad < 2 ^ 18) (hal : ad % n = 0) :
      Alters s st (execLoad st a imm n n signed (gdst d) s) fun y => GWrite x y d v 0 :=
    execLoad_local_g h hacc hwaits hn hparts (fits_of_aligned hdvd hlt hal) hal d signed hv
  have hzero (n : Nat) : extend false (8 * n) (m n) = BitVec.ofNat 64 (m n) := by
    have hm := ofBytes_lt (s.getBytes (stallKey st ad) n)
    rw [State.getBytes_length, show (256 : Nat) = 2 ^ 8 from rfl, ← pow_mul] at hm
    exact extend_eq false hm
  have hword : extend true (8 * 8) (m 8) = BitVec.ofNat 64 (m 8) := by rw [extend, if_pos rfl, sext_eq, BitVec.signExtend_eq]
  refine ⟨load (by decide) (by decide) (by decide) true rfl, load (by decide) (by decide) (by decide) false (hzero 1),
    load (by decide) (by decide) (by decide) true rfl, load (by decide) (by decide) (by decide) false (hzero 2),
    load (by decide) (by decide) (by decide) true rfl, load (by decide) (by decide) (by decide) false (hzero 4),
    load (by decide) (by decide) (by decide) true hword, fun hfits hal => ?_⟩
  exact execLoad_local_v h hacc hwaits (n := 128) (by decide) (by decide) hfits hal d rfl

end Sys2Proof.Machine
end

section
/-!
SUPPORT, O19 and O39. What a write of keyed bytes outside HBM leaves (R125, R246), and stores to the stall's own local memory.
-/

namespace Sys2Proof.Machine

/-! ### Writes of keyed bytes outside HBM (R246) -/

/-- Bytes are stored at their keys, in order. -/
def State.setBytes (s : State) (kvs : List (Nat × Byte)) : State := kvs.foldl (fun s kv => s.setByte kv.1 kv.2) s

theorem State.setBytes_append (s : State) (kvs lvs : List (Nat × Byte)) :
    s.setBytes (kvs ++ lvs) = (s.setBytes kvs).setBytes lvs := List.foldl_append

theorem State.setBytes_eq (s : State) (kvs : List (Nat × Byte)) : ∃ m, s.setBytes kvs = { s with mem := m } := by
  induction kvs generalizing s with
  | nil => exact ⟨s.mem, rfl⟩
  | cons kv kvs ih =>
    obtain ⟨m, hm⟩ := ih (s.setByte kv.1 kv.2)
    exact ⟨m, hm⟩

/-- Error correction has no part in what is stored. -/
theorem State.setBytes_ecc (s : State) (e : FMap (BitVec 288)) (kvs : List (Nat × Byte)) :
    ({ s with ecc := e } : State).setBytes kvs = { s.setBytes kvs with ecc := e } := by
  induction kvs generalizing s with
  | nil => rfl
  | cons kv kvs ih => exact ih (s.setByte kv.1 kv.2)

/-- A byte after the bytes of a function of the key are stored at some keys. -/
theorem State.byte_setBytes {s : State} {kvs : List (Nat × Byte)} {f : Nat → Byte} (hf : ∀ kv ∈ kvs, kv.2 = f kv.1) (k : Nat) :
    (s.setBytes kvs).byte k = if k ∈ kvs.map Prod.fst then f k else s.byte k := by
  induction kvs generalizing s with
  | nil => rfl
  | cons kv kvs ih =>
    change ((s.setByte kv.1 kv.2).setBytes kvs).byte k = _
    rw [ih (fun lv hlv => hf lv (.tail _ hlv)), State.byte_setByte, hf kv (.head _)]
    by_cases hk : k = kv.1
    · subst hk
      simp
    · simp [hk]

theorem State.putKeyed_near (s : State) (kvs : List (Nat × Byte)) : ∃ e, s.putKeyed kvs = { s.setBytes kvs with ecc := e } := by
  rw [State.putKeyed]
  split
  · exact ⟨_, s.setBytes_ecc _ kvs⟩
  · exact ⟨s.ecc, (s.setBytes_ecc s.ecc kvs)⟩

theorem bySector_flatten (kvs : List (Nat × Byte)) : (bySector kvs).flatten = kvs := by
  induction kvs with
  | nil => rfl
  | cons kv kvs ih =>
    rw [bySector]
    split
    · next h => rw [h] at ih; simp [← ih]
    · next h => rw [h] at ih; simp [← ih]
    · next h => rw [h] at ih; split <;> simp [← ih]

/-- A group of keyed bytes outside HBM is stored without a read. -/
theorem State.writeKeys_near {s : State} {kvs : List (Nat × Byte)} (h : ∀ kv ∈ kvs, isHbm kv.1 = false) :
    ∃ e, s.writeKeys kvs = ({ s.setBytes kvs with ecc := e }, false) := by
  match kvs, h with
  | [], _ => exact ⟨s.ecc, rfl⟩
  | (k, v) :: kvs, h =>
    obtain ⟨e, he⟩ := s.putKeyed_near ((k, v) :: kvs)
    have hk : isHbm k = false := h (k, v) (.head _)
    exact ⟨e, by simp [State.writeKeys, hk, he]⟩

/-- Keyed bytes outside HBM are stored, and nothing but check symbols changes besides. -/
theorem State.writeAll_near {s : State} {kvs : List (Nat × Byte)} (h : ∀ kv ∈ kvs, isHbm kv.1 = false) :
    ∃ e, s.writeAll kvs = ({ s.setBytes kvs with ecc := e }, false) := by
  have hgroups : ∀ (gs : List (List (Nat × Byte))) (s : State), (∀ g ∈ gs, ∀ kv ∈ g, isHbm kv.1 = false) →
      ∃ e, gs.foldl (fun (acc : State × Bool) g => let (s', b) := acc.1.writeKeys g; (s', acc.2 || b)) (s, false) =
        ({ s.setBytes gs.flatten with ecc := e }, false) := by
    intro gs
    induction gs with
    | nil => exact fun s _ => ⟨s.ecc, rfl⟩
    | cons g gs ih =>
      intro s hg
      obtain ⟨e, he⟩ := State.writeKeys_near (s := s) (hg g (.head _))
      obtain ⟨e', he'⟩ := ih { s.setBytes g with ecc := e } (fun f hf => hg f (.tail _ hf))
      refine ⟨e', ?_⟩
      rw [List.foldl_cons, he, List.flatten_cons, State.setBytes_append]
      simp only [Bool.or_false]
      rw [he', State.setBytes_ecc]
  obtain ⟨e, he⟩ := hgroups (bySector kvs) s fun g hg kv hkv => h kv (by
    rw [← bySector_flatten kvs]
    exact List.mem_flatten.mpr ⟨g, hg, hkv⟩)
  rw [bySector_flatten] at he
  exact ⟨e, he⟩

/-! ### Stores (R106, R125) -/

theorem isHbm_stallKey {t i : Nat} (ht : t < 1024) (hi : i < 2 ^ 18) : isHbm (stallKey t i) = false := by
  rw [isHbm, decide_eq_false_iff_not, stallKey]
  omega

/-- A key of a part of an access that is stored, and the byte stored there. -/
theorem mem_storeBytes {a : Access} {q : APart} {kv : Nat × Byte} : kv ∈ storeBytes a q ↔
    ∃ i, i < q.len ∧ a.mask.getLsbD (q.off + i) = true ∧
      kv = (q.phys + i, BitVec.ofNat 8 (a.value.toNat >>> (8 * (q.off + i)))) := by
  rw [storeBytes, List.mem_filterMap]
  constructor
  · rintro ⟨i, hi, hkv⟩
    rw [List.mem_range] at hi
    split at hkv
    · next hmask => exact ⟨i, hi, hmask, (Option.some.inj hkv).symm⟩
    · cases hkv
  · rintro ⟨i, hi, hmask, rfl⟩
    exact ⟨i, List.mem_range.mpr hi, by rw [if_pos hmask]⟩

/-- The bytes an access of local memory stores are those of its mask, whichever of its parts hold them. -/
theorem mem_localStores {a : Access} {t ad n : Nat} (hparts : min n 32 * max 1 (n / 32) = n)
    (ha : a.parts = ((List.range (max 1 (n / 32))).map (localPart t ad n)).filter a.storesIn) {kv : Nat × Byte} :
    kv ∈ a.parts.flatMap (storeBytes a) ↔
      ∃ j, j < n ∧ a.mask.getLsbD j = true ∧ kv = (stallKey t ad + j, BitVec.ofNat 8 (a.value.toNat >>> (8 * j))) := by
  have hkey (i j : Nat) : stallKey t (ad + 32 * i) + j = stallKey t ad + (32 * i + j) := by
    rw [stallKey, stallKey]
    omega
  simp only [ha, List.mem_flatMap, List.mem_filter, List.mem_map, List.mem_range, mem_storeBytes]
  constructor
  · rintro ⟨q, ⟨⟨i, hi, rfl⟩, -⟩, j, hj, hmask, rfl⟩
    have hlt : 32 * i + j < n := by
      have hstep : min n 32 * (i + 1) ≤ min n 32 * max 1 (n / 32) := Nat.mul_le_mul_left _ hi
      have hj' : j < min n 32 := hj
      rw [part_offset hi]
      rw [hparts, Nat.mul_succ] at hstep
      omega
    exact ⟨32 * i + j, hlt, hmask, by rw [← hkey]; rfl⟩
  · rintro ⟨j, hj, hmask, rfl⟩
    have hsplit : 32 * (j / 32) + j % 32 = j := Nat.div_add_mod j 32
    have hi : j / 32 < max 1 (n / 32) := by
      rcases Nat.lt_or_ge n 32 with hn | hn
      · omega
      · rw [Nat.min_eq_right hn] at hparts
        omega
    have hlen : j % 32 < min n 32 := by omega
    have hmask' : a.mask.getLsbD (32 * (j / 32) + j % 32) = true := by rw [hsplit]; exact hmask
    refine ⟨localPart t ad n (j / 32), ⟨⟨_, hi, rfl⟩, ?_⟩, j % 32, hlen, hmask', ?_⟩
    · exact List.any_eq_true.mpr ⟨j % 32, List.mem_range.mpr hlen, hmask'⟩
    · change _ = (stallKey t (ad + 32 * (j / 32)) + j % 32, BitVec.ofNat 8 (a.value.toNat >>> (8 * (32 * (j / 32) + j % 32))))
      rw [hkey, hsplit]

/-- The byte at place `i` of a number. -/
theorem ofNat_shiftRight_bytes (v i : Nat) : BitVec.ofNat 8 (v >>> (8 * i)) = BitVec.ofNat 8 (v / 256 ^ i) := by
  rw [Nat.shiftRight_eq_div_pow, pow_mul]
  rfl

section
variable {s : State} {t p : Nat} {rs : List Nat} (h : s.canRun t p rs) (hacc : (s.stall t).acc = [])
  (hwaits : (s.stall t).waits = []) {n al : Nat} (hn : 0 < n) (hparts : min n 32 * max 1 (n / 32) = n)
  {addr : Stall → Nat} (hlt : addr (s.stall t) + n ≤ 2 ^ 18) (hal : addr (s.stall t) % al = 0)
include h hacc hwaits hn hparts hlt hal

/-- A store within local memory writes the bytes of its mask, and goes on. -/
theorem execStore_local {v : Stall → BitVec 1024} {mask : Stall → BitVec 128} {w : Nat} {m : Nat → Bool}
    (hv : ∀ j, j < n → BitVec.ofNat 8 ((v (s.stall t)).toNat / 256 ^ j) = BitVec.ofNat 8 (w / 256 ^ j))
    (hm : ∀ j, j < n → (mask (s.stall t)).getLsbD j = m j) :
    Answers (execStore t rs addr v mask n al s) fun u =>
      (∀ k, u.byte k = if stallKey t (addr (s.stall t)) ≤ k ∧ k < stallKey t (addr (s.stall t)) + n ∧
          m (k - stallKey t (addr (s.stall t)))
        then BitVec.ofNat 8 (w / 256 ^ (k - stallKey t (addr (s.stall t)))) else s.byte k) ∧
      u.stall t = { s.stall t with pc := (s.stall t).pc + 4 } ∧ (∀ j, j ≠ t → u.stall j = s.stall j) ∧ u.objs = s.objs ∧
      u.sheds = s.sheds := by
  obtain ⟨ht, -, -⟩ := id h
  generalize had : addr (s.stall t) = ad at hlt hal
  have hcheck := State.checkAccess_ok (s.mapped_local p t hlt) hal
  generalize ha : ({ mkAccess (s.stall t) .store ad n [] with
    value := v (s.stall t), mask := mask (s.stall t) } : Access) = a
  have hexec : execStore t rs addr v mask n al s = launch t { a with parts := (s.mkParts p t ad n).filter a.storesIn } id s (s.stall t) := by
    rw [execStore, issue_run h]
    simp only [had, hcheck, ← ha, ne_eq, not_true_eq_false, if_false]
  generalize hb : ({ a with parts := (s.mkParts p t ad n).filter a.storesIn } : Access) = b at hexec
  have hkind : b.kind = .store := by rw [← hb, ← ha]; rfl
  have hparts' : b.parts = ((List.range (max 1 (n / 32))).map (localPart t ad n)).filter b.storesIn := by
    rw [← hb, ← s.mkParts_local p t hn hlt]
    rfl
  have hown : b.tagged t = false := tagged_local fun q hq => by
    rw [hparts', ← s.mkParts_local p t hn hlt] at hq
    exact mem_mkParts_local hn hlt (List.mem_filter.mp hq).1
  have hvalue : b.value = v (s.stall t) := by rw [← hb, ← ha]
  have hmask : b.mask = mask (s.stall t) := by rw [← hb, ← ha]
  have hmem {kv : Nat × Byte} := mem_localStores (kv := kv) hparts hparts'
  have hnear : ∀ kv ∈ b.parts.flatMap (storeBytes b), isHbm kv.1 = false := fun kv hkv => by
    obtain ⟨j, hj, -, rfl⟩ := hmem.mp hkv
    have hkey : stallKey t ad + j = stallKey t (ad + j) := by rw [stallKey, stallKey, Nat.add_assoc]
    rw [hkey]
    exact isHbm_stallKey ht (by omega)
  obtain ⟨e, he⟩ := State.writeAll_near (s := s) hnear
  obtain ⟨mem, hset⟩ := s.setBytes_eq (b.parts.flatMap (storeBytes b))
  have hbytes := State.byte_setBytes (s := s) (kvs := b.parts.flatMap (storeBytes b))
    (f := fun k => BitVec.ofNat 8 (w / 256 ^ (k - stallKey t ad))) fun kv hkv => by
      obtain ⟨j, hj, -, rfl⟩ := hmem.mp hkv
      rw [ofNat_shiftRight_bytes, hvalue, hv j hj, Nat.add_sub_cancel_left]
  have hstored (k : Nat) : k ∈ (b.parts.flatMap (storeBytes b)).map Prod.fst ↔
      stallKey t ad ≤ k ∧ k < stallKey t ad + n ∧ m (k - stallKey t ad) = true := by
    rw [List.mem_map]
    constructor
    · rintro ⟨kv, hkv, rfl⟩
      obtain ⟨j, hj, hbit, rfl⟩ := hmem.mp hkv
      rw [hmask, hm j hj] at hbit
      exact ⟨by omega, by omega, by rwa [Nat.add_sub_cancel_left]⟩
    · rintro ⟨hle, hlt', hbit⟩
      refine ⟨_, hmem.mpr ⟨k - stallKey t ad, by omega, ?_, rfl⟩, by omega⟩
      rwa [hmask, hm _ (by omega)]
  rw [hexec, launch_local id hacc hwaits hown (.inr hkind), if_pos hkind, he, hset]
  refine ⟨_, rfl, fun k => ?_, State.setStall_same .., fun j hj => State.setStall_ne _ _ _ hj, rfl, rfl⟩
  have hbyte := hbytes k
  rw [hset] at hbyte
  simp only [hstored] at hbyte
  exact hbyte

end

/-- The low bytes of a number are those of its remainder. -/
theorem ofNat_mod_byte {x n j : Nat} (hj : j < n) : BitVec.ofNat 8 (x % 2 ^ (8 * n) / 256 ^ j) = BitVec.ofNat 8 (x / 256 ^ j) := by
  have hwidth : 8 * n = 8 * j + (8 + 8 * (n - j - 1)) := by omega
  refine BitVec.eq_of_toNat_eq ?_
  rw [BitVec.toNat_ofNat, BitVec.toNat_ofNat, hwidth, pow_add, show (256 : Nat) ^ j = 2 ^ (8 * j) from (pow_mul 2 8 j).symm,
    Nat.mod_mul_right_div_self]
  exact Nat.mod_mod_of_dvd _ (pow_dvd_pow 2 (Nat.le_add_right 8 _))

/-- A register holds the low bytes that a store of `n` bytes takes. -/
theorem lowBytes_byte (r : BitVec 64) {n j : Nat} (hj : j < n) :
    BitVec.ofNat 8 ((BitVec.ofNat 1024 (r.toNat % 2 ^ (8 * n))).toNat / 256 ^ j) = BitVec.ofNat 8 (r.toNat / 256 ^ j) := by
  have hlow : r.toNat % 2 ^ (8 * n) < 2 ^ 1024 :=
    (Nat.mod_le _ _).trans_lt (r.isLt.trans (Nat.pow_lt_pow_right (by decide) (by decide)))
  rw [BitVec.toNat_ofNat, Nat.mod_eq_of_lt hlow, ofNat_mod_byte hj]

theorem maskOf_getLsbD {n j : Nat} (hn : n ≤ 128) (hj : j < n) : (maskOf n).getLsbD j = true := by
  rw [maskOf, BitVec.getLsbD_ofNat, Nat.testBit_two_pow_sub_one]
  simp
  omega

/-- Settles O19: every form is a store of its bytes under its mask. -/
theorem localStores : Obligations.LocalStores := by
  intro s st p d a b imm q h hacc hwaits x ad av S
  have hda : s.canRun st p [d.toNat, a.toNat] := h.mono (by simp)
  have hva : s.canRun st p [vreg d.toNat, a.toNat] := h.mono (by simp)
  have hvab : s.canRun st p [vreg d.toNat, a.toNat, b.toNat] := h.mono (by simp)
  have store {n : Nat} (hn : 0 < n) (hle : n ≤ 8) (hlt : ad + n ≤ 2 ^ 18) (hal : ad % n = 0) :=
    execStore_local hda hacc hwaits (addr := fun x => (x.getG a + imm64 imm).toNat) hn
      (by rw [Nat.min_eq_left (by omega), Nat.div_eq_of_lt (by omega), Nat.max_eq_left (Nat.zero_le 1), Nat.mul_one]) hlt hal (v := fun x => BitVec.ofNat 1024 ((x.getG d).toNat % 2 ^ (8 * n)))
      (mask := fun _ => maskOf n) (w := (x.getG d).toNat) (m := fun _ => true) (fun j hj => lowBytes_byte _ hj)
      (fun j hj => maskOf_getLsbD (by omega) hj)
  refine ⟨fun hlt hal _ => store (by decide) (by decide) hlt hal, fun hlt hal _ => store (by decide) (by decide) hlt hal,
    fun hlt hal _ => store (by decide) (by decide) hlt hal, fun hlt hal _ => store (by decide) (by decide) hlt hal,
    fun hlt hal _ => ?_, fun hlt hal _ => ?_⟩
  · exact execStore_local hva hacc hwaits (addr := fun x => (x.getG a + imm64 imm).toNat) (by decide) (by decide) hlt hal
      (v := fun x => x.getV d) (mask := fun _ => BitVec.allOnes 128) (fun _ _ => rfl)
      (fun j hj => by rw [BitVec.getLsbD_allOnes, decide_eq_true hj])
  · exact execStore_local hvab hacc hwaits (addr := fun x => (x.getG a + x.getG b).toNat) (by decide) (by decide) hlt hal
      (v := fun x => x.getV d) (mask := fun x => x.getP q.toNat) (fun _ _ => rfl) (fun _ _ => rfl)

end Sys2Proof.Machine
end

section
/-!
SUPPORT, O22. Atomics outside HBM (R109, R212).
-/

namespace Sys2Proof.Machine

/-- The element at the place a list is changed at. -/
theorem modifyAt_getElem? {α : Type} (l : List α) (k : Nat) (f : α → α) : (modifyAt l k f)[k]? = l[k]?.map f := by
  induction l generalizing k with
  | nil => rfl
  | cons x l ih =>
    cases k with
    | zero => rfl
    | succ k => simpa [modifyAt] using ih k

theorem getElem_toBytes {n x i : Nat} (hi : i < (toBytes n x).length) : (toBytes n x)[i] = BitVec.ofNat 8 (x / 256 ^ i) := by
  induction n generalizing x i with
  | zero => exact absurd hi (by simp [toBytes])
  | succ n ih =>
    cases i with
    | zero => simp [toBytes]
    | succ i =>
      have htail := ih (x := x / 256) (i := i) (by simpa [toBytes] using hi)
      rw [pow_succ', ← Nat.div_div_eq_div_mul]
      exact htail

/-- Bytes after the bytes of a number are written. -/
theorem State.byte_putBytes_toBytes (s : State) (k n x j : Nat) :
    (s.putBytes k (toBytes n x)).byte j = if k ≤ j ∧ j < k + n then BitVec.ofNat 8 (x / 256 ^ (j - k)) else s.byte j := by
  split
  · next h =>
    obtain ⟨i, rfl⟩ := Nat.exists_eq_add_of_le h.1
    have hi : i < (toBytes n x).length := by rw [toBytes_length]; omega
    rw [State.byte_putBytes_in hi, getElem_toBytes, Nat.add_sub_cancel_left]
  · next h => exact State.byte_putBytes_out _ _ _ _ (by rw [toBytes_length]; omega)

@[simp] theorem State.stall_putBytes (s : State) (k : Nat) (bs : List Byte) (j : Nat) : (s.putBytes k bs).stall j = s.stall j := by
  obtain ⟨m, hm⟩ := s.putBytes_eq k bs
  rw [hm]
  rfl

section
variable {s : State} {st k : Nat} {a : Access} {q : APart} (hst : st < 1024) (hacc : (s.stall st).acc[k]? = some a)
  (hpart : a.parts[0]? = some q)
include hacc

theorem setAcc_getElem? (b : Access) : ((s.stall st).setAcc k b).acc[k]? = some b := by
  rw [Stall.setAcc, modifyAt_getElem?, hacc]
  rfl

include hpart

/-- An integer AADD at its home (R212). -/
theorem State.performAtomic_aadd (hkind : a.kind = .aadd) (hfmt : a.fmt = 3 ∧ q.len = 4 ∨ a.fmt = 4 ∧ q.len = 8) :
    s.performAtomic st k false = (s.setStall st ((s.stall st).setAcc k (a.finish 0 []))).putBytes q.phys
      (toBytes q.len ((ofBytes (s.getBytes q.phys q.len) + a.value.toNat) % 2 ^ (8 * q.len))) := by
  have hsum : aaddSum a.fmt (ofBytes (s.getBytes q.phys q.len)) a.value.toNat =
      ((ofBytes (s.getBytes q.phys q.len) + a.value.toNat) % 2 ^ (8 * q.len), 0) := by
    obtain ⟨hf, hl⟩ | ⟨hf, hl⟩ := hfmt <;> rw [hf, hl] <;> rfl
  rw [State.performAtomic]
  simp only [hacc, hpart, hkind, hsum, Bool.false_eq_true, if_false]
  rfl

/-- An ACAS at its home. -/
theorem State.performAtomic_acas (hkind : a.kind = .acas) :
    s.performAtomic st k false =
      if ofBytes (s.getBytes q.phys q.len) = a.expect.toNat then
        (s.setStall st ((s.stall st).setAcc k (a.finish 0 (s.getBytes q.phys q.len)))).putBytes q.phys
          (toBytes 8 (a.value.toNat % 2 ^ 64))
      else s.setStall st ((s.stall st).setAcc k (a.finish 0 (s.getBytes q.phys q.len))) := by
  rw [State.performAtomic]
  simp only [hacc, hpart, hkind, Bool.false_eq_true, if_false]

include hst

/-- An atomic outside HBM that may be performed is performed. -/
theorem execAtomicAtHome_near (hkind : a.kind = .aadd ∨ a.kind = .acas) (hopen : q.open = true)
    (hmay : (s.stall st).mayPerform a q = true) (hnear : isHbm q.phys = false) :
    execAtomicAtHome st k s = .next (s.performAtomic st k false) := by
  rw [execAtomicAtHome, if_neg (by omega)]
  simp only [hacc, hpart]
  rw [if_pos ⟨hkind, hopen, hmay⟩, if_pos hnear]

end

/-- Settles O22: the one write of each atomic, and the access that holds its result. -/
theorem atomicAtHome : Obligations.AtomicAtHome := by
  intro s st k a q hst hacc hpart hopen hmay hnear _ old
  have hg (b : Access) : ((s.stall st).setAcc k b).g = (s.stall st).g := rfl
  constructor
  · intro hkind hfmt
    refine ⟨_, execAtomicAtHome_near hst hacc hpart (.inl hkind) hopen hmay hnear, ?_⟩
    rw [State.performAtomic_aadd hacc hpart hkind hfmt]
    refine ⟨fun j => ?_, ?_, ?_⟩
    · rw [State.byte_putBytes_toBytes, State.setStall_byte]
      split
      · next h => exact ofNat_mod_byte (by omega)
      · rfl
    · rw [State.stall_putBytes, State.setStall_same, setAcc_getElem? hacc]
    · rw [State.stall_putBytes, State.setStall_same, hg]
  · intro hkind hlen
    refine ⟨_, execAtomicAtHome_near hst hacc hpart (.inr hkind) hopen hmay hnear, ?_⟩
    have hvalue (j : Nat) (hj : j < 8) : BitVec.ofNat 8 (a.value.toNat % 2 ^ 64 / 256 ^ j) = BitVec.ofNat 8 (a.value.toNat / 256 ^ j) :=
      ofNat_mod_byte (n := 8) hj
    rw [State.performAtomic_acas hacc hpart hkind, hlen]
    have hold : old = ofBytes (s.getBytes q.phys 8) := by rw [← hlen]
    rw [hold]
    by_cases heq : ofBytes (s.getBytes q.phys 8) = a.expect.toNat
    · rw [if_pos heq]
      refine ⟨fun j => ?_, ?_⟩
      · rw [State.byte_putBytes_toBytes, State.setStall_byte]
        simp only [heq, and_true]
        split
        · next h => exact hvalue _ (by omega)
        · rfl
      · rw [State.stall_putBytes, State.setStall_same, setAcc_getElem? hacc]
    · rw [if_neg heq]
      refine ⟨fun j => ?_, ?_⟩
      · rw [State.setStall_byte, if_neg (fun h => heq h.2.2)]
      · rw [State.setStall_same, setAcc_getElem? hacc]

end Sys2Proof.Machine
end

section
/-!
SUPPORT, O23. An access that completes, and a load that met poison (R126, R131, R132).
-/

namespace Sys2Proof.Machine

/-! ### What a completed access leaves -/

/-- Retiring an event changes the event of the stall alone. -/
theorem Stall.settle_eq (x : Stall) : ∃ c r, x.settle = { x with cur := c, retire := r } := by
  unfold Stall.settle
  split
  · split
    · exact ⟨_, _, rfl⟩
    · exact ⟨_, _, rfl⟩
  · exact ⟨_, _, rfl⟩

/-- An access's destination takes what it returned: the g and v registers after it. -/
theorem Stall.deliver_eq (x : Stall) (a : Access) : ∃ g v, x.deliver a = { x with g := g, v := v } := by
  unfold Stall.deliver
  split
  · exact ⟨_, _, rfl⟩
  · split
    · unfold Stall.putG
      split <;> exact ⟨_, _, rfl⟩
    · exact ⟨_, _, rfl⟩

/-- Contexts that later loads saved change the outstanding accesses in their contexts alone. -/
theorem Stall.keep_eq (x : Stall) (n : Nat) (dst : Option Nat) (was : Option (Nat × Nat)) (v : BitVec 1024) :
    ∃ l, x.keep n dst was v = { x with acc := l } ∧
      l.map (fun b => { b with ctx := Ctx.empty }) = x.acc.map (fun b => { b with ctx := Ctx.empty }) := by
  refine ⟨_, rfl, ?_⟩
  rw [List.map_map]
  refine List.map_congr_left fun b _ => ?_
  simp only [Function.comp_apply]
  split
  · split
    · rfl
    · split <;> rfl
    · rfl
  · rfl

/-- What an access returned goes to its destination, and otherwise to saved contexts alone. -/
theorem Stall.giveBack_eq (x : Stall) (a : Access) : ∃ l, x.giveBack a = { x.deliver a with acc := l } ∧
    l.map (fun b => { b with ctx := Ctx.empty }) = x.acc.map (fun b => { b with ctx := Ctx.empty }) := by
  obtain ⟨g, v, hdeliver⟩ := x.deliver_eq a
  unfold Stall.giveBack
  dsimp only
  split
  · obtain ⟨l, hl, hctx⟩ := (x.deliver a).keep_eq a.seq a.dst a.was _
    exact ⟨l, hl, hctx.trans (by rw [hdeliver])⟩
  · exact ⟨x.acc, by rw [hdeliver], rfl⟩

/-- The g register an access has as destination holds the extended value (R106, R109). -/
theorem Stall.getG_deliver (x : Stall) {a : Access} {r : BitVec 5} (h : a.dst = some r.toNat) :
    (x.deliver a).getG r = if r = 31 then 0 else if a.signed then BitVec.ofInt 64 (toInt (8 * a.size) (ofBytes a.bytes))
      else BitVec.ofNat 64 (ofBytes a.bytes % 2 ^ (8 * a.size)) := by
  have hr := r.isLt
  have hread := x.getG_setG r r (extend a.signed (8 * a.size) (ofBytes a.bytes))
  rw [Stall.deliver, h]
  dsimp only
  rw [if_pos hr]
  by_cases h31 : r = 31
  · rw [if_pos h31, h31, Stall.getG_31]
  · have hput : (x.putG r.toNat (extend a.signed (8 * a.size) (ofBytes a.bytes))).getG r =
        (x.setG r (extend a.signed (8 * a.size) (ofBytes a.bytes))).getG r := by
      have hne : ¬ r.toNat = 31 := fun h => h31 (BitVec.eq_of_toNat_eq h)
      simp only [Stall.setG, Stall.putG, Stall.getG, if_neg hne, Stall.supersede_g]
    rw [hput, hread, if_neg h31, if_pos rfl, if_neg h31]
    rfl

/-- The v register an access has as destination holds the bytes it read. -/
theorem Stall.getV_deliver (x : Stall) {a : Access} {r : BitVec 5} (h : a.dst = some (32 + r.toNat)) :
    (x.deliver a).getV r = BitVec.ofNat 1024 (ofBytes a.bytes) := by
  rw [Stall.deliver, h]
  dsimp only
  rw [if_neg (by omega), Nat.add_sub_cancel_left]
  exact FMap.get_set_same _ _ _ _

/-! ### Completion (R126) -/

/-- Parts that are all performed leave nothing for the completion to perform. -/
theorem State.performNear_done (s : State) (st k : Nat) {a : Access} (h : ∀ q ∈ a.parts, q.open = false) : s.performNear st k a = s := by
  rw [State.performNear]
  refine foldl_keep (R := id) (P := fun _ => True) (fun _ _ _ => trivial) (fun u j _ _ => ?_) trivial
  split
  · next q hq => rw [if_neg (by simp [h q (List.mem_of_getElem? hq)])]
  · rfl

section
variable {s : State} {st k : Nat} {a : Access} (hst : st < 1024) (hacc : (s.stall st).acc[k]? = some a)
  (hdone : ∀ q ∈ a.parts, q.open = false)
include hst hacc hdone

/-- An access all of whose parts are performed completes. -/
theorem execLoadValueReturn_done : execLoadValueReturn st k s =
    if a.poison ∧ a.isLoad then
      (if (s.stall st).mode = .faulted then .next (s.setStall st ({ s.stall st with acc := (s.stall st).acc.eraseIdx k } : Stall).settle)
       else .next (s.poisonFault st a))
    else .next (s.setStall st ((({ s.stall st with acc := (s.stall st).acc.eraseIdx k } : Stall).giveBack a).settle)) := by
  have hnear : a.parts.filter (fun q => q.open && !(isHbm q.phys)) = [] :=
    List.filter_eq_nil_iff.mpr fun q hq => by simp [hdone q hq]
  have hfar : a.parts.any (fun q => q.open && isHbm q.phys) = false :=
    List.any_eq_false.mpr fun q hq => by simp [hdone q hq]
  rw [execLoadValueReturn, if_neg (Nat.not_le.mpr hst)]
  simp only [hacc, hnear, hfar, s.performNear_done st k hdone, removeAt_eq_eraseIdx]
  simp

end

/-! ### A load that met poison (R131, R132) -/

theorem State.dropRequests_eq (s : State) (t n : Nat) : ∃ e, s.dropRequests t n = { s with engines := e } := by
  unfold State.dropRequests
  generalize (s.stall t).acc.flatMap Access.parts = l
  induction l generalizing s with
  | nil => exact ⟨s.engines, rfl⟩
  | cons q l ih =>
    rw [List.foldl_cons]
    split
    · obtain ⟨e, he⟩ := ih (s.modEngine (engineOf q.phys) fun x =>
        { x with window := x.window.filter (fun r => decide (¬(r.stall = t ∧ n ≤ r.seq))) })
      exact ⟨e, he⟩
    · exact ih s

/-- The state in which a load that met poison stops its stall. -/
theorem State.poisonFault_stopped (s : State) (t : Nat) (a : Access) : ∃ u : State, u.stall t = ((s.stall t).backTo a).settle ∧
    (∀ j, j ≠ t → u.stall j = s.stall j) ∧ u.mem = s.mem ∧ u.objs = s.objs ∧ u.time = s.time ∧
    Stopped u (s.partOf t) t 0x0405 a.pc.toNat a.addr.toNat (s.poisonFault t a) := by
  obtain ⟨e, he⟩ := s.dropRequests_eq t a.seq
  refine ⟨({ s with engines := e } : State).modStall t (fun x => (x.backTo a).settle), State.setStall_same .., fun j hj =>
    State.setStall_ne _ _ _ hj, rfl, rfl, rfl, ?_⟩
  rw [State.poisonFault, he]
  exact State.stallFault_stopped ..

/-- Settles O23: what giving a value back leaves, and the fault of a load that met poison. -/
theorem accessCompletes : Obligations.AccessCompletes := by
  intro s st k a hst hacc hdone x
  refine ⟨fun hpoison => ?value, fun hpoison hload hmode => ?fault⟩
  case value =>
    have hexec := execLoadValueReturn_done hst hacc hdone
    rw [if_neg (by simp [hpoison])] at hexec
    generalize hy : ({ x with acc := x.acc.eraseIdx k } : Stall) = y at hexec
    obtain ⟨l, hback, hctx⟩ := y.giveBack_eq a
    obtain ⟨g, v, hdeliver⟩ := y.deliver_eq a
    obtain ⟨c, n, hsettle⟩ := (y.giveBack a).settle_eq
    have hg (r : BitVec 5) : (y.giveBack a).settle.getG r = (y.deliver a).getG r := by rw [hsettle, hback]; rfl
    have hv (r : BitVec 5) : (y.giveBack a).settle.getV r = (y.deliver a).getV r := by rw [hsettle, hback]; rfl
    have hrest : (y.giveBack a).settle = { y with g := g, v := v, acc := l, cur := c, retire := n } := by
      rw [hsettle, hback, hdeliver]
    refine ⟨_, hexec, ?acc, ?pc, ?mode, ?p, ?astat, fun r hr => (hg r).trans (y.getG_deliver hr),
      fun r hr => (hv r).trans (y.getV_deliver hr), fun hnone => ?_⟩
    case acc => rw [hrest, hctx, ← hy]
    case pc => rw [hrest, ← hy]
    case mode => rw [hrest, ← hy]
    case p => rw [hrest, ← hy]
    case astat => rw [hrest, ← hy]
    have hkept : y.deliver a = y := by rw [Stall.deliver, hnone]
    rw [hsettle, hback, hkept, ← hy]
    exact ⟨rfl, rfl⟩
  case fault =>
    have hexec := execLoadValueReturn_done hst hacc hdone
    rw [if_pos ⟨hpoison, hload⟩, if_neg hmode] at hexec
    obtain ⟨u, hstall, hothers, hmem, hobjs, htime, h⟩ := s.poisonFault_stopped st a
    obtain ⟨c, r, hsettle⟩ := Stall.settle_eq (x.backTo a)
    have hobj (k : Nat) : u.obj k = s.obj k := by rw [State.obj, hobjs, State.obj]
    refine ⟨_, hexec, ?_, h.mem.trans hmem, fun j hj => (h.others j hj).trans (hothers j hj), ?_, fun hfree => ?_⟩
    · dsimp only
      rw [h.stall, hstall, hsettle]
      exact ⟨rfl, by simp, rfl, rfl, rfl, rfl, rfl⟩
    · rw [h.count, hobj]
    · rw [h.record (by rw [hobj, hfree]), State.stepOf, hobj, htime, State.stepOf]

end Sys2Proof.Machine
end

section
/-!
SUPPORT, O25, O29. A push that enters a queue or a mailbox, that waits, and the head of a control issue queue
(R119, R121, R149).
-/

namespace Sys2Proof.Machine

/-! ### Entering a queue and waiting at a full one (R149) -/

/-- What a push leaves that enters queue `q` of shed `k` as event `e`. -/
structure Enqueued (s t : State) (k q : Nat) (e : Event) : Prop where
  stalls : t.stalls = s.stalls
  mesh   : t.mesh = s.mesh
  pushes : t.pushes = s.pushes
  delay  : (t.shed k).delay = (s.shed k).delay
  items  : ((t.shed k).queue q).items = ((s.shed k).queue q).items ++ [e]

section
variable (s : State) (k q kind : Nat) (ev : BitVec 256)

theorem Shed.queue_setQueue_same (x : Shed) (v : Queue) : (x.setQueue q v).queue q = v := FMap.get_set_same _ _ _ _

theorem State.shed_touch_same : (s.touch k).shed k = { s.shed k with busyAt := s.clock } := by
  simp [State.touch, State.modShed]

/-- A push other than an error event enters a queue with a free entry. -/
theorem State.enqueue_room (hkind : kind ≠ kindError) (hroom : ((s.shed k).queue q).items.length < qDepth ((s.shed k).queue q)) :
    ∃ t, s.enqueue k q kind ev = .ok t ∧ Enqueued s t k q (eventOf ((s.shed k).queue q) kind ev s.ctr) := by
  have hnot : ¬ qDepth ((s.shed k).queue q) + (if kind = kindError then 64 else 0) ≤ ((s.shed k).queue q).items.length := by
    rw [if_neg hkind]
    omega
  refine ⟨_, if_neg hnot, rfl, rfl, rfl, ?_, ?_⟩
  · simp [State.shed_touch_same, Shed.setQueue]
  · rw [State.shed_touch_same]
    show ((State.shed _ k).queue q).items = _
    rw [State.tick1_shed, State.setShed_same, Shed.queue_setQueue_same]

/-- It waits at a full queue, and sets QFULL. -/
theorem State.enqueue_full (hkind : kind ≠ kindError) (hfull : qDepth ((s.shed k).queue q) ≤ ((s.shed k).queue q).items.length) :
    s.enqueue k q kind ev = .wait (s.setShed k { s.shed k with qfull := true }) := by
  refine if_pos ?_
  rw [if_neg hkind]
  exact hfull

end

/-- The conditions under which a push that is no handle is offered to queue INDEX `qi` at once: no reserved bit, no delay,
and a plain enabled queue. -/
structure State.Offerable (s : State) (qi : Nat) (ev : BitVec 256) : Prop where
  reserved : evReserved ev = 0
  delay    : evDelay ev = 0
  enable   : qEnable ((s.shed (qi / 1024)).queue (qi % 1024)) = true
  joined   : qJoined ((s.shed (qi / 1024)).queue (qi % 1024)) = false
  partner  : (s.shed (qi / 1024)).isPartner (qi % 1024) = false

theorem State.Offerable.of_sheds {s t : State} {qi : Nat} {ev : BitVec 256} (h : s.Offerable qi ev) (hsheds : t.sheds = s.sheds) :
    t.Offerable qi ev := by
  obtain ⟨hreserved, hdelay, henable, hjoined, hpartner⟩ := h
  have hshed : ∀ j, t.shed j = s.shed j := fun j => congrArg (fun f => FMap.get (fun _ => Shed.reset) f j) hsheds
  exact ⟨hreserved, hdelay, by rwa [hshed], by rwa [hshed], by rwa [hshed]⟩

theorem State.pushQueue_offerable {s : State} {qi : Nat} {ev : BitVec 256} (h : s.Offerable qi ev) {kind : Nat}
    (stall part : Nat) :
    s.pushQueue qi kind stall part ev =
      if s.dueTo (qi / 1024) (.queue (qi % 1024)) then .wait s else s.enqueue (qi / 1024) (qi % 1024) kind ev := by
  obtain ⟨hreserved, hdelay, henable, hjoined, hpartner⟩ := h
  simp [State.pushQueue, hreserved, hdelay, henable, hjoined, hpartner]

theorem State.pushMail_of_ready (s : State) {t : Nat} {ev : BitVec 256} (hr : evReserved ev = 0) (hd : evDelay ev = 0)
    (hdue : s.dueTo (t / 32) (.mail t) = false) (stall part : Nat) : s.pushMail t stall part ev = s.enmail t ev := by
  simp [State.pushMail, hr, hd, hdue]

/-! ### The head of a control issue queue (R121) -/

section
variable {s : State} {st : Nat} {c : CtlOp} {rest : List CtlOp} (hst : st < 1024) (hctl : (s.stall st).ctl = c :: rest)
include hctl

theorem State.popCtl_eq : s.popCtl st = s.setStall st { s.stall st with ctl := rest } := by
  simp [State.popCtl, State.modStall, hctl]

include hst

theorem execControlIssue_waits (h : ∃ a ∈ (s.stall st).acc, a.seq < c.seq) : execControlIssue st s = .next s := by
  simp [execControlIssue, Nat.not_le.mpr hst, hctl, h]

variable (hearlier : ∀ a ∈ (s.stall st).acc, c.seq ≤ a.seq) (hclear : s.ctlClear st = true)
include hearlier hclear

/-- A CANCEL goes to the mesh. -/
theorem execControlIssue_cancel (hop : c.msg.op = .cancel) :
    execControlIssue st s = .next { s.setStall st { s.stall st with ctl := rest } with mesh := s.mesh ++ [c.msg] } := by
  have hnone : ¬ ∃ a ∈ (s.stall st).acc, a.seq < c.seq := fun ⟨a, ha, hlt⟩ => absurd (hearlier a ha) (by omega)
  simp [execControlIssue, Nat.not_le.mpr hst, hctl, hnone, hclear, hop, State.popCtl_eq hctl]

/-- An operation with a plain target that no push makes goes to the mesh. -/
theorem execControlIssue_plain {k i : Nat} (hplain : s.resolve c.msg.part c.msg.target.toNat c.msg.op.fits = .plain k i)
    (hop : c.msg.op ∈ [MOp.set, .clear, .test, .mx, .ucmd] ∨
      c.msg.op = .watch ∧ s.resolve c.msg.part c.msg.a2.toNat [3] ≠ .reject) :
    execControlIssue st s = .next { s.setStall st { s.stall st with ctl := rest } with mesh := s.mesh ++ [c.msg] } := by
  have hnone : ¬ ∃ a ∈ (s.stall st).acc, a.seq < c.seq := fun ⟨a, ha, hlt⟩ => absurd (hearlier a ha) (by omega)
  have hgood : ¬ (c.msg.op = .watch ∧ s.resolve c.msg.part c.msg.a2.toNat [3] = .reject) := by
    rintro ⟨hwatch, hbad⟩
    rcases hop with hop | ⟨_, hok⟩
    · simp [hwatch] at hop
    · exact hok hbad
  have hcancel : c.msg.op ≠ .cancel := by
    rcases hop with hop | ⟨hop, _⟩ <;> (intro h; simp [h] at hop)
  have hmesh : c.msg.op.isFlag = true ∨ c.msg.op = .mx ∨ c.msg.op = .ucmd := by
    rcases hop with hop | ⟨hop, _⟩
    · simp only [List.mem_cons, List.not_mem_nil, or_false] at hop
      rcases hop with hop | hop | hop | hop | hop <;> simp [hop, MOp.isFlag]
    · simp [hop, MOp.isFlag]
  unfold execControlIssue
  rw [if_neg (Nat.not_le.mpr hst)]
  simp only [hctl, List.any_eq_true, decide_eq_true_eq, hnone, hclear, hcancel, hgood, hplain, hmesh, if_true, if_false,
    Bool.true_eq_false, or_false, State.popCtl_eq hctl]

/-- An EVPUSH to a queue with room enters it. -/
theorem execControlIssue_evpush {k i : Nat} (hop : c.msg.op = .evpush)
    (hplain : s.resolve c.msg.part c.msg.target.toNat [3] = .plain k i)
    (hready : s.Offerable i (c.msg.data.setWidth 256)) (hdue : s.dueTo (i / 1024) (.queue (i % 1024)) = false)
    (hroom : ((s.shed (i / 1024)).queue (i % 1024)).items.length < qDepth ((s.shed (i / 1024)).queue (i % 1024))) :
    ∃ t, execControlIssue st s = .next t ∧ Enqueued (s.setStall st { s.stall st with ctl := rest }) t (i / 1024) (i % 1024)
      (eventOf ((s.shed (i / 1024)).queue (i % 1024)) kindEvpush (c.msg.data.setWidth 256) s.ctr) := by
  have hnone : ¬ ∃ a ∈ (s.stall st).acc, a.seq < c.seq := fun ⟨a, ha, hlt⟩ => absurd (hearlier a ha) (by omega)
  obtain ⟨t, hok, ht⟩ := (s.setStall st { s.stall st with ctl := rest }).enqueue_room (i / 1024) (i % 1024) kindEvpush
    (c.msg.data.setWidth 256) (by decide) hroom
  have hready' : (s.setStall st { s.stall st with ctl := rest }).Offerable i (c.msg.data.setWidth 256) :=
    hready.of_sheds rfl
  have hdue' : (s.setStall st { s.stall st with ctl := rest }).dueTo (i / 1024) (.queue (i % 1024)) = false := hdue
  have hpush := State.pushQueue_offerable hready' (kind := kindEvpush) c.msg.stall c.msg.part
  rw [hdue', if_neg Bool.false_ne_true, hok] at hpush
  refine ⟨t, ?_, ht⟩
  unfold execControlIssue
  rw [if_neg (Nat.not_le.mpr hst)]
  simp [hctl, hnone, hclear, hop, MOp.fits, MOp.isFlag, hplain, State.popCtl_eq hctl, State.pushPlain, hpush]

end

/-- Settles O25, by the cases of the head's operation. -/
theorem controlIssue : Obligations.ControlIssue := by
  unfold Obligations.ControlIssue
  intro s st c rest hst hctl
  refine ⟨execControlIssue_waits hst hctl, fun hearlier hclear => ⟨?_, ?_⟩⟩
  · rintro (hcancel | ⟨⟨k, i, hplain⟩, hop⟩)
    · exact execControlIssue_cancel hst hctl hearlier hclear hcancel
    · exact execControlIssue_plain hst hctl hearlier hclear hplain hop
  · intro k i hop hplain q ev henable hjoined hpartner hreserved hdelay hdue hroom
    obtain ⟨t, hok, ht⟩ := execControlIssue_evpush hst hctl hearlier hclear hop hplain
      ⟨hreserved, hdelay, henable, hjoined, hpartner⟩ hdue hroom
    refine ⟨t, hok, ?_, ht.mesh, ht.items⟩
    rw [State.stall, ht.stalls]
    exact congrArg Stall.ctl (State.setStall_same ..)

/-! ### Reports of sub-watches (R143) -/

section
variable {s : State} {k sh i n : Nat} {m : Mesh} {w : Watch} (hm : s.mesh[k]? = some m)
  (hop : m.op = .report) (hturn : s.leafTurn k m = true) (hw : s.watchById m.a2.toNat = some (sh, w))
  (hkind : w.kind = .top i n) (hfired : w.fired = false)
include hm hop hturn hw hkind hfired

theorem execPenSubwatchReport_last (hn : n ≤ 1) :
    execPenSubwatchReport k s = .next ({ s with mesh := s.mesh.eraseIdx k }.fire sh w) := by
  have hw' : State.watchById { s with mesh := s.mesh.eraseIdx k } m.a2.toNat = some (sh, w) := hw
  simp [execPenSubwatchReport, onMesh, hm, hop, hturn, removeAt_eq_eraseIdx, hw', hkind, hfired, hn]

theorem execPenSubwatchReport_counts (hn : 1 < n) :
    execPenSubwatchReport k s = .next (State.modShed { s with mesh := s.mesh.eraseIdx k } sh (fun x =>
      { x with watches := x.watches.map (fun u => if u.id = w.id then { u with kind := .top i (n - 1) } else u) })) := by
  have hw' : State.watchById { s with mesh := s.mesh.eraseIdx k } m.a2.toNat = some (sh, w) := hw
  simp [execPenSubwatchReport, onMesh, hm, hop, hturn, removeAt_eq_eraseIdx, hw', hkind, hfired, Nat.not_le.mpr hn]

end

/-! ### Held pushes (R119, R149) -/

section
variable {s : State} {k : Nat} {u : Push} (hu : s.pushes[k]? = some u) (hreply : u.reply = .none)
  (hfirst : ∀ v ∈ s.pushes.take k, v.queue ≠ u.queue)
include hu hfirst

theorem State.offer_queue (hkind : u.kind.toNat ≤ 1) :
    s.offer k false =
      match State.pushQueue { s with pushes := s.pushes.eraseIdx k } u.queue u.kind.toNat u.stall u.part u.ev with
      | .ok t => t.reply u.reply 1
      | .refuse code => State.pushRefused { s with pushes := s.pushes.eraseIdx k } u code 3
      | .wait _ => (match s.pushQueue u.queue u.kind.toNat u.stall u.part u.ev with | .wait t => t | _ => s) := by
  have hmail : u.kind ≠ 3 := by
    rintro h
    simp [h] at hkind
  have hbefore : (s.pushes.take k).any (fun v =>
      decide (v.queue = u.queue ∧ (decide (v.kind = 3)) = false ∧ v.delayed = u.delayed)) = false := by
    rw [List.any_eq_false]
    intro v hv
    simp [hfirst v hv]
  simp only [State.offer, hu, hmail, decide_false, ne_eq, not_true_eq_false, false_or, hbefore, Bool.false_eq_true, if_false,
    removeAt_eq_eraseIdx] <;> rfl

theorem State.offer_mail (hkind : u.kind = 3) :
    s.offer k true =
      match State.pushMail { s with pushes := s.pushes.eraseIdx k } u.queue u.stall u.part u.ev with
      | .ok t => t.reply u.reply 1
      | .refuse code => State.pushRefused { s with pushes := s.pushes.eraseIdx k } u code 1
      | .wait _ => (match s.pushMail u.queue u.stall u.part u.ev with | .wait t => t | _ => s) := by
  have hbefore : (s.pushes.take k).any (fun v =>
      decide (v.queue = u.queue ∧ (decide (v.kind = 3)) = true ∧ v.delayed = u.delayed)) = false := by
    rw [List.any_eq_false]
    intro v hv
    simp [hfirst v hv]
  simp only [State.offer, hu, hkind, decide_true, ne_eq, not_true_eq_false, false_or, hbefore, Bool.false_eq_true, if_false,
    if_true, removeAt_eq_eraseIdx] <;> rfl

section
variable (hkind : u.kind.toNat ≤ 1) (hready : s.Offerable u.queue u.ev)
include hkind hready

/-- A held push waits for a due entry of the delay list. -/
theorem State.offer_behindDue (hdue : s.dueTo (u.queue / 1024) (.queue (u.queue % 1024)) = true) : s.offer k false = s := by
  have hready' : State.Offerable { s with pushes := s.pushes.eraseIdx k } u.queue u.ev := hready.of_sheds rfl
  have hdue' : State.dueTo { s with pushes := s.pushes.eraseIdx k } (u.queue / 1024) (.queue (u.queue % 1024)) = true := hdue
  simp only [State.offer_queue hu hfirst hkind, State.pushQueue_offerable hready', State.pushQueue_offerable hready, hdue',
    hdue, if_true]

variable (hdue : s.dueTo (u.queue / 1024) (.queue (u.queue % 1024)) = false)
include hdue

/-- It waits at a full queue. -/
theorem State.offer_full (hfull : qDepth ((s.shed (u.queue / 1024)).queue (u.queue % 1024)) ≤
      ((s.shed (u.queue / 1024)).queue (u.queue % 1024)).items.length) :
    s.offer k false = s.setShed (u.queue / 1024) { s.shed (u.queue / 1024) with qfull := true } := by
  have hnot : u.kind.toNat ≠ kindError := by
    unfold kindError
    omega
  have hready' : State.Offerable { s with pushes := s.pushes.eraseIdx k } u.queue u.ev := hready.of_sheds rfl
  have hdue' : State.dueTo { s with pushes := s.pushes.eraseIdx k } (u.queue / 1024) (.queue (u.queue % 1024)) = false := hdue
  have hwait := State.enqueue_full { s with pushes := s.pushes.eraseIdx k } _ _ _ u.ev hnot hfull
  simp only [State.offer_queue hu hfirst hkind, State.pushQueue_offerable hready', State.pushQueue_offerable hready, hdue',
    hdue, Bool.false_eq_true, if_false, hwait, s.enqueue_full _ _ _ u.ev hnot hfull]

include hreply

/-- It enters a queue with room. -/
theorem State.offer_enters (hroom : ((s.shed (u.queue / 1024)).queue (u.queue % 1024)).items.length <
      qDepth ((s.shed (u.queue / 1024)).queue (u.queue % 1024))) :
    Enqueued { s with pushes := s.pushes.eraseIdx k } (s.offer k false) (u.queue / 1024) (u.queue % 1024)
      (eventOf ((s.shed (u.queue / 1024)).queue (u.queue % 1024)) u.kind.toNat u.ev s.ctr) := by
  have hnot : u.kind.toNat ≠ kindError := by
    unfold kindError
    omega
  have hready' : State.Offerable { s with pushes := s.pushes.eraseIdx k } u.queue u.ev := hready.of_sheds rfl
  have hdue' : State.dueTo { s with pushes := s.pushes.eraseIdx k } (u.queue / 1024) (.queue (u.queue % 1024)) = false := hdue
  obtain ⟨t, hok, ht⟩ := State.enqueue_room { s with pushes := s.pushes.eraseIdx k } _ _ _ u.ev hnot hroom
  have hoffer : s.offer k false = t := by
    simp only [State.offer_queue hu hfirst hkind, State.pushQueue_offerable hready', hdue', Bool.false_eq_true, if_false, hok,
      hreply]
    rfl
  rw [hoffer]
  exact ht

end

section
variable (hkind : u.kind = 3) (hr : evReserved u.ev = 0) (hd : evDelay u.ev = 0)
  (hdue : s.dueTo (u.queue / 32) (.mail u.queue) = false)
include hkind hr hd hdue

/-- A held message waits at a full mailbox. -/
theorem State.offer_fullMail (hfull : 16 ≤ (s.stall u.queue).mail.length) : s.offer k true = s := by
  have hwait : s.enmail u.queue u.ev = .wait s := if_pos hfull
  have hdue' : State.dueTo { s with pushes := s.pushes.eraseIdx k } (u.queue / 32) (.mail u.queue) = false := hdue
  have hwait' : State.enmail { s with pushes := s.pushes.eraseIdx k } u.queue u.ev =
    .wait { s with pushes := s.pushes.eraseIdx k } := if_pos hfull
  simp only [State.offer_mail hu hfirst hkind, State.pushMail_of_ready _ hr hd hdue', State.pushMail_of_ready s hr hd hdue,
    hwait, hwait']

include hreply

/-- A held message enters a mailbox with room. -/
theorem State.offer_entersMail (hroom : (s.stall u.queue).mail.length < 16) :
    s.offer k true = (({ s with pushes := s.pushes.eraseIdx k }.setStall u.queue { s.stall u.queue with
      mail := (s.stall u.queue).mail ++ [eventOf Queue.reset kindMail u.ev s.ctr] }).tick1).touch (u.queue / 32) := by
  have hdue' : State.dueTo { s with pushes := s.pushes.eraseIdx k } (u.queue / 32) (.mail u.queue) = false := hdue
  have hok : State.enmail { s with pushes := s.pushes.eraseIdx k } u.queue u.ev =
      .ok ((({ s with pushes := s.pushes.eraseIdx k }.setStall u.queue { s.stall u.queue with
        mail := (s.stall u.queue).mail ++ [eventOf Queue.reset kindMail u.ev s.ctr] }).tick1).touch (u.queue / 32)) :=
    if_neg (Nat.not_le.mpr hroom)
  simp only [State.offer_mail hu hfirst hkind, State.pushMail_of_ready _ hr hd hdue', hok, hreply]
  rfl

end

end

/-! ### Delay lists (R155) -/

section
variable {s : State} {sh k : Nat} {d : Delayed} (hsh : sh < 32) (hd : (s.shed sh).delay[k]? = some d)
include hsh hd

theorem execDelayEntryDue_waits (hdue : isDue s d = false) : execDelayEntryDue sh k s = .next s := by
  simp [execDelayEntryDue, Nat.not_le.mpr hsh, hd, hdue]

/-- A due entry moves to its queue, which has room, when no due entry before it can move. -/
theorem execDelayEntryDue_moves {q : Nat} (htarget : d.target = .queue q) (hdue : isDue s d = true)
    (hbefore : ∀ e ∈ (s.shed sh).delay.take k, isDue s e = false ∨ s.letsPass sh e d.target = true)
    (hkind : d.kind.toNat ≠ 5)
    (hroom : ((s.shed sh).queue q).items.length < qDepth ((s.shed sh).queue q)) :
    ∃ t, execDelayEntryDue sh k s = .next (t.modShed sh (fun y => { y with delay := y.delay.eraseIdx k })) ∧
      Enqueued s t sh q (eventOf ((s.shed sh).queue q) d.kind.toNat d.ev s.ctr) := by
  obtain ⟨t, hok, ht⟩ := s.enqueue_room sh q d.kind.toNat d.ev hkind hroom
  have hnone : ((s.shed sh).delay.take k).any (fun e => isDue s e && !(s.letsPass sh e d.target)) = false := by
    rw [List.any_eq_false]
    intro e he
    rcases hbefore e he with h | h <;> simp [h]
  rw [htarget] at hnone
  refine ⟨t, ?_, ht⟩
  simp only [execDelayEntryDue, Nat.not_le.mpr hsh, hd, hdue, hnone, Bool.true_eq_false, Bool.false_eq_true, or_self, if_false,
    State.offerDelayed, htarget, hok, removeAt_eq_eraseIdx]

end

/-- Settles O29, clause by clause. -/
theorem reportsAndPushes : Obligations.ReportsAndPushes := by
  unfold Obligations.ReportsAndPushes
  refine ⟨?_, fun s k sh => ⟨?_, ?_, ?_⟩⟩
  · intro s k sh i n m w hm hop hturn hw hkind hfired
    refine ⟨execPenSubwatchReport_last hm hop hturn hw hkind hfired, fun hn => ⟨_,
      execPenSubwatchReport_counts hm hop hturn hw hkind hfired hn, rfl, rfl, ?_⟩⟩
    rw [State.modShed, State.setShed_same]
    rfl
  · intro u hu hreply hfirst hreserved hdelay
    refine ⟨?_, ?_⟩
    · intro hkind q henable hjoined hpartner
      have hready : s.Offerable u.queue u.ev := ⟨hreserved, hdelay, henable, hjoined, hpartner⟩
      refine ⟨fun hdue => congrArg Host.Outcome.next (State.offer_behindDue hu hfirst hkind hready hdue), fun hdue => ⟨?_, ?_⟩⟩
      · intro hroom
        have h := State.offer_enters hu hreply hfirst hkind hready hdue hroom
        exact ⟨_, rfl, h.pushes, h.items⟩
      · intro hfull
        refine ⟨_, congrArg Host.Outcome.next (State.offer_full hu hfirst hkind hready hdue hfull), rfl, ?_, ?_⟩
        · rw [State.setShed_same]
          rfl
        · rw [State.setShed_same]
    · intro hkind hdue
      refine ⟨?_, ?_⟩
      · intro hroom
        refine ⟨_, congrArg Host.Outcome.next (State.offer_entersMail hu hreply hfirst hkind hreserved hdelay hdue hroom), rfl, ?_⟩
        exact congrArg Stall.mail (State.setStall_same ..)
      · intro hfull
        exact ⟨_, congrArg Host.Outcome.next (State.offer_fullMail hu hfirst hkind hreserved hdelay hdue hfull), rfl, rfl⟩
  · intro d q hsh hd htarget hdue hbefore hkind hroom
    obtain ⟨t, hok, ht⟩ := execDelayEntryDue_moves hsh hd htarget hdue hbefore hkind hroom
    refine ⟨_, hok, ?_, ?_⟩
    · rw [State.modShed, State.setShed_same, ht.delay]
    · rw [State.modShed, State.setShed_same]
      exact ht.items
  · intro d hsh hd hdue
    exact execDelayEntryDue_waits hsh hd hdue

end Sys2Proof.Machine
end

section
/-!
SUPPORT, O26. What results and reports that return leave, and the watches a flag write fires (R135, R138, R139).
-/

namespace Sys2Proof.Machine

/-! ### Packets and results (R120, R137, R269) -/

/-- A packet of this module changes a port, and the arrival count where it returns to this module. -/
theorem State.send_eq (s : State) (x : HSpec) (pay : List Byte) (tr : Option (BitVec 256)) :
    ∃ ports c, s.send x pay tr = { s with ports := ports, ctr := c } := by
  unfold State.send State.emit State.emitFrom
  extract_lets h
  split
  · exact ⟨_, _, rfl⟩
  · split <;> exact ⟨_, _, rfl⟩

/-- What a result that returns leaves: all that an event or a packet leaves but the stalls. -/
def State.calm (s : State) : Still := { s.still with stalls := [] }

theorem State.calm_of_still {s t : State} (h : t.still = s.still) : t.calm = s.calm := by rw [State.calm, h, State.calm]

theorem State.calm_replyStall (s : State) (t q : Nat) (v : BitVec 64) : (s.replyStall t q v).calm = s.calm := rfl

theorem State.still_doneIngress (s : State) (k st code : Nat) : (s.doneIngress k st code).still = s.still := by
  unfold State.doneIngress
  split
  · rfl
  · next e _ =>
    have hunload : (s.unload k st e.pkt).still = s.still := rfl
    dsimp only
    split
    · unfold State.accepted
      split
      · exact (State.still_send ..).trans hunload
      · exact hunload
    · exact (State.still_send ..).trans hunload

theorem State.calm_replyN (n : Nat) (s : State) (r : Reply) (v : BitVec 64) : (s.replyN n r v).calm = s.calm := by
  induction n generalizing s r v with
  | zero => rfl
  | succ n ih =>
    unfold State.replyN
    split
    · rfl
    · exact s.calm_replyStall ..
    · exact State.calm_of_still (s.still_freeSlot ..)
    · exact State.calm_of_still (s.still_doneIngress ..)
    · exact State.calm_of_still (s.still_send ..)
    · split
      · rfl
      · dsimp only
        split
        · rfl
        · split
          · exact ih ..
          · split
            · split
              · exact ih ..
              · rfl
            · exact ih ..

theorem State.calm_reply (s : State) (r : Reply) (v : BitVec 64) : (s.reply r v).calm = s.calm := s.calm_replyN 20 r v

theorem State.flag_reply (s : State) (r : Reply) (v : BitVec 64) : (s.reply r v).flag = s.flag :=
  congrArg Still.flag (s.calm_reply r v)

/-- A result reaches the register its operation names. -/
theorem Stall.getG_keep (x : Stall) (n : Nat) (dst : Option Nat) (was : Option (Nat × Nat)) (v : BitVec 1024) (r : BitVec 5) :
    (x.keep n dst was v).getG r = x.getG r := rfl

theorem State.replyStall_getG {s : State} {u q : Nat} {w : Wait} {r : BitVec 5}
    (hfind : (s.stall u).waits.find? (fun w => decide (w.seq = q)) = some w) (hdst : w.dst = some r.toNat) (hr : r ≠ 31)
    (v : BitVec 64) : ((s.replyStall u q v).stall u).getG r = v := by
  have h31 : r.toNat ≠ 31 := fun h => hr (BitVec.eq_of_toNat_eq h)
  rw [State.replyStall, State.modStall, State.setStall_same, hfind]
  dsimp only
  rw [Stall.getG_keep, hdst]
  dsimp only
  rw [Stall.getG, if_neg hr, Stall.putG, if_neg h31]
  exact FMap.get_set_same _ _ _ _

theorem State.replyStall_stall_ne (s : State) {u q : Nat} (v : BitVec 64) {j : Nat} (h : j ≠ u) :
    (s.replyStall u q v).stall j = s.stall j := State.setStall_ne _ _ _ h

/-- A push that enters a queue appends one event to it. -/
theorem State.eq_of_enqueue {s t : State} {k q kind : Nat} {ev : BitVec 256} (h : s.enqueue k q kind ev = .ok t) :
    t = ((s.setShed k ((s.shed k).setQueue q { (s.shed k).queue q with
      items := ((s.shed k).queue q).items ++ [eventOf ((s.shed k).queue q) kind ev s.ctr] })).tick1).touch k := by
  unfold State.enqueue at h
  extract_lets x Q at h
  by_cases hfull : qDepth Q + (if kind = kindError then 64 else 0) ≤ Q.items.length
  · rw [if_pos hfull] at h
    cases h
  · rw [if_neg hfull] at h
    exact (Accept.ok.inj h).symm

/-- The watches with identity `w.id` are marked fired. -/
def State.markFired (s : State) (k : Nat) (w : Watch) : State := s.modShed k (fun x =>
  { x with watches := x.watches.map (fun u => if u.id = w.id then { u with fired := true } else u) })

/-- A watch whose queue is on this module marks itself and pushes its event there. -/
theorem State.fire_plain {s : State} {k kd i : Nat} {w : Watch}
    (h : (s.markFired k w).resolve (w.part % 32) w.queue.toNat [3] = .plain kd i) :
    s.fire k w = { s.markFired k w with pushes := s.pushes ++
      [{ queue := i, kind := 1, ev := w.event, stall := w.stall, part := w.part % 32, reply := .slot k w.id }] } := by
  unfold State.fire
  extract_lets s1 m
  have h1 : s1.resolve m.part w.queue.toNat [3] = .plain kd i := h
  rw [h1]
  rfl

/-! ### What the firing of a watch leaves of the others (R138, R139) -/

/-- A change that leaves where addresses lead, that keeps every watch of shed `k` but those with identity `id`, and every
held push. -/
structure Spares (k id : Nat) (s t : State) : Prop where
  parts   : t.parts = s.parts
  pens    : ∀ j, (t.shed j).pens = (s.shed j).pens
  watches : ∀ w : Watch, w.id ≠ id → w ∈ (s.shed k).watches → w ∈ (t.shed k).watches
  pushes  : ∀ u ∈ s.pushes, u ∈ t.pushes

theorem Spares.resolve {k id : Nat} {s t : State} (h : Spares k id s t) (p a : Nat) (fits : List Nat) :
    t.resolve p a fits = s.resolve p a fits := by
  have howns : t.owns = s.owns := by
    funext p j
    simp only [State.owns, State.part, h.parts]
  have hpens : t.penMembers = s.penMembers := by
    funext i
    simp only [State.penMembers, h.pens]
  simp only [State.resolve, State.resolveHere, howns, hpens]

namespace Spares

section
variable {k id : Nat} {s t u : State}

theorem trans (h : Spares k id s t) (h' : Spares k id t u) : Spares k id s u :=
  ⟨h'.parts.trans h.parts, fun j => (h'.pens j).trans (h.pens j), fun w hw hmem => h'.watches w hw (h.watches w hw hmem),
    fun v hv => h'.pushes v (h.pushes v hv)⟩

theorem of_eq (hparts : t.parts = s.parts) (hsheds : t.sheds = s.sheds) (hpushes : ∀ v ∈ s.pushes, v ∈ t.pushes) :
    Spares k id s t := by
  have hshed : ∀ j, t.shed j = s.shed j := fun j => congrArg (fun f => FMap.get (fun _ => Shed.reset) f j) hsheds
  exact ⟨hparts, fun j => by rw [hshed], fun w _ hw => by rwa [hshed], hpushes⟩

end

section
variable (k id : Nat) (s : State)

theorem refl : Spares k id s s := of_eq rfl rfl fun _ h => h

/-- A change of a shed that keeps its pens and those watches. -/
theorem modShed (j : Nat) {f : Shed → Shed} (hpens : ∀ x, (f x).pens = x.pens)
    (hwatches : ∀ (x : Shed) (w : Watch), w.id ≠ id → w ∈ x.watches → w ∈ (f x).watches) : Spares k id s (s.modShed j f) where
  parts := rfl
  pens i := by
    rw [State.modShed, State.setShed_shed]
    split
    · next h => rw [hpens, h]
    · rfl
  watches w hw hmem := by
    rw [State.modShed, State.setShed_shed]
    split
    · next h => exact hwatches _ w hw (h ▸ hmem)
    · exact hmem
  pushes _ h := h

theorem send (x : HSpec) (pay : List Byte) (tr : Option (BitVec 256)) : Spares k id s (s.send x pay tr) := by
  obtain ⟨ports, c, h⟩ := s.send_eq x pay tr
  rw [h]
  exact of_eq rfl rfl fun _ h => h

theorem pushError (p : Nat) (ev : BitVec 256) : Spares k id s (s.pushError p ev) := by
  have henqueue : ∀ (j q kind : Nat) (t : State), s.enqueue j q kind ev = .ok t → Spares k id s t := by
    intro j q kind t h
    rw [State.eq_of_enqueue h]
    have hset := modShed k id s j (f := fun x => x.setQueue q { x.queue q with
      items := (x.queue q).items ++ [eventOf (x.queue q) kind ev s.ctr] }) (fun _ => rfl) (fun _ _ _ h => h)
    have htick : ∀ u : State, Spares k id u u.tick1 := fun u => of_eq rfl rfl fun _ h => h
    refine (hset.trans (htick _)).trans (modShed k id _ j ?_ ?_)
    · exact fun _ => rfl
    · exact fun _ _ _ h => h
  unfold State.pushError
  extract_lets qi j
  split
  · exact refl k id s
  · split
    · next h => exact henqueue _ _ _ _ h
    · exact modShed k id s j (fun _ => rfl) (fun _ _ _ h => h)

theorem reportError (p code stall kind idx target entry fcode : Nat) :
    Spares k id s (s.reportError p code stall kind idx target entry fcode) := by
  have hlog : ∀ (u : State) (j i : Nat), Spares k id u (u.logPart p code 2 j i target) := fun u j i =>
    of_eq (State.logPart_parts ..) (State.logPart_sheds ..) (by simp)
  unfold State.reportError
  extract_lets s1
  split <;> exact (pushError k id s _ _).trans (hlog _ _ _)

theorem freeSlot (j : Nat) : Spares k id s (s.freeSlot j id) :=
  modShed k id s j (fun _ => rfl) fun _ _ hw hmem => List.mem_filter.mpr ⟨hmem, decide_eq_true hw⟩

theorem reply_slot (j : Nat) (v : BitVec 64) : Spares k id s (s.reply (.slot j id) v) := freeSlot k id s j

theorem rejectOp {m : Mesh} (code fcode : Nat) {j : Nat} (hr : m.reply = .none ∨ m.reply = .slot j id) :
    Spares k id s (s.rejectOp m code fcode) := by
  have hreply : ∀ r : Reply, r = .none ∨ r = .slot j id → ∀ u : State, Spares k id u (u.reply r 0) := by
    rintro _ (rfl | rfl) u
    · exact refl k id u
    · exact reply_slot k id u j 0
  unfold State.rejectOp
  split
  · exact (reportError ..).trans (hreply _ hr _)
  · extract_lets c no
    rcases hr with hr | hr
    all_goals
      simp only [hr]
      exact (send ..).trans (hreply _ (by simp) _)

theorem sendOp {m : Mesh} (a depth : Nat) {j : Nat} (hop : m.op = .evpush) (hn : m.n = kindWatch) :
    Spares k id s ((s.sendOp m a depth (.slot j id)).getD s) := by
  unfold State.sendOp
  by_cases hroute : s.routable (uaDevice a) = false
  · rw [if_pos hroute, Option.getD_some]
    exact (rejectOp k id s (j := j) _ _ (.inl rfl)).trans (reply_slot ..)
  · rw [if_neg hroute]
    extract_lets ev post tagged
    have hpost : ∀ u sub pay aux, Spares k id u (post u sub pay aux) := fun u sub pay aux => send k id u _ pay none
    clear_value tagged post
    rw [hop]
    show Spares k id s ((if m.n = kindWatch then _ else _ : Option State).getD s)
    rw [if_pos hn, Option.getD_some]
    refine Spares.trans ?_ (hpost _ _ _ _)
    exact of_eq rfl rfl fun _ h => h

end

section
variable (k : Nat) (s : State) (w : Watch)

theorem markFired : Spares k w.id s (s.markFired k w) :=
  modShed k w.id s k (fun _ => rfl) fun _ u hu hmem => List.mem_map.mpr ⟨u, hmem, if_neg hu⟩

theorem fire : Spares k w.id s (s.fire k w) := by
  unfold State.fire
  extract_lets s1 m
  have hs1 : Spares k w.id s s1 := markFired k s w
  split
  · exact hs1.trans (of_eq rfl rfl fun _ => List.mem_append_left _)
  · exact hs1.trans (of_eq rfl rfl fun _ h => h)
  · exact hs1.trans (sendOp k w.id s1 _ _ rfl rfl)
  · exact hs1.trans (rejectOp k w.id s1 (j := k) _ _ (.inr rfl))

theorem setGroup (wait : List Nat) (more : Nat) (u : UpRef) : Spares k w.id s (s.setGroup k w.id wait more u) := by
  unfold State.setGroup
  split
  · refine (freeSlot k w.id s k).trans ?_
    unfold State.report
    split
    · exact of_eq rfl rfl fun _ h => h
    · exact send ..
  · exact modShed k w.id s k (fun _ => rfl) fun _ y hy hmem => List.mem_map.mpr ⟨y, hmem, if_neg hy⟩

theorem evalWatch (f : Nat) (v : Bool) : Spares k w.id s (s.evalWatch k f v w) := by
  unfold State.evalWatch
  split
  · exact refl k w.id s
  · split
    · split
      · exact fire k s w
      · exact refl k w.id s
    · split
      · exact setGroup k s w ..
      · exact refl k w.id s
    · exact refl k w.id s

end

end Spares

/-! ### The watches of a flag write (R138, R139) -/

section
variable {k f : Nat} {v : Bool} {w : Watch}

/-- A watch that a flag write does not concern stays as it is. -/
theorem State.evalWatch_idle (s : State) (h : w.fired = true ∨ w.value ≠ v ∨ ∃ g, w.kind = .plain g ∧ g ≠ f) :
    s.evalWatch k f v w = s := by
  unfold State.evalWatch
  rcases h with h | h | ⟨g, hkind, hg⟩
  · rw [if_pos (.inl h)]
  · rw [if_pos (.inr h)]
  · split
    · rfl
    · simp only [hkind, if_neg hg]

theorem State.mem_watches_foldl (h : w.fired = true ∨ w.value ≠ v ∨ ∃ g, w.kind = .plain g ∧ g ≠ f) (ws : List Watch) (s : State)
    (hid : ∀ u ∈ ws, u.id = w.id → u = w) (hw : w ∈ (s.shed k).watches) :
    w ∈ ((ws.foldl (fun s u => s.evalWatch k f v u) s).shed k).watches := by
  induction ws generalizing s with
  | nil => exact hw
  | cons u us ih =>
    refine ih _ (fun x hx => hid x (.tail _ hx)) ?_
    by_cases hu : u.id = w.id
    · rw [hid u (.head _) hu]
      show w ∈ ((s.evalWatch k f v w).shed k).watches
      rw [s.evalWatch_idle h]
      exact hw
    · exact (Spares.evalWatch k s u f v).watches w (Ne.symm hu) hw

/-- Watch `w` of shed `k` has fired: it is marked, and its event is on its way to queue `i`. -/
def State.HasFired (s : State) (k i : Nat) (w : Watch) : Prop :=
  { w with fired := true } ∈ (s.shed k).watches ∧
    ∃ u ∈ s.pushes, u.queue = i ∧ u.kind = 1 ∧ u.ev = w.event ∧ u.reply = .slot k w.id

theorem Spares.hasFired {s t : State} {id i : Nat} (h : Spares k id s t) (hid : w.id ≠ id) (hw : s.HasFired k i w) :
    t.HasFired k i w := by
  obtain ⟨hmem, u, hu, hpush⟩ := hw
  exact ⟨h.watches _ hid hmem, u, h.pushes u hu, hpush⟩

/-- A watch whose queue is on this module fires when its flag is left at its value. -/
theorem State.evalWatch_fires {s : State} {kd i : Nat} (hfired : w.fired = false) (hvalue : w.value = v)
    (hkind : w.kind = .plain f) (hplain : s.resolve (w.part % 32) w.queue.toNat [3] = .plain kd i)
    (hw : w ∈ (s.shed k).watches ∨ { w with fired := true } ∈ (s.shed k).watches) : (s.evalWatch k f v w).HasFired k i w := by
  have hnot : ¬ (w.fired = true ∨ w.value ≠ v) := by simp [hfired, hvalue]
  have heval : s.evalWatch k f v w = s.fire k w := by
    rw [State.evalWatch, if_neg hnot, hkind]
    exact if_pos rfl
  have hresolve := ((Spares.markFired k s w).resolve (w.part % 32) w.queue.toNat [3]).trans hplain
  rw [heval, State.fire_plain hresolve]
  refine ⟨?_, _, List.mem_append_right _ (List.mem_singleton_self _), rfl, rfl, rfl, rfl⟩
  show _ ∈ ((s.markFired k w).shed k).watches
  rw [State.markFired, State.modShed, State.setShed_same]
  rcases hw with hw | hw
  · exact List.mem_map.mpr ⟨w, hw, if_pos rfl⟩
  · exact List.mem_map.mpr ⟨_, hw, if_pos rfl⟩

theorem State.hasFired_foldl {kd i : Nat} (hfired : w.fired = false) (hvalue : w.value = v) (hkind : w.kind = .plain f)
    (ws : List Watch) (s : State) (hplain : s.resolve (w.part % 32) w.queue.toNat [3] = .plain kd i)
    (hid : ∀ u ∈ ws, u.id = w.id → u = w) (hw : w ∈ ws ∧ w ∈ (s.shed k).watches ∨ s.HasFired k i w) :
    (ws.foldl (fun s u => s.evalWatch k f v u) s).HasFired k i w := by
  induction ws generalizing s with
  | nil => exact hw.resolve_left (by simp)
  | cons u us ih =>
    have hspares := Spares.evalWatch k s u f v
    refine ih _ ((hspares.resolve ..).trans hplain) (fun x hx => hid x (.tail _ hx)) ?_
    by_cases hu : u.id = w.id
    · rw [hid u (.head _) hu]
      exact .inr (State.evalWatch_fires hfired hvalue hkind hplain (hw.imp And.right And.left))
    · refine hw.imp ?_ (hspares.hasFired (Ne.symm hu))
      rintro ⟨hmem, hwatch⟩
      refine ⟨(List.mem_cons.mp hmem).resolve_left ?_, hspares.watches w (Ne.symm hu) hwatch⟩
      rintro rfl
      exact hu rfl

end

/-! ### SET, CLEAR and TEST at the flag's home (R135) -/

section
variable {s : State} {k : Nat} {m : Mesh} (hm : s.mesh[k]? = some m) (hkind : m.kind = 2) (hturn : s.leafTurn k m = true)
include hm hkind hturn

theorem execFlagSet_eq (hop : m.op = .set) :
    execFlagSet k s = .next ((State.writeFlag { s with mesh := s.mesh.eraseIdx k } m.idx true).reply m.reply 1) := by
  simp [execFlagSet, onMesh, hm, hkind, hturn, hop, removeAt_eq_eraseIdx]

theorem execFlagClear_eq (hop : m.op = .clear) :
    execFlagClear k s = .next ((State.writeFlag { s with mesh := s.mesh.eraseIdx k } m.idx false).reply m.reply 1) := by
  simp [execFlagClear, onMesh, hm, hkind, hturn, hop, removeAt_eq_eraseIdx]

theorem execFlagTest_eq (hop : m.op = .test) :
    execFlagTest k s = .next (State.reply { s with mesh := s.mesh.eraseIdx k } m.reply (if s.flag m.idx then 1 else 0)) := by
  have hflag : State.flag { s with mesh := s.mesh.eraseIdx k } m.idx = s.flag m.idx := rfl
  simp [execFlagTest, onMesh, hm, hkind, hturn, hop, removeAt_eq_eraseIdx, hflag]

/-- SET where `v`, CLEAR otherwise. -/
theorem exec_writesFlag {v : Bool} (hop : m.op = if v then .set else .clear) :
    exec (if v then .flagSet k else .flagClear k) s =
      .next ((State.writeFlag { s with mesh := s.mesh.eraseIdx k } m.idx v).reply m.reply 1) := by
  cases v with
  | false => exact execFlagClear_eq hm hkind hturn hop
  | true => exact execFlagSet_eq hm hkind hturn hop

end

/-- A result that goes to nobody or to a stall leaves sheds and held pushes. -/
theorem State.reply_leaves (s : State) {r : Reply} (hr : r = .none ∨ ∃ u q, r = .stall u q) (v : BitVec 64) :
    (s.reply r v).sheds = s.sheds ∧ (s.reply r v).pushes = s.pushes := by
  rcases hr with rfl | ⟨u, q, rfl⟩ <;> exact ⟨rfl, rfl⟩

theorem State.shed_writeFlag (s : State) (i : Nat) (v : Bool) :
    s.writeFlag i v = ((s.shed (i / 4096)).watches).foldl (fun s w => s.evalWatch (i / 4096) (i % 4096) v w)
      (s.modShed (i / 4096) (fun x => x.setFlag (i % 4096) v)) := by
  rw [State.writeFlag, State.evalWatches, State.modShed, State.setShed_same]
  rfl

/-- A flag write itself spares every watch. -/
theorem Spares.setFlag (k id : Nat) (s : State) (j f : Nat) (v : Bool) :
    Spares k id s (s.modShed j (fun x => x.setFlag f v)) :=
  Spares.modShed k id s j (fun _ => rfl) fun _ _ _ h => h

/-- Settles O26: flags by what a result leaves, watches by induction on those that are evaluated. -/
theorem flagOperations : Obligations.FlagOperations := by
  unfold Obligations.FlagOperations
  refine ⟨fun s k m hm hkind hturn => ⟨fun hop => ?_, fun hop => ?_, ?_⟩, ?_⟩
  · refine ⟨_, execFlagSet_eq hm hkind hturn hop, fun f => ?_⟩
    rw [State.flag_reply, State.flag_writeFlag]
    rfl
  · refine ⟨_, execFlagClear_eq hm hkind hturn hop, fun f => ?_⟩
    rw [State.flag_reply, State.flag_writeFlag]
    rfl
  · intro hop u q w r hreply hfind hdst hr
    refine ⟨_, execFlagTest_eq hm hkind hturn hop, ?_⟩
    rw [hreply]
    exact ⟨State.replyStall_getG hfind hdst hr _, rfl, rfl, fun j hj => State.replyStall_stall_ne _ _ hj⟩
  · intro s k m v hm hkind hturn hop hreply sh ws hid
    refine ⟨_, exec_writesFlag hm hkind hturn hop, fun w hw => ?_⟩
    obtain ⟨hsheds, hpushes⟩ := State.reply_leaves (State.writeFlag { s with mesh := s.mesh.eraseIdx k } m.idx v) hreply 1
    have hshed : ∀ (t t' : State), t'.sheds = t.sheds → t'.shed sh = t.shed sh :=
      fun t t' h => congrArg (fun f => FMap.get (fun _ => Shed.reset) f sh) h
    rw [hshed _ _ hsheds, hpushes, State.shed_writeFlag]
    have hset := Spares.setFlag sh (w.id + 1) { s with mesh := s.mesh.eraseIdx k } sh (m.idx % 4096) v
    have hmem := hset.watches w (by omega) hw
    refine ⟨fun hfired hvalue hkind kd i hplain => ?_, fun hidle => ?_⟩
    · exact State.hasFired_foldl hfired hvalue hkind ws _ ((hset.resolve ..).trans hplain) (hid w hw) (.inl ⟨hw, hmem⟩)
    · exact State.mem_watches_foldl hidle ws _ (hid w hw) hmem

end Sys2Proof.Machine
end

section
/-!
SUPPORT, O39. Work of a unit that reads and writes lofts alone: what it gives, the state it leaves, and that it has its turn
(R125, R194, R245).
-/

namespace Sys2Proof.Machine

/-! ### Work that touches no sector of HBM -/

/-- Work from state `s` gives `r` and leaves `t`, and touches no sector of HBM. -/
def Gives {α : Type} (m : UM α) (s : State) (r : Except Nat α) (t : State) : Prop :=
  ∀ w : Work, w.st = s → m w = (r, { w with st := t })

theorem atEntry_run {α : Type} (i : Nat) (m : UM α) (w : Work) :
    atEntry i m w = match m w with
      | (.ok a, w1) => (.ok a, w1)
      | (.error e, w1) => (.error (if e < 2 ^ 16 then e + 2 ^ 16 * (i + 1) else e), w1) := by
  simp only [atEntry, tryCatch, tryCatchThe, MonadExceptOf.tryCatch, ExceptT.tryCatch, ExceptT.mk, Bind.bind, StateT.bind]
  cases hrun : m w with
  | mk r w1 => cases r <;> rfl

namespace Gives
variable {α β : Type} {s t u : State}

theorem pure (a : α) (s : State) : Gives (Pure.pure a : UM α) s (.ok a) s := by
  rintro w rfl
  rfl

theorem throw (e : Nat) (s : State) : Gives (MonadExcept.throw e : UM α) s (.error e) s := by
  rintro w rfl
  rfl

theorem now (s : State) : Gives Machine.now s (.ok s) s := by
  rintro w rfl
  rfl

theorem bind {m : UM α} {f : α → UM β} {a : α} {r : Except Nat β} (h : Gives m s (.ok a) t) (hf : Gives (f a) t r u) :
    Gives (m >>= f) s r u := by
  intro w hw
  rw [UM.bind_run, h w hw]
  exact hf _ rfl

theorem bind_error {m : UM α} (f : α → UM β) {e : Nat} (h : Gives m s (.error e) t) : Gives (m >>= f) s (.error e) t := by
  intro w hw
  rw [UM.bind_run, h w hw]

theorem atEntry {m : UM α} (i : Nat) {a : α} (h : Gives m s (.ok a) t) : Gives (Machine.atEntry i m) s (.ok a) t := by
  intro w hw
  rw [atEntry_run, h w hw]

theorem atEntry_error {m : UM α} (i : Nat) {e : Nat} (he : e < 2 ^ 16) (h : Gives m s (.error e) t) :
    Gives (Machine.atEntry i m) s (.error (e + 2 ^ 16 * (i + 1))) t := by
  intro w hw
  rw [atEntry_run, h w hw]
  dsimp only
  rw [if_pos he]

/-- Rows one after the other, with what holds when `r` of them are done. -/
theorem forM_range {f : Nat → UM Unit} {P : Nat → State → Prop} {n : Nat}
    (hstep : ∀ r v, r < n → P r v → ∃ v', Gives (f r) v (.ok ()) v' ∧ P (r + 1) v') (hs : P 0 s) :
    ∃ t, Gives ((List.range n).forM f) s (.ok ()) t ∧ P n t := by
  have hrest : ∀ m r v, r + m = n → P r v → ∃ t, Gives ((List.range' r m).forM f) v (.ok ()) t ∧ P n t := by
    intro m
    induction m with
    | zero =>
      rintro r v rfl hv
      exact ⟨v, pure () v, hv⟩
    | succ m ih =>
      intro r v hr hv
      obtain ⟨v', hgo, hv'⟩ := hstep r v (by omega) hv
      obtain ⟨t, hrun, ht⟩ := ih (r + 1) v' (by omega) hv'
      exact ⟨t, hgo.bind hrun, ht⟩
  rw [List.range_eq_range']
  exact hrest n 0 s (by omega) hs

/-- It has its turn. -/
theorem run {m : UM α} {r : Except Nat α} (h : Gives m s r t) (how : How) (hgo : r ≠ .error ePause) :
    m.run how s = some (r, t) := by
  have hon : m.on how s = (r, { st := t, how := how, touched := [] }) := h _ rfl
  have hpaused : paused r = false := by
    cases r with
    | ok a => rfl
    | error e => exact decide_eq_false fun he => hgo (by rw [he])
  rw [UM.run, hon]
  dsimp only
  rw [hpaused]
  rfl

end Gives

/-! ### Reads and writes of a loft (R125) -/

/-- A stall address in loft `i`. -/
def loftAddr (i a : Nat) : Nat := 2 ^ 32 + i * 2 ^ 25 + a

/-- From `s` to `t` memory takes `bs` from key `k` on, and nothing but memory and its check symbols changes. -/
structure Wrote (s t : State) (k : Nat) (bs : List Byte) : Prop where
  state : ∃ mem ecc, t = { s with mem := mem, ecc := ecc }
  byte  : ∀ a, t.byte a = if k ≤ a ∧ a < k + bs.length then bs.getD (a - k) 0 else s.byte a

theorem isHbm_loftKey {i a : Nat} (hi : i < 32) (ha : a < 2 ^ 25) : isHbm (loftKey i a) = false := by
  rw [isHbm, decide_eq_false_iff_not, loftKey]
  omega

section
variable {s : State} {p i a n : Nat} (hown : s.owns p i = true) (hi : i < 32)
include hown hi

theorem State.phys_loft (ha : a < 2 ^ 25) : s.phys p none (loftAddr i a) = some (loftKey i a) := by
  have hshed : (loftAddr i a - 0x100000000) / 2 ^ 25 = i := by
    rw [loftAddr]
    omega
  have hoff : (loftAddr i a - 0x100000000) % 2 ^ 25 = a := by
    rw [loftAddr]
    omega
  have hrange : 0x100000000 ≤ loftAddr i a ∧ loftAddr i a < 0x100000000 + 2 ^ 30 := by
    rw [loftAddr]
    omega
  rw [State.phys, if_neg (by omega), if_pos hrange]
  dsimp only
  rw [hshed, hoff, hown, if_pos rfl]

theorem State.physRange_loft (ha : a + n ≤ 2 ^ 25) :
    s.physRange p none (loftAddr i a) n = some ((List.range n).map (fun j => loftKey i a + j)) := by
  have hall : ∀ l : List Nat, (∀ j ∈ l, j < n) →
      l.mapM (fun j => s.phys p none (loftAddr i a + j)) = some (l.map (fun j => loftKey i a + j)) := by
    intro l hl
    induction l with
    | nil => rfl
    | cons j l ih =>
      have hj : j < n := hl j (.head _)
      have haddr : loftAddr i a + j = loftAddr i (a + j) := by
        rw [loftAddr, loftAddr]
        omega
      have hkey : loftKey i (a + j) = loftKey i a + j := by
        rw [loftKey, loftKey]
        omega
      rw [List.mapM_cons, haddr, State.phys_loft hown hi (by omega), ih fun x hx => hl x (.tail _ hx), hkey]
      rfl
  exact hall _ fun j hj => List.mem_range.mp hj

omit hown in
theorem filter_isHbm_loft (ha : a + n ≤ 2 ^ 25) : ((List.range n).map (fun j => loftKey i a + j)).filter isHbm = [] := by
  rw [List.filter_eq_nil_iff]
  intro k hk
  obtain ⟨j, hj, rfl⟩ := List.mem_map.mp hk
  have hj := List.mem_range.mp hj
  have hkey : loftKey i a + j = loftKey i (a + j) := by
    rw [loftKey, loftKey]
    omega
  rw [hkey, isHbm_loftKey hi (by omega)]
  exact Bool.false_ne_true

/-- A read of a loft gives its bytes and changes nothing. -/
theorem gives_rd_loft (unm : Nat) (ha : a + n ≤ 2 ^ 25) :
    Gives (rd p .fore unm (loftAddr i a) n) s (.ok (s.loft i a n)) s := by
  rintro w rfl
  have hnear := filter_isHbm_loft hi ha
  have hsectors : hbmSectors ((List.range n).map (fun j => loftKey i a + j)) = [] := by
    rw [hbmSectors, hnear]
    rfl
  have hload : w.st.countLoad p ((List.range n).map (fun j => loftKey i a + j)) = w.st := by
    rw [State.countLoad, hnear]
    rfl
  have hbytes : ((List.range n).map (fun j => loftKey i a + j)).map w.st.byte = w.st.loft i a n := by
    rw [List.map_map]
    rfl
  have hrun : rd p .fore unm (loftAddr i a) n w = (.ok (w.st.loft i a n), { w with
        touched := w.touched ++
          touches p false (w.st.mayFill p w.how.rows w.how.noAlloc) ((List.range n).map (fun j => loftKey i a + j)) }) := by
    unfold rd
    rw [UM.bind_run]
    show (match w.st.physRange p none (loftAddr i a) n with | none => _ | some ks => _ : UM (List Byte)) w = _
    rw [State.physRange_loft hown hi ha, ← hbytes]
    simp only [if_true, ne_eq, reduceCtorEq, not_false_eq_true, false_and, or_false, hsectors, hload]
    rfl
  rw [hrun, touches, hsectors, List.map_nil, List.append_nil]

theorem gives_rdNum_loft (unm : Nat) (ha : a + n ≤ 2 ^ 25) :
    Gives (rdNum p .fore unm (loftAddr i a) n) s (.ok (s.loftNum i a n)) s :=
  (gives_rd_loft hown hi unm ha).bind (.pure _ _)

/-- A write of a loft stores its bytes. -/
theorem gives_wr_loft (unm : Nat) {bs : List Byte} (ha : a + bs.length ≤ 2 ^ 25) :
    ∃ t, Gives (wr p unm (loftAddr i a) bs) s (.ok ()) t ∧ Wrote s t (loftKey i a) bs := by
  have hnear := filter_isHbm_loft hi ha
  have hsectors : hbmSectors ((List.range bs.length).map (fun j => loftKey i a + j)) = [] := by
    rw [hbmSectors, hnear]
    rfl
  have hload : s.countLoad p ((List.range bs.length).map (fun j => loftKey i a + j)) = s := by
    rw [State.countLoad, hnear]
    rfl
  have hkeys : ∀ kv ∈ ((List.range bs.length).map (fun j => loftKey i a + j)).zip bs, isHbm kv.1 = false := by
    intro kv hkv
    obtain ⟨j, hj, hkv⟩ := List.mem_map.mp (List.of_mem_zip hkv).1
    have hj := List.mem_range.mp hj
    have hkey : loftKey i a + j = loftKey i (a + j) := by
      rw [loftKey, loftKey]
      omega
    rw [← hkv, hkey, isHbm_loftKey hi (by omega)]
  obtain ⟨e, he⟩ := State.writeAll_near (s := s) hkeys
  refine ⟨{ s.setBytes (((List.range bs.length).map (fun j => loftKey i a + j)).zip bs) with ecc := e }, ?_, ?_, ?_⟩
  · rintro w rfl
    have hrun : wr p unm (loftAddr i a) bs w = (.ok (), { w with
        st := { w.st.setBytes (((List.range bs.length).map (fun j => loftKey i a + j)).zip bs) with ecc := e }
        touched := w.touched ++ touches p true false ((List.range bs.length).map (fun j => loftKey i a + j)) }) := by
      unfold wr
      rw [UM.bind_run]
      show (match w.st.physRange p none (loftAddr i a) bs.length with | none => _ | some ks => _ : UM Unit) w = _
      rw [State.physRange_loft hown hi ha]
      show wrKeyed p _ bs { w with st := w.st.countLoad p _ } = _
      rw [hload]
      unfold wrKeyed
      rw [UM.bind_run]
      show (fun r : State × Bool => (act (fun _ => r.1) >>= fun _ => Machine.touch p true false _ >>= fun _ =>
        if r.2 then MonadExcept.throw ePoison else Pure.pure () : UM Unit) w) (w.st.writeAll _) = _
      rw [he]
      rfl
    rw [hrun, touches, hsectors, List.map_nil, List.append_nil]
  · obtain ⟨m, hm⟩ := s.setBytes_eq (((List.range bs.length).map (fun j => loftKey i a + j)).zip bs)
    exact ⟨m, e, by rw [hm]⟩
  · intro k
    have hf : ∀ kv ∈ ((List.range bs.length).map (fun j => loftKey i a + j)).zip bs, kv.2 = bs.getD (kv.1 - loftKey i a) 0 := by
      intro kv hkv
      obtain ⟨j, hj, rfl⟩ := List.getElem_of_mem hkv
      rw [List.length_zip, List.length_map, List.length_range] at hj
      have hlt : j < bs.length := by omega
      simp [hlt]
    refine (State.byte_setBytes (f := fun k => bs.getD (k - loftKey i a) 0) hf k).trans (if_congr ?_ rfl rfl)
    rw [List.map_fst_zip (by simp)]
    simp only [List.mem_map, List.mem_range]
    constructor
    · rintro ⟨j, hj, rfl⟩
      omega
    · rintro ⟨hlo, hup⟩
      exact ⟨k - loftKey i a, by omega, by omega⟩

end

/-! ### Bytes and numbers of a loft (R7) -/

section
variable {s t : State} {i k : Nat} {bs : List Byte}

theorem Wrote.owns (h : Wrote s t k bs) (p j : Nat) : t.owns p j = s.owns p j := by
  obtain ⟨mem, ecc, rfl⟩ := h.state
  rfl

theorem State.loft_eq_of_byte {a n : Nat} (h : ∀ j, j < n → t.byte (loftKey i a + j) = s.byte (loftKey i a + j)) :
    t.loft i a n = s.loft i a n := List.map_congr_left fun j hj => h j (List.mem_range.mp hj)

/-- The bytes written. -/
theorem Wrote.loft_same {a : Nat} (h : Wrote s t (loftKey i a) bs) : t.loft i a bs.length = bs := by
  refine List.ext_getElem (State.loft_length ..) fun j hj hj' => ?_
  have hread := h.byte (loftKey i a + j)
  rw [if_pos ⟨by omega, by omega⟩, Nat.add_sub_cancel_left, List.getD_eq_getElem _ _ hj'] at hread
  simpa [State.loft, State.getBytes] using hread

/-- A part of a loft read as a whole. -/
theorem State.slice_loft (s : State) (i a : Nat) {n o z : Nat} (h : o + z ≤ n) : slice (s.loft i a n) o z = s.loft i (a + o) z := by
  have hpart : ((s.loft i a n).drop o).take z = s.loft i (a + o) z := by
    refine List.ext_getElem (by simp [State.loft_length]; omega) fun j hj hj' => ?_
    have hkey : loftKey i a + (o + j) = loftKey i (a + o) + j := by
      rw [loftKey, loftKey]
      omega
    simp [State.loft, State.getBytes, hkey]
  rw [slice, hpart, State.loft_length, Nat.sub_self]
  exact List.append_nil _

theorem State.field_loft (s : State) (i a : Nat) {n o z : Nat} (h : o + z ≤ n) :
    field (s.loft i a n) o z = s.loftNum i (a + o) z := congrArg ofBytes (s.slice_loft i a h)

end

end Sys2Proof.Machine
end

section
/-!
SUPPORT, O39. The rows that COPY, COMPRESS and EXPAND of a DMA engine write between lofts (R224, R225).
-/

namespace Sys2Proof.Machine

/-! ### COPY (R224) -/

/-- The first `r` rows of `n` bytes from keys `S` stand at keys `D`, and the rest of the state is as before. -/
structure RowsCopied (s : State) (D S : Nat → Nat) (n r : Nat) (t : State) : Prop where
  state  : ∃ mem ecc, t = { s with mem := mem, ecc := ecc }
  copied : ∀ q l, q < r → l < n → t.byte (D q + l) = s.byte (S q + l)
  kept   : ∀ k, (∀ q l, q < r → l < n → k ≠ D q + l) → t.byte k = s.byte k

/-- One row more, apart from those before it. -/
theorem RowsCopied.succ {s t u : State} {D S : Nat → Nat} {n r : Nat} (h : RowsCopied s D S n r t)
    (hapart : ∀ q l l', q < r → l < n → l' < n → D q + l ≠ D r + l')
    (hw : Wrote t u (D r) ((List.range n).map (fun l => s.byte (S r + l)))) : RowsCopied s D S n (r + 1) u where
  state := by
    obtain ⟨_, _, rfl⟩ := h.state
    obtain ⟨mem, ecc, rfl⟩ := hw.state
    exact ⟨mem, ecc, rfl⟩
  copied q l hq hl := by
    rw [hw.byte, List.length_map, List.length_range]
    obtain hlt | rfl := Nat.lt_succ_iff_lt_or_eq.mp hq
    · rw [if_neg ?_, h.copied q l hlt hl]
      rintro ⟨hlo, hup⟩
      exact hapart q l (D q + l - D r) hlt hl (by omega) (by omega)
    · rw [if_pos ⟨by omega, by omega⟩, Nat.add_sub_cancel_left]
      simp [hl]
  kept k hk := by
    rw [hw.byte, List.length_map, List.length_range, if_neg ?_]
    · exact h.kept k fun q l hq => hk q l (by omega)
    · rintro ⟨hlo, hup⟩
      exact hk r (k - D r) (by omega) (by omega) (by omega)

section
variable {s : State} {p c i j a b : Nat} (hi : i < 32) (hj : j < 32) (hsrcOwn : s.owns p i = true) (hdstOwn : s.owns p j = true)
  (hsrc : dmSrc c = loftAddr i a) (hdst : dmDst c = loftAddr j b)
include hi hj hsrcOwn hdstOwn hsrc hdst

/-- A COPY of rows that do not overlap. -/
theorem gives_copyWork (hrows : 1 ≤ dmRows c) (hsrcIn : a + (dmRows c - 1) * dmSpitch c + dmBytes c ≤ 2 ^ 25)
    (hdstIn : b + (dmRows c - 1) * dmDpitch c + dmBytes c ≤ 2 ^ 25)
    (hapart : dmRows c = 1 ∨ (dmBytes c ≤ dmDpitch c ∧ (i ≠ j ∨ a + (dmRows c - 1) * dmSpitch c + dmBytes c ≤ b ∨
      b + (dmRows c - 1) * dmDpitch c + dmBytes c ≤ a))) :
    ∃ t, Gives (copyWork p c) s (.ok ((dmRows c - 1) * dmDpitch c + dmBytes c)) t ∧
      RowsCopied s (fun r => loftKey j (b + r * dmDpitch c)) (fun r => loftKey i (a + r * dmSpitch c)) (dmBytes c) (dmRows c) t := by
  have hstep : ∀ r v, r < dmRows c →
      RowsCopied s (fun r => loftKey j (b + r * dmDpitch c)) (fun r => loftKey i (a + r * dmSpitch c)) (dmBytes c) r v →
      ∃ v', Gives (atEntry r (do
        let bs ← rd p .fore eBoundsR (dmSrc c + r * dmSpitch c) (dmBytes c)
        wr p eBoundsR (dmDst c + r * dmDpitch c) bs)) v (.ok ()) v' ∧
        RowsCopied s (fun r => loftKey j (b + r * dmDpitch c)) (fun r => loftKey i (a + r * dmSpitch c)) (dmBytes c) (r + 1) v' := by
    intro r v hr hv
    have hs : r * dmSpitch c ≤ (dmRows c - 1) * dmSpitch c := Nat.mul_le_mul_right _ (by omega)
    have hd : r * dmDpitch c ≤ (dmRows c - 1) * dmDpitch c := Nat.mul_le_mul_right _ (by omega)
    have hbefore : ∀ q, q < r → q * dmDpitch c + dmDpitch c ≤ r * dmDpitch c := fun q hq =>
      (Nat.succ_mul q _).symm.le.trans (Nat.mul_le_mul_right _ hq)
    have hread : v.loft i (a + r * dmSpitch c) (dmBytes c) = s.loft i (a + r * dmSpitch c) (dmBytes c) := by
      refine State.loft_eq_of_byte fun l hl => hv.kept _ fun q l' hq hl' => ?_
      have hq' := hbefore q hq
      simp only [loftKey]
      omega
    obtain ⟨mem, ecc, hstate⟩ := hv.state
    have howns : ∀ j, v.owns p j = s.owns p j := fun j => by rw [hstate]; rfl
    have hsaddr : dmSrc c + r * dmSpitch c = loftAddr i (a + r * dmSpitch c) := by rw [hsrc, loftAddr, loftAddr]; omega
    have hdaddr : dmDst c + r * dmDpitch c = loftAddr j (b + r * dmDpitch c) := by rw [hdst, loftAddr, loftAddr]; omega
    have hrd := gives_rd_loft ((howns i).trans hsrcOwn) hi (a := a + r * dmSpitch c) (n := dmBytes c) eBoundsR (by omega)
    obtain ⟨v', hwr, hwrote⟩ := gives_wr_loft (s := v) (bs := v.loft i (a + r * dmSpitch c) (dmBytes c))
      ((howns j).trans hdstOwn) hj (a := b + r * dmDpitch c) eBoundsR (by rw [State.loft_length]; omega)
    rw [← hsaddr] at hrd
    rw [← hdaddr] at hwr
    refine ⟨v', (hrd.bind hwr).atEntry r, hv.succ ?_ ?_⟩
    · intro q l l' hq hl hl'
      have hq' := hbefore q hq
      simp only [loftKey]
      omega
    · rw [hread] at hwrote
      exact hwrote
  obtain ⟨t, hrun, ht⟩ := Gives.forM_range hstep ⟨⟨s.mem, s.ecc, rfl⟩, fun q l hq => absurd hq (Nat.not_lt_zero q), fun _ _ => rfl⟩
  exact ⟨t, hrun.bind (.pure _ _), ht⟩

omit hi hj hsrcOwn hdstOwn hsrc hdst

/-! ### COMPRESS (R225) -/

/-- The runs of a row of `n` bytes in a loft, in elements of `z` bytes, under threshold `th`. -/
def State.rowOut (s : State) (i a z n th : Nat) : List Byte :=
  let es := (List.range (n / z)).map (fun k => (k, s.loftNum i (a + z * k) z))
  let nz := es.filter (fun e => e.2 ≠ 0)
  rowRuns z (if nz.length * 100 < th * (n / z) then nz else es)

theorem State.elements_loft (s : State) (i a z n : Nat) :
    (List.range (n / z)).map (fun k => (k, field (s.loft i a n) (z * k) z)) =
      (List.range (n / z)).map (fun k => (k, s.loftNum i (a + z * k) z)) := by
  refine List.map_congr_left fun k hk => ?_
  have hlt : k + 1 ≤ n / z := List.mem_range.mp hk
  have hend : z * (k + 1) ≤ n := (Nat.mul_le_mul_left z hlt).trans (Nat.mul_div_le n z)
  rw [s.field_loft i a (by rwa [Nat.mul_succ] at hend)]

theorem State.rowOut_eq (s : State) (i a z n th : Nat) {nz es : List (Nat × Nat)}
    (hes : es = (List.range (n / z)).map (fun k => (k, field (s.loft i a n) (z * k) z)))
    (hnz : nz = es.filter (fun e => decide (e.2 ≠ 0))) :
    rowRuns z (if nz.length * 100 < th * (n / z) then nz else es) = s.rowOut i a z n th := by
  rw [hnz, hes, s.elements_loft]
  rfl

section
variable {t : State} {bs out : List Byte} (hrows : dmRows c = 1) (hthresh : dmThresh c ≠ 0xFF)
  (hwr : Gives (wr p eBoundsR (dmPtr c) (zeros 4)) s (.ok ()) t)
  (hrd : Gives (rd p .fore eBoundsR (dmSrc c + 0 * dmSpitch c) (dmBytes c)) t (.ok (t.loft i a (dmBytes c))) t)
  (hout : t.rowOut i a (dmEsize c) (dmBytes c) (dmThresh c) = out)
include hrows hthresh hwr hrd hout

/-- A COMPRESS of one row, step by step: the row's runs fit. -/
theorem gives_compressWork_row {u v : State} (hcap : out.length ≤ dmCap c)
    (hruns : Gives (wr p eBoundsR (dmDst c + 0) out) t (.ok ()) u)
    (hend : Gives (wr p eBoundsR (dmPtr c + 4 * (0 + 1)) (toBytes 4 (0 + out.length))) u (.ok ()) v) :
    Gives (compressWork p c) s (.ok (0 + out.length)) v := by
  unfold compressWork
  refine (Gives.now s).bind ?_
  dsimp only
  rw [if_neg hthresh, hrows]
  refine hwr.bind (Gives.bind (Gives.atEntry 0 (hrd.bind ?_)) (.pure _ v))
  dsimp only
  rw [t.rowOut_eq i a (dmEsize c) (dmBytes c) (dmThresh c) rfl rfl, hout, if_neg (by omega)]
  exact hruns.bind (hend.bind (.pure _ v))

/-- They do not fit. -/
theorem gives_compressWork_overflow (hcap : dmCap c < out.length) :
    Gives (compressWork p c) s (.error (0x070D + 2 ^ 16 * (0 + 1))) t := by
  unfold compressWork
  refine (Gives.now s).bind ?_
  dsimp only
  rw [if_neg hthresh, hrows]
  refine hwr.bind (Gives.bind_error _ (Gives.atEntry_error 0 (by decide) (hrd.bind ?_)))
  dsimp only
  rw [t.rowOut_eq i a (dmEsize c) (dmBytes c) (dmThresh c) rfl rfl, hout, if_pos (by omega)]
  exact (Gives.throw _ t).bind_error _

end

theorem State.rowOut_congr {s t : State} {i a n : Nat} (h : t.loft i a n = s.loft i a n) (z th : Nat) :
    t.rowOut i a z n th = s.rowOut i a z n th := by
  unfold State.rowOut
  rw [← State.elements_loft, ← State.elements_loft, h]

section
variable {q : Nat} (hptr : dmPtr c = loftAddr j q) (hrows : dmRows c = 1) (hthresh : dmThresh c ≠ 0xFF)
  (hsrcIn : a + dmBytes c ≤ 2 ^ 25) (hptrIn : q + 8 ≤ 2 ^ 25) (hsrcApart : i ≠ j ∨ (a + dmBytes c ≤ q ∨ q + 8 ≤ a))
include hi hj hsrcOwn hdstOwn hsrc hptr hrows hthresh hsrcIn hptrIn hsrcApart

omit hrows hthresh in
/-- The first row pointer, and the row as it is read after that. -/
theorem gives_compressWork_head : ∃ t, Gives (wr p eBoundsR (dmPtr c) (zeros 4)) s (.ok ()) t ∧ Wrote s t (loftKey j q) (zeros 4) ∧
    Gives (rd p .fore eBoundsR (dmSrc c + 0 * dmSpitch c) (dmBytes c)) t (.ok (t.loft i a (dmBytes c))) t ∧
    t.loft i a (dmBytes c) = s.loft i a (dmBytes c) := by
  obtain ⟨t, hwr, hw⟩ := gives_wr_loft (bs := zeros 4) hdstOwn hj (a := q) eBoundsR (by simp [zeros]; omega)
  rw [← hptr] at hwr
  refine ⟨t, hwr, hw, ?_, State.loft_eq_of_byte fun l hl => ?_⟩
  · rw [Nat.zero_mul, Nat.add_zero, hsrc]
    exact gives_rd_loft ((hw.owns p i).trans hsrcOwn) hi eBoundsR hsrcIn
  · rw [hw.byte, if_neg ?_]
    simp only [loftKey, zeros, List.length_replicate]
    omega

/-- A COMPRESS of one row that does not fit. -/
theorem gives_compressWork_full (hcap : dmCap c < (s.rowOut i a (dmEsize c) (dmBytes c) (dmThresh c)).length) :
    ∃ t, Gives (compressWork p c) s (.error (0x070D + 2 ^ 16 * (0 + 1))) t ∧ ∃ mem ecc, t = { s with mem := mem, ecc := ecc } := by
  obtain ⟨t, hwr, hw, hrd, hread⟩ := gives_compressWork_head hi hj hsrcOwn hdstOwn hsrc hptr hsrcIn hptrIn hsrcApart
  exact ⟨t, gives_compressWork_overflow hrows hthresh hwr hrd (State.rowOut_congr hread _ _) hcap, hw.state⟩

/-- A COMPRESS of one row that fits writes its runs and the two row pointers. -/
theorem gives_compressWork (hdst : dmDst c = loftAddr j b) (hdstIn : b + dmCap c ≤ 2 ^ 25)
    (hptrApart : q + 8 ≤ b ∨ b + dmCap c ≤ q) {out : List Byte}
    (hout : s.rowOut i a (dmEsize c) (dmBytes c) (dmThresh c) = out) (hcap : out.length ≤ dmCap c) :
    ∃ t, Gives (compressWork p c) s (.ok out.length) t ∧ (∃ mem ecc, t = { s with mem := mem, ecc := ecc }) ∧
      t.loft j b out.length = out ∧ t.loftNum j q 4 = 0 ∧ t.loftNum j (q + 4) 4 = out.length ∧
      ∀ k, ¬(loftKey j b ≤ k ∧ k < loftKey j b + out.length) → ¬(loftKey j q ≤ k ∧ k < loftKey j q + 8) →
        t.byte k = s.byte k := by
  obtain ⟨t, hwr, hw, hrd, hread⟩ := gives_compressWork_head hi hj hsrcOwn hdstOwn hsrc hptr hsrcIn hptrIn hsrcApart
  obtain ⟨u, hwru, hu⟩ := gives_wr_loft (bs := out) ((hw.owns p j).trans hdstOwn) hj (a := b) eBoundsR (by omega)
  obtain ⟨v, hwrv, hv⟩ := gives_wr_loft (bs := toBytes 4 out.length) (((hu.owns p j).trans (hw.owns p j)).trans hdstOwn) hj
    (a := q + 4) eBoundsR (by simp; omega)
  have hend : dmPtr c + 4 * (0 + 1) = loftAddr j (q + 4) := by rw [hptr, loftAddr, loftAddr]; omega
  have hgo := gives_compressWork_row hrows hthresh hwr hrd ((State.rowOut_congr hread _ _).trans hout) hcap
    (by rw [Nat.add_zero, hdst]; exact hwru) (by rw [hend, Nat.zero_add]; exact hwrv)
  rw [Nat.zero_add] at hgo
  have hlen : (zeros 4).length = 4 := rfl
  have htb : ∀ k, t.byte k = if loftKey j q ≤ k ∧ k < loftKey j q + 4 then (zeros 4).getD (k - loftKey j q) 0 else s.byte k :=
    fun k => (hw.byte k).trans (by rw [hlen])
  have hkey : loftKey j (q + 4) = loftKey j q + 4 := rfl
  have hvb : ∀ k, ¬(loftKey j q + 4 ≤ k ∧ k < loftKey j q + 8) → v.byte k = u.byte k := fun k hk => by
    rw [hv.byte, toBytes_length, hkey, if_neg (by omega)]
  have hub : ∀ k, ¬(loftKey j b ≤ k ∧ k < loftKey j b + out.length) → u.byte k = t.byte k := fun k hk => by
    rw [hu.byte, if_neg hk]
  refine ⟨v, hgo, ?_, ?_, ?_, ?_, ?_⟩
  · obtain ⟨_, _, rfl⟩ := hw.state
    obtain ⟨_, _, rfl⟩ := hu.state
    obtain ⟨mem, ecc, rfl⟩ := hv.state
    exact ⟨mem, ecc, rfl⟩
  · refine Eq.trans (State.loft_eq_of_byte fun l hl => hvb _ ?_) hu.loft_same
    simp only [loftKey]
    omega
  · have hzero : v.loft j q 4 = zeros 4 := by
      refine Eq.trans (State.loft_eq_of_byte fun l hl => ?_) (hw.loft_same (a := q))
      refine (hvb _ ?_).trans (hub _ ?_)
      all_goals
        simp only [loftKey]
        omega
    rw [State.loftNum, hzero, ofBytes_zeros]
  · have hsame := hv.loft_same
    rw [toBytes_length] at hsame
    rw [State.loftNum, hsame, ofBytes_toBytes_of_lt (by omega)]
  · intro k hb hq
    rw [hvb k (by omega), hub k hb, htb, if_neg (by omega)]

end

/-! ### EXPAND (R225) -/

theorem slice_length (bs : List Byte) (o z : Nat) : (slice bs o z).length = z := by
  simp only [slice, zeros, List.length_append, List.length_take, List.length_drop, List.length_replicate]
  omega

theorem field_lt (bs : List Byte) (o z : Nat) : field bs o z < 256 ^ z := by
  have h := ofBytes_lt (slice bs o z)
  rwa [slice_length] at h

/-- The values of a row's runs fit their element size. -/
theorem parseRow_lt {z n : Nat} {bs : List Byte} {es : List (Nat × Nat)} (h : parseRow z n bs = some es) :
    ∀ e ∈ es, e.2 < 256 ^ z := by
  have hrun : ∀ (bs : List Byte) (xs : List (Nat × Nat)) (len : Nat), parseRun z bs = some (xs, len) → ∀ e ∈ xs, e.2 < 256 ^ z := by
    intro bs xs len hparse e he
    unfold parseRun at hparse
    extract_lets start c v0 len' offs at hparse
    split at hparse
    · cases hparse
    · obtain ⟨rfl, -⟩ := Prod.mk.inj (Option.some.inj hparse)
      obtain ⟨x, -, rfl⟩ := List.mem_map.mp he
      exact field_lt ..
  induction n generalizing bs es with
  | zero =>
    cases bs with
    | nil =>
      obtain rfl := Option.some.inj h
      simp
    | cons x bs => cases h
  | succ n ih =>
    cases bs with
    | nil =>
      obtain rfl := Option.some.inj h
      simp
    | cons x bs =>
      rw [parseRow] at h
      split at h
      · cases h
      · next xs len hparse =>
        split at h
        · cases h
        · next ys hrest =>
          split at h
          · obtain rfl := Option.some.inj h
            intro e he
            exact (List.mem_append.mp he).elim (hrun _ _ _ hparse e) (ih hrest e)
          · cases h
      · simp

/-- Value `k` of a row that is dense. -/
def denseAt (es : List (Nat × Nat)) (k : Nat) : Nat :=
  match es.find? (fun e => decide (e.1 = k)) with
  | some e => e.2
  | none => 0

/-- A dense row of `m` elements of `z` bytes. -/
def denseRow (z m : Nat) (es : List (Nat × Nat)) : List Byte := (List.range m).flatMap (fun k => toBytes z (denseAt es k))

theorem denseRow_length (z m : Nat) (es : List (Nat × Nat)) : (denseRow z m es).length = z * m := by
  simp [denseRow, List.length_flatMap, Nat.mul_comm]

theorem denseAt_lt {z : Nat} {es : List (Nat × Nat)} (h : ∀ e ∈ es, e.2 < 256 ^ z) (k : Nat) : denseAt es k < 256 ^ z := by
  unfold denseAt
  split
  · next e hfind => exact h e (List.mem_of_find?_eq_some hfind)
  · exact Nat.pow_pos (by decide)

/-- Each element stands at its place. -/
theorem field_denseRow {z m k : Nat} {es : List (Nat × Nat)} (hk : k < m) (h : ∀ e ∈ es, e.2 < 256 ^ z) :
    field (denseRow z m es) (z * k) z = denseAt es k := by
  have hend : z * k + z ≤ z * m := by
    rw [← Nat.mul_succ]
    exact Nat.mul_le_mul_left z hk
  have hcut : ((denseRow z m es).drop (z * k)).take z = toBytes z (denseAt es k) := by
    refine List.ext_getElem? fun n => ?_
    by_cases hn : n < z
    · rw [List.getElem?_take_of_lt hn, List.getElem?_drop, Nat.mul_comm z k, denseRow,
        getElem?_flatMap_rows (len := z) (by simp) (by simpa using hk) hn, List.getElem_range]
    · rw [List.getElem?_eq_none (by simp; omega), List.getElem?_eq_none (by simp; omega)]
  rw [field, slice, hcut, toBytes_length, Nat.sub_self]
  exact (congrArg ofBytes (List.append_nil _)).trans (ofBytes_toBytes_of_lt (denseAt_lt h k))

section
variable {q : Nat} {es : List (Nat × Nat)} (hptr : dmPtr c = loftAddr i q) (hrows : dmRows c = 1)
  (hptrIn : q + 8 ≤ 2 ^ 25) (hdstIn : b + dmBytes c ≤ 2 ^ 25) (hsize : dmBytes c % dmEsize c = 0)
  (hle : s.loftNum i q 4 ≤ s.loftNum i (q + 4) 4) (h0 : s.loftNum i q 4 % 4 = 0) (h1 : s.loftNum i (q + 4) 4 % 4 = 0)
  (hsrcIn : a + s.loftNum i (q + 4) 4 ≤ 2 ^ 25)
  (hparse : parseRow (dmEsize c) (s.loftNum i (q + 4) 4 - s.loftNum i q 4)
    (s.loft i (a + s.loftNum i q 4) (s.loftNum i (q + 4) 4 - s.loftNum i q 4)) = some es)
  (hes : ∀ e ∈ es, e.1 < dmBytes c / dmEsize c)
include hi hj hsrcOwn hdstOwn hsrc hdst hptr hrows hptrIn hdstIn hsize hle h0 h1 hsrcIn hparse hes

/-- An EXPAND of one row writes it dense. -/
theorem gives_expandWork : ∃ t, Gives (expandWork p c) s (.ok ((dmRows c - 1) * dmDpitch c + dmBytes c)) t ∧
    Wrote s t (loftKey j b) (denseRow (dmEsize c) (dmBytes c / dmEsize c) es) ∧
    (denseRow (dmEsize c) (dmBytes c / dmEsize c) es).length = dmBytes c := by
  have hlen : (denseRow (dmEsize c) (dmBytes c / dmEsize c) es).length = dmBytes c := by
    rw [denseRow_length]
    exact Nat.mul_div_cancel' (Nat.dvd_of_mod_eq_zero hsize)
  have hrd0 := gives_rdNum_loft (s := s) hsrcOwn hi (a := q) (n := 4) eBoundsR (by omega)
  have hrd1 := gives_rdNum_loft (s := s) hsrcOwn hi (a := q + 4) (n := 4) eBoundsR (by omega)
  have hrd := gives_rd_loft (s := s) hsrcOwn hi (a := a + s.loftNum i q 4) (n := s.loftNum i (q + 4) 4 - s.loftNum i q 4) eBoundsR
    (by omega)
  obtain ⟨t, hwr, hw⟩ := gives_wr_loft (s := s) (bs := denseRow (dmEsize c) (dmBytes c / dmEsize c) es) hdstOwn hj (a := b)
    eBoundsR (by omega)
  have hp0 : dmPtr c + 4 * 0 = loftAddr i q := hptr
  have hp1 : dmPtr c + 4 * (0 + 1) = loftAddr i (q + 4) := by rw [hptr, loftAddr, loftAddr]; omega
  have hps : dmSrc c + s.loftNum i q 4 = loftAddr i (a + s.loftNum i q 4) := by rw [hsrc, loftAddr, loftAddr]; omega
  have hpd : dmDst c + 0 * dmDpitch c = loftAddr j b := by rw [hdst, Nat.zero_mul]; rfl
  rw [← hp0] at hrd0
  rw [← hp1] at hrd1
  rw [← hps] at hrd
  rw [← hpd] at hwr
  have hgood : ¬ (s.loftNum i (q + 4) 4 < s.loftNum i q 4 ∨ s.loftNum i q 4 % 4 ≠ 0 ∨ s.loftNum i (q + 4) 4 % 4 ≠ 0) := by omega
  have hany : es.any (fun e => decide (dmBytes c / dmEsize c ≤ e.1)) = false := by
    rw [List.any_eq_false]
    intro e he
    simpa using hes e he
  refine ⟨t, ?_, hw, hlen⟩
  unfold expandWork
  dsimp only
  rw [hrows]
  refine Gives.bind (t := t) (a := ()) (Gives.bind (a := ()) (Gives.atEntry 0 (hrd0.bind (hrd1.bind ?_))) (.pure () t)) (.pure _ t)
  rw [if_neg hgood]
  refine hrd.bind ?_
  rw [hparse]
  dsimp only
  rw [hany, if_neg Bool.false_ne_true]
  exact hwr

end

end

end Sys2Proof.Machine
end

section
/-!
SUPPORT, O39. The start and the completion of a DMA descriptor (R126, R145, R190, R224, R228, R269).
-/

namespace Sys2Proof.Machine

/-! ### The start of a descriptor (R194, R224) -/

/-- A DMA descriptor in execution that holds the tags `tags` and has written `size` bytes. -/
def dmRun (d : Desc) (tags : List Nat) (size : Nat) : RCur :=
  { desc := d, caps := [], bases := [], err := 0, errIdx := noEntry, fcode := 0, tags := tags, todo := [], reads := [],
    ready := true, bound := false, next := 0, size := size }

/-- The work of a descriptor on this module. -/
def dmWork (d : Desc) : UM Nat :=
  match reOp d.bits.toNat with
  | 1 => copyWork d.part d.bits.toNat
  | 2 => compressWork d.part d.bits.toNat
  | _ => expandWork d.part d.bits.toNat

theorem dmWork_copy {d : Desc} (h : reOp d.bits.toNat = 1) : dmWork d = copyWork d.part d.bits.toNat := by simp only [dmWork, h]
theorem dmWork_compress {d : Desc} (h : reOp d.bits.toNat = 2) : dmWork d = compressWork d.part d.bits.toNat := by
  simp only [dmWork, h]
theorem dmWork_expand {d : Desc} (h : reOp d.bits.toNat = 3) : dmWork d = expandWork d.part d.bits.toNat := by
  simp only [dmWork, h]

/-- The state as the work of a descriptor of shed `sh` finds it: the descriptor has left the queue. -/
def State.dmTaken (s : State) (sh : Nat) (rest : List Desc) : State :=
  (s.modDma sh (fun x => { x with queue := rest })).touch sh

/-- The descriptor is in execution. -/
def State.dmStarted (s : State) (sh : Nat) (c : RCur) : State := s.modDma sh (fun x => { x with cur := some c })

section
variable {s : State} {sh : Nat} {d : Desc} {rest : List Desc} (hsh : sh < 32) (hq : (s.dma sh).queue = d :: rest)
  (hidle : (s.dma sh).cur = none) (hawake : (s.shed sh).asleep = false)
include hsh hq hidle hawake

section
variable (hlocal : dmRemote d.bits.toNat = false)
include hlocal

theorem exec_dmStart_local : exec (.dmaDescriptorStart sh) s =
    match (dmWork d).run plainly (s.dmTaken sh rest) with
    | some (.ok n, u) => .next (u.dmStarted sh (dmRun d [] n))
    | some (.error er, u) => .next (u.dmFail sh d (er % 2 ^ 16) (if er / 2 ^ 16 = 0 then noEntry else er / 2 ^ 16 - 1) 0)
    | none => .next s := by
  show execDmaDescriptorStart sh s = _
  simp only [execDmaDescriptorStart, Nat.not_le.mpr hsh, hq, hidle, hawake, hlocal, Option.isSome_none, Bool.false_eq_true,
    false_and, or_false, if_false, dmWork, State.dmTaken, State.dmStarted, dmRun] <;> rfl

theorem exec_dmStart_gives {n : Nat} {t : State} (h : Gives (dmWork d) (s.dmTaken sh rest) (.ok n) t) :
    exec (.dmaDescriptorStart sh) s = .next (t.dmStarted sh (dmRun d [] n)) := by
  rw [exec_dmStart_local hsh hq hidle hawake hlocal, h.run plainly (by simp)]

end

section
variable (hremote : dmRemote d.bits.toNat = true)
include hremote

omit hidle hawake in
theorem exec_dmStart_noTag (htag : s.freeTag = none) : exec (.dmaDescriptorStart sh) s = .next s := by
  show execDmaDescriptorStart sh s = _
  simp [execDmaDescriptorStart, Nat.not_le.mpr hsh, hq, hremote, htag]

theorem exec_dmStart_sends {ps : List Packet} {v : State} {g : Nat}
    (hwork : (copyPackets d.part d.bits.toNat).run plainly (s.dmTaken sh rest) = some (.ok ps, v)) (hps : ps ≠ [])
    (htag : s.freeTag = some g) (hroute : s.routable (dmDev d.bits.toNat) = true) :
    exec (.dmaDescriptorStart sh) s =
      .next ((ps.foldl (fun s k => s.emit (withTag g k)) (v.holdTag g d.part (.dma sh none))).dmStarted sh (dmRun d [g] 0)) := by
  have hwork' : (copyPackets d.part d.bits.toNat).run plainly ((s.modDma sh (fun x => { x with queue := rest })).touch sh) =
    some (.ok ps, v) := hwork
  show execDmaDescriptorStart sh s = _
  simp only [execDmaDescriptorStart, Nat.not_le.mpr hsh, hq, hidle, hawake, hremote, htag, hwork', hps, hroute,
    Option.isSome_none, Bool.false_eq_true, Bool.true_eq_false, reduceCtorEq, and_false, or_false, if_false, if_true,
    State.dmStarted, dmRun]

end

end

theorem State.dma_dmStarted (s : State) (sh : Nat) (c : RCur) : (s.dmStarted sh c).dma sh = { s.dma sh with cur := some c } :=
  s.dma_modDma_same sh _

theorem State.dma_dmTaken (s : State) (sh : Nat) (rest : List Desc) : (s.dmTaken sh rest).dma sh = { s.dma sh with queue := rest } :=
  (State.dma_of_units (State.units_touch ..) sh).trans (s.dma_modDma_same sh _)

/-- Packets change ports and the arrival count alone. -/
theorem State.foldl_emit_eq (g : Nat) (ks : List Packet) (s : State) :
    ∃ ports c, ks.foldl (fun s k => s.emit (withTag g k)) s = { s with ports := ports, ctr := c } := by
  induction ks generalizing s with
  | nil => exact ⟨_, _, rfl⟩
  | cons k ks ih =>
    obtain ⟨ports, c, h⟩ : ∃ ports c, s.emit (withTag g k) = { s with ports := ports, ctr := c } := by
      unfold State.emit State.emitFrom
      extract_lets h
      split
      · exact ⟨_, _, rfl⟩
      · split <;> exact ⟨_, _, rfl⟩
    obtain ⟨ports', c', h'⟩ := ih (s.emit (withTag g k))
    exact ⟨ports', c', by rw [List.foldl_cons, h', h]⟩

/-- A descriptor that fails: its code stands in RE_STATUS, its tag is given back, and memory and units are as before (R228, R231). -/
theorem State.dmFail_frame (s : State) (sh : Nat) (d : Desc) {code : Nat} (entry fcode : Nat) (hcode : code < 2 ^ 16)
    (hplain : code ≠ eFwdFull ∧ code ≠ ePoison) :
    (s.dmFail sh d code entry fcode).dma sh = s.dma sh ∧
      (s.dmFail sh d code entry fcode).obj (kReStatus d.part) / 2 ^ 16 % 2 ^ 16 = code ∧
      tagBack s (s.dmFail sh d code entry fcode) d := by
  obtain ⟨-, -, hunits, -, htag⟩ := s.endDesc_frame d code 0 sh entry fcode
  refine ⟨State.dma_of_units hunits sh, ?_, htag⟩
  have hobj := State.obj_of_still (State.still_failDesc (s.reStatus d.part code d.stall) d code 0 sh entry fcode) (kReStatus d.part)
  obtain ⟨x, hx⟩ := ((s.reStatus d.part code d.stall).failDesc d code 0 sh entry fcode).giveTag_eq d.stall d.tagId
  have hfree : s.dmFail sh d code entry fcode =
    { (s.reStatus d.part code d.stall).failDesc d code 0 sh entry fcode with stalls := x } := hx
  have hread : (s.dmFail sh d code entry fcode).obj (kReStatus d.part) = (s.reStatus d.part code d.stall).obj (kReStatus d.part) := by
    rw [hfree]
    exact hobj
  have hbits : ∀ n : Nat, n / 2 ^ 16 % 2 ^ 16 = bits n 16 16 := fun n => by rw [bits, Nat.shiftRight_eq_div_pow]
  rw [hread, State.reStatus_plain s d.part d.stall hplain, State.setObj_same, hbits, bits_setBits_apart _ _ (by omega),
    bits_setBits, Nat.mod_eq_of_lt hcode]

/-! ### The completion of a descriptor (R126, R145) -/

section
variable {s : State} {sh : Nat} {c : RCur} (hsh : sh < 32) (hc : (s.dma sh).cur = some c)
include hsh hc

theorem exec_dmComplete_waits (htags : c.tags ≠ []) : exec (.dmaDescriptorComplete sh) s = .next s := by
  show execDmaDescriptorComplete sh s = _
  simp [execDmaDescriptorComplete, Nat.not_le.mpr hsh, hc, htags]

theorem exec_dmComplete (htags : c.tags = []) (herr : c.err = 0) (hcmpl : dCmpl c.desc.bits.toNat < 2) :
    exec (.dmaDescriptorComplete sh) s =
      .next (((((s.modDma sh (fun x => { x with cur := none })).touch sh).signalled c.desc.bits.toNat)).freeDesc c.desc) := by
  show execDmaDescriptorComplete sh s = _
  simp only [execDmaDescriptorComplete, Nat.not_le.mpr hsh, hc, htags, herr, ne_eq, not_true_eq_false, if_false,
    State.signal_signalled _ _ _ hcmpl]

end

theorem State.still_modDma_touch (s : State) (sh : Nat) (f : Dma → Dma) : ((s.modDma sh f).touch sh).still = s.still := by
  unfold State.touch
  refine (State.still_modShed _ _ ?_).trans (s.still_modShed sh (f := fun x => { x with dma := f x.dma }) ?_)
  · exact fun _ => rfl
  · exact fun _ => rfl

/-- Giving a tag back changes no unit and nothing of memory or flags. -/
theorem State.freeDesc_eq (s : State) (d : Desc) : ∃ x, s.freeDesc d = { s with stalls := x } := s.giveTag_eq d.stall d.tagId

/-- Settles O39: each local operation by what its work gives, the completion by what a signal leaves. -/
theorem dmaDescriptors : Obligations.DmaDescriptors := by
  unfold Obligations.DmaDescriptors
  intro s sh hsh
  refine ⟨?_, ?_⟩
  · intro d rest hq hidle hawake c u n runs
    have hqueue : (s.dmTaken sh rest).dma sh = { s.dma sh with queue := rest } := s.dma_dmTaken sh rest
    have hruns : ∀ (t : State) (size : Nat), t.sheds = (s.dmTaken sh rest).sheds → runs size (t.dmStarted sh (dmRun d [] size)) := by
      intro t size hsheds
      have hdma : t.dma sh = (s.dmTaken sh rest).dma sh :=
        congrArg (fun f => (FMap.get (fun _ => Shed.reset) f sh).dma) hsheds
      refine ⟨?_, dmRun d [] size, ?_, rfl, rfl, rfl, rfl⟩
      · rw [State.dma_dmStarted, hdma, hqueue]
      · rw [State.dma_dmStarted]
    refine ⟨?copy, ?compress, ?expand, ?work, ?noTag, ?sends⟩
    case copy =>
      intro i j a b hop hlocal hown hown' hi hj hrows hsrc hdst hsrcIn hdstIn hapart
      obtain ⟨t, hgo, ht⟩ := gives_copyWork (s := s.dmTaken sh rest) hi hj hown hown' hsrc hdst hrows hsrcIn hdstIn hapart
      have hwork : dmWork d = copyWork d.part c := dmWork_copy hop
      obtain ⟨mem, ecc, hstate⟩ := ht.state
      refine ⟨_, exec_dmStart_gives hsh hq hidle hawake hlocal (hwork ▸ hgo), fun r k hr hk => ht.copied r k hr hk,
        fun k hk => ht.kept k hk, hruns t _ (by rw [hstate]), ?_, ?_⟩
      · rw [hstate]
        rfl
      · rw [hstate]
        rfl
    case compress =>
      intro i j a b q hop hlocal hthresh hown hown' hi hj hrows hz hsrc hdst hptr hsrcIn hdstIn hptrIn hptrApart hsrcApart z es nz out
      have hwork : dmWork d = compressWork d.part c := dmWork_compress hop
      have hapart : i ≠ j ∨ (a + dmBytes c ≤ q ∨ q + 8 ≤ a) := hsrcApart.imp_right And.right
      refine ⟨fun hcap => ?_, fun hcap => ?_⟩
      · obtain ⟨t, hgo, ⟨mem, ecc, hstate⟩, hout, h0, h1, hkept⟩ := gives_compressWork (s := s.dmTaken sh rest) hi hj hown hown'
          hsrc hptr hrows hthresh hsrcIn hptrIn hapart hdst hdstIn hptrApart (out := out) rfl hcap
        exact ⟨_, exec_dmStart_gives hsh hq hidle hawake hlocal (hwork ▸ hgo), hout, h0, h1, hkept, hruns t _ (by rw [hstate])⟩
      · obtain ⟨t, hgo, mem, ecc, hstate⟩ := gives_compressWork_full (s := s.dmTaken sh rest) hi hj hown hown'
          hsrc hptr hrows hthresh hsrcIn hptrIn hapart hcap
        have hexec := exec_dmStart_local hsh hq hidle hawake hlocal
        rw [hwork, hgo.run plainly (by decide)] at hexec
        have hexec' : exec (.dmaDescriptorStart sh) s = .next (t.dmFail sh d 0x070D 0 0) := hexec
        obtain ⟨hdma, hcode, htag⟩ := t.dmFail_frame sh d 0 0 (code := 0x070D) (by decide) (by decide)
        have ht : t.dma sh = { s.dma sh with queue := rest } := by rw [hstate, ← hqueue]; rfl
        refine ⟨_, hexec', ?_, ?_, hcode, ?_⟩
        · exact (congrArg Dma.cur (hdma.trans ht)).trans hidle
        · exact congrArg Dma.queue (hdma.trans ht)
        · have hstall : ∀ k, t.stall k = s.stall k := fun k => by rw [hstate]; rfl
          simpa only [tagBack, hstall] using htag
    case expand =>
      intro i j a b q es hop hlocal hown hown' hi hj hrows hz hsrc hdst hptr hptrIn hdstIn hsize z r0 r1 hle h0 h1 hsrcIn hparse hes
      have hwork : dmWork d = expandWork d.part c := dmWork_expand hop
      obtain ⟨t, hgo, hw, hlen⟩ := gives_expandWork (s := s.dmTaken sh rest) hi hj hown hown' hsrc hdst hptr hrows hptrIn hdstIn
        hsize hle h0 h1 hsrcIn hparse hes
      obtain ⟨mem, ecc, hstate⟩ := hw.state
      have hsize' : (dmRows c - 1) * dmDpitch c + dmBytes c = dmBytes c := by rw [hrows, Nat.sub_self, Nat.zero_mul, Nat.zero_add]
      rw [hsize'] at hgo
      refine ⟨_, exec_dmStart_gives hsh hq hidle hawake hlocal (hwork ▸ hgo), fun k hk => ?_, fun k hk => ?_,
        hruns t _ (by rw [hstate])⟩
      · have hsame := hw.loft_same
        rw [hlen] at hsame
        have hend : z * k + z ≤ n := by
          rw [← Nat.mul_succ]
          exact (Nat.mul_le_mul_left z hk).trans (Nat.mul_div_le n z)
        show t.loftNum j (b + z * k) z = denseAt es k
        rw [← t.field_loft j b hend, hsame, field_denseRow hk (parseRow_lt hparse)]
      · show t.byte k = s.byte k
        rw [hw.byte, hlen, if_neg hk]
        rfl
    case work =>
      intro hlocal work
      have hexec := exec_dmStart_local hsh hq hidle hawake hlocal
      have hwork : (dmWork d).run plainly (s.dmTaken sh rest) = work := rfl
      rw [hwork] at hexec
      refine ⟨fun hnone => ?_, fun m v hsome => ?_⟩
      · rw [hexec, hnone]
      · rw [hsome] at hexec
        exact ⟨_, hexec, rfl, dmRun d [] m, by rw [State.dma_dmStarted], rfl, rfl, rfl, rfl⟩
    case noTag => exact fun hremote htag => exec_dmStart_noTag hsh hq hremote htag
    case sends =>
      intro ps v g hremote hwork hps htag hroute
      obtain ⟨ports, k, hemit⟩ := State.foldl_emit_eq g ps (v.holdTag g d.part (.dma sh none))
      refine ⟨_, exec_dmStart_sends hsh hq hidle hawake hremote hwork hps htag hroute, ?_, ?_, ?_⟩
      · rw [hemit]
        rfl
      · exact ⟨dmRun d [g] 0, by rw [State.dma_dmStarted], rfl, rfl⟩
      · rw [hemit]
        exact ⟨_, List.mem_append_right _ (List.mem_singleton_self _), rfl, rfl⟩
  · intro c hc d
    refine ⟨fun htags => exec_dmComplete_waits hsh hc htags, fun htags herr hcmpl => ?_⟩
    have hkeeps := (((s.modDma sh (fun x => { x with cur := none })).touch sh)).signalled_keepsUnits d
    have hstill := (((s.modDma sh (fun x => { x with cur := none })).touch sh)).signalled_still d
    rw [State.still_modDma_touch] at hstill
    have htag := State.tagBack_freeDesc (s := s) (d := c.desc) (congrArg Still.stalls hstill)
    obtain ⟨x, hx⟩ := ((((s.modDma sh (fun x => { x with cur := none })).touch sh).signalled d)).freeDesc_eq c.desc
    have hdma : ((((s.modDma sh (fun x => { x with cur := none })).touch sh).signalled d)).dma sh = { s.dma sh with cur := none } :=
      (State.dma_of_units hkeeps.units sh).trans ((State.dma_of_units (State.units_touch ..) sh).trans (s.dma_modDma_same sh _))
    refine ⟨_, exec_dmComplete hsh hc htags herr hcmpl, ?_, ?_, ?_, fun f => ?_, htag⟩
    · rw [hx]
      exact congrArg Dma.cur hdma
    · rw [hx]
      exact (congrArg Dma.queue hdma :)
    · rw [hx]
      exact congrArg Still.mem hstill
    · have hflag := congrFun (congrArg Still.flag (s.still_modDma_touch sh (fun x => { x with cur := none }))) f
      rw [hx]
      exact (congrFun (congrArg Still.flag hstill) f).trans (if_congr Iff.rfl rfl hflag)

end Sys2Proof.Machine
end

section
/-!
SUPPORT, O43, refuted. The clause on a refusal says what becomes of the packets that wait at its port for every use of the tag; a tag
held for a packet of that port which waits for its pushes takes that packet with it.
-/

namespace Sys2Proof.Machine

/-- A MESSAGE NACK for tag 1 of partition 0 with fabric code 1 (R266, R267, R270). -/
def nackArrived : Arrived :=
  { pkt := { hdr := BitVec.ofNat 256 (0x54 + 2 ^ 96 + 2 ^ 112), pay := [], trailer := none }, stamp := 0, code := 0, busy := false }

/-- A packet that keeps its place until its pushes are accepted (R149). -/
def heldArrived : Arrived :=
  { pkt := { hdr := 0, pay := [], trailer := none }, stamp := 7, code := 0, busy := true }

/-- Both wait at port 0, and tag 1 is held by a flag operation whose result goes to the second. -/
def refusedState : State :=
  { State.reset with
    ports := [(0, { Port.reset with ing := [nackArrived, heldArrived] })]
    fabric := { State.reset.fabric with
      tags := [{ tag := 1, part := 0, use := .flag (.ingress 0 7) none, since := 0, got := [] }] } }

/-- The packets that wait at port 0 of the state a step answers. -/
def waitingAt0 (o : Out1) : Option (List Nat) :=
  match o with
  | .next t => some ((t.port 0).ing.map Arrived.stamp)
  | _ => none

/-- The refusal takes both packets away. -/
theorem refusedState_nack : waitingAt0 (exec (.messageNack 0 0) refusedState) = some [] := by
  decide

/-- Refutes O43: a refusal takes away the packets with its own stamp, says the statement, whatever its tag is held for; but where
the tag is held for a flag operation of a packet that waits at the same port, that packet leaves with it. -/
theorem not_messages : ¬ Obligations.Messages := by
  intro h
  obtain ⟨hpackets, -⟩ := h refusedState
  obtain ⟨-, -, -, -, -, htag, -⟩ := hpackets 0 0 nackArrived (by decide) rfl rfl rfl (by decide) (by decide)
  obtain ⟨-, -, hnack⟩ := htag
    { tag := 1, part := 0, use := .flag (.ingress 0 7) none, since := 0, got := [] } (by decide) (by decide)
  obtain ⟨t, hexec, hing, -⟩ := hnack (by decide) (by decide) (by decide)
  have hwaiting := refusedState_nack
  rw [hexec] at hwaiting
  have hport : (t.port 0).ing = [heldArrived] := hing (by decide)
  simp [waitingAt0, hport] at hwaiting

end Sys2Proof.Machine
end
section
/-!
SUPPORT, for MemoryStaysCanonical: shared operations, packets and the mesh leave memory as it is.
-/

namespace Sys2Proof.Machine

/-! ### States with the same memory -/

/-- `t` has the memory of `s`.  A structure, so that folds over long functions are compared as states and not field by field. -/
structure SameMem (s t : State) : Prop where
  mem : t.mem = s.mem

theorem SameMem.refl (s : State) : SameMem s s := ⟨rfl⟩

theorem SameMem.trans {s t u : State} (h : SameMem s t) (h' : SameMem t u) : SameMem s u := ⟨h'.mem.trans h.mem⟩

theorem SameMem.ite {s t u : State} {c : Prop} [Decidable c] (h : SameMem s t) (h' : SameMem s u) :
    SameMem s (if c then t else u) := by
  split
  · exact h
  · exact h'

/-- A fold of steps that leave memory alone leaves it alone. -/
theorem SameMem.foldl {β : Type} {f : State → β → State} (h : ∀ s b, SameMem s (f s b)) (l : List β) (s : State) :
    SameMem s (l.foldl f s) :=
  keeps_foldl (P := fun t : State => SameMem s t) (fun t b ht => ht.trans (h t b)) l s (.refl s)

/-- The same for a fold that may stop. -/
theorem SameMem.foldlM {β ε : Type} {f : State → β → Except ε State}
    (h : ∀ s b t, f s b = .ok t → SameMem s t) (l : List β) :
    ∀ {s t : State}, l.foldlM f s = .ok t → SameMem s t := by
  induction l with
  | nil => intro s t ht; cases ht; exact .refl s
  | cons b l ih =>
    intro s t ht
    rw [List.foldlM_cons] at ht
    cases hb : f s b with
    | error e => rw [hb] at ht; cases ht
    | ok u => rw [hb] at ht; exact (h _ _ _ hb).trans (ih ht)

/-- The same for a fold of steps that may have no result. -/
theorem SameMem.foldlM_option {β : Type} {f : State → β → Option State}
    (h : ∀ s b t, f s b = some t → SameMem s t) (l : List β) :
    ∀ {s t : State}, l.foldlM f s = some t → SameMem s t := by
  induction l with
  | nil => intro s t ht; cases ht; exact .refl s
  | cons b l ih =>
    intro s t ht
    obtain ⟨u, hu, hrest⟩ := Option.bind_eq_some_iff.mp ht
    exact (h _ _ _ hu).trans (ih hrest)

/-- A push leaves memory as it is in `s`, whether it is accepted or waits. -/
def Accept.KeepsMem (s : State) : Accept → Prop
  | .ok t => SameMem s t
  | .wait t => SameMem s t
  | .refuse _ => True

/-! ### Windows, stalls, watches, queues and mailboxes -/

@[simp] theorem State.mem_modStall (s : State) (t : Nat) (f : Stall → Stall) :
    (s.modStall t f).mem = s.mem := rfl

@[simp] theorem State.mem_modShed (s : State) (k : Nat) (f : Shed → Shed) :
    (s.modShed k f).mem = s.mem := rfl

@[simp] theorem State.mem_modEngine (s : State) (e : Nat) (f : Engine → Engine) :
    (s.modEngine e f).mem = s.mem := rfl

@[simp] theorem State.mem_modHbm (s : State) (k : Nat) (f : Stack → Stack) :
    (s.modHbm k f).mem = s.mem := rfl

@[simp] theorem State.mem_modYard (s : State) (y : Nat) (f : Yard → Yard) :
    (s.modYard y f).mem = s.mem := rfl

@[simp] theorem State.mem_modPart (s : State) (p : Nat) (f : Part → Part) :
    (s.modPart p f).mem = s.mem := rfl

@[simp] theorem State.mem_modPort (s : State) (k : Nat) (f : Port → Port) :
    (s.modPort k f).mem = s.mem := rfl

@[simp] theorem State.mem_bumpObj (s : State) (k n : Nat) :
    (s.bumpObj k n).mem = s.mem := rfl

@[simp] theorem State.mem_bump48 (s : State) (k n : Nat) :
    (s.bump48 k n).mem = s.mem := rfl

theorem State.keepsMem_pushDelay (s : State) (k : Nat) (d : Delayed) : (s.pushDelay k d).KeepsMem s := by
  unfold State.pushDelay
  dsimp only
  split <;> exact ⟨rfl⟩

theorem State.keepsMem_enqueue (s : State) (k q kind : Nat) (ev : BitVec 256) : (s.enqueue k q kind ev).KeepsMem s := by
  unfold State.enqueue
  exact iteInduction (fun _ => ⟨rfl⟩) (fun _ => ⟨rfl⟩)

theorem State.keepsMem_pushQueue (s : State) (qi kind stall part : Nat) (ev : BitVec 256) :
    (s.pushQueue qi kind stall part ev).KeepsMem s := by
  unfold State.pushQueue
  dsimp only
  split
  · trivial
  · split
    · trivial
    · split
      · trivial
      · split
        · trivial
        · split
          · exact s.keepsMem_pushDelay _ _
          · split
            · exact .refl s
            · exact s.keepsMem_enqueue ..

theorem State.keepsMem_enmail (s : State) (t : Nat) (ev : BitVec 256) : (s.enmail t ev).KeepsMem s := by
  unfold State.enmail
  dsimp only
  split <;> exact ⟨rfl⟩

theorem State.keepsMem_pushMail (s : State) (t stall part : Nat) (ev : BitVec 256) :
    (s.pushMail t stall part ev).KeepsMem s := by
  unfold State.pushMail
  split
  · trivial
  · split
    · trivial
    · split
      · exact s.keepsMem_pushDelay _ _
      · split
        · exact .refl s
        · exact s.keepsMem_enmail ..

@[simp] theorem State.mem_pushError (s : State) (p : Nat) (ev : BitVec 256) :
    (s.pushError p ev).mem = s.mem := SameMem.mem <| by
  unfold State.pushError
  dsimp only
  split
  · exact .refl s
  · have hpush := s.keepsMem_enqueue ((s.part p).faultQ / 1024) ((s.part p).faultQ % 1024) kindError ev
    split
    · next heq => rwa [heq] at hpush
    · exact ⟨rfl⟩

@[simp] theorem State.mem_reportError (s : State) (p code stall srcKind srcIdx target idx fcode : Nat) :
    (s.reportError p code stall srcKind srcIdx target idx fcode).mem = s.mem := by
  unfold State.reportError
  dsimp only
  split <;> simp

@[simp] theorem State.mem_discardAhead (s : State) (p k : Nat) :
    (s.discardAhead p k).mem = s.mem := rfl

@[simp] theorem State.mem_beginStop (s : State) (p : Nat) (halted : Bool) :
    (s.beginStop p halted).mem = s.mem := SameMem.mem <| by
  unfold State.beginStop
  exact SameMem.trans ⟨State.mem_modPart ..⟩ (SameMem.foldl (fun u k => ⟨u.mem_discardAhead p k⟩) _ _)

@[simp] theorem State.mem_nanEvent (s : State) (p : Nat) (src : NanSrc) (cause elem : Nat) :
    (s.nanEvent p src cause elem).mem = s.mem := by
  unfold State.nanEvent
  dsimp only
  split
  · simp
  · split <;> simp

@[simp] theorem State.mem_stallFault (s : State) (p t code pc addr : Nat) :
    (s.stallFault p t code pc addr).mem = s.mem := by
  unfold State.stallFault
  simp only [State.mem_pushError, State.logPart_mem]
  split <;> simp

/-! ### Packets sent and answered -/

@[simp] theorem State.mem_land (s : State) (k : Nat) (p : Packet) :
    (s.land k p).mem = s.mem := rfl

@[simp] theorem State.mem_emitFrom (s : State) (k : Packet) (came : Option Nat) :
    (s.emitFrom k came).mem = s.mem := by
  unfold State.emitFrom
  dsimp only
  repeat' split
  all_goals simp

@[simp] theorem State.mem_emit (s : State) (k : Packet) :
    (s.emit k).mem = s.mem := by simp [State.emit]

@[simp] theorem State.mem_send (s : State) (x : HSpec) (pay : List Byte) :
    (s.send x pay).mem = s.mem := by simp [State.send]

@[simp] theorem State.mem_nack (s : State) (h code : Nat) :
    (s.nack h code).mem = s.mem := by simp [State.nack]

@[simp] theorem State.mem_unload (s : State) (k st : Nat) (p : Packet) :
    (s.unload k st p).mem = s.mem := rfl

@[simp] theorem State.mem_accepted (s : State) (h : Nat) :
    (s.accepted h).mem = s.mem := by
  unfold State.accepted
  split <;> simp

@[simp] theorem State.mem_doneIngress (s : State) (k st code : Nat) :
    (s.doneIngress k st code).mem = s.mem := by
  unfold State.doneIngress
  dsimp only
  split
  · simp
  · split <;> simp

@[simp] theorem State.mem_holdTag (s : State) (n part : Nat) (use : TagUse) :
    (s.holdTag n part use).mem = s.mem := rfl

@[simp] theorem State.mem_dropTag (s : State) (n : Nat) :
    (s.dropTag n).mem = s.mem := rfl

/-! ### Replies, errors and the control mesh -/

@[simp] theorem State.mem_replyStall (s : State) (t q : Nat) (v : BitVec 64) :
    (s.replyStall t q v).mem = s.mem := rfl

@[simp] theorem State.mem_freeWatches (s : State) (ids : List Nat) :
    (s.freeWatches ids).mem = s.mem := SameMem.mem <| by
  unfold State.freeWatches
  exact SameMem.foldl (fun _ _ => .ite ⟨by simp⟩ (.refl _)) _ _

@[simp] theorem State.mem_freeSlot (s : State) (k id : Nat) :
    (s.freeSlot k id).mem = s.mem := rfl

theorem State.mem_replyN (n : Nat) (s : State) (r : Reply) (v : BitVec 64) :
    (State.replyN n s r v).mem = s.mem := SameMem.mem <|
  ⟨congrArg Still.mem (s.calm_replyN n r v)⟩

@[simp] theorem State.mem_reply (s : State) (r : Reply) (v : BitVec 64) :
    (s.reply r v).mem = s.mem := State.mem_replyN ..

@[simp] theorem State.mem_fabricError (s : State) (part stall a fcode : Nat) :
    (s.fabricError part stall a fcode).mem = s.mem := by
  unfold State.fabricError
  split <;> simp

@[simp] theorem State.mem_rejectOp (s : State) (m : Mesh) (code fcode : Nat) :
    (s.rejectOp m code fcode).mem = s.mem := by
  unfold State.rejectOp
  split
  · simp
  · dsimp only
    split <;> simp

theorem State.mem_of_sendOp {s : State} {m : Mesh} {a depth : Nat} {r : Reply} {t : State}
    (h : s.sendOp m a depth r = some t) :
    t.mem = s.mem := by
  unfold State.sendOp at h
  dsimp only at h
  split at h
  · cases h; simp
  · split at h
    case h_6 => split at h <;> cases h <;> simp
    case h_3 | h_4 | h_5 =>
      split at h
      · cases h
      · cases h; simp
    all_goals cases h; simp

@[simp] theorem State.mem_report (s : State) (k : Nat) (u : UpRef) :
    (s.report k u).mem = s.mem := by
  unfold State.report
  split <;> simp

@[simp] theorem State.mem_fire (s : State) (k : Nat) (w : Watch) :
    (s.fire k w).mem = s.mem := by
  unfold State.fire
  dsimp only
  split
  · simp
  · simp
  · next heq =>
    cases hsend : State.sendOp (s.modShed k _) _ _ _ _ with
    | none => simp
    | some t => rw [Option.getD_some, State.mem_of_sendOp hsend]; simp
  · simp

@[simp] theorem State.mem_setGroup (s : State) (k id : Nat) (wait : List Nat) (more : Nat) (u : UpRef) :
    (s.setGroup k id wait more u).mem = s.mem := by
  unfold State.setGroup
  split <;> simp

@[simp] theorem State.mem_evalWatch (s : State) (k f : Nat) (v : Bool) (w : Watch) :
    (s.evalWatch k f v w).mem = s.mem := by
  unfold State.evalWatch
  split
  · rfl
  · split
    · split <;> simp
    · split <;> simp
    · rfl

@[simp] theorem State.mem_evalWatches (s : State) (k f : Nat) (v : Bool) :
    (s.evalWatches k f v).mem = s.mem := SameMem.mem <| by
  unfold State.evalWatches
  exact SameMem.foldl (fun t w => ⟨t.mem_evalWatch ..⟩) _ _

@[simp] theorem State.mem_writeFlag (s : State) (i : Nat) (v : Bool) :
    (s.writeFlag i v).mem = s.mem := by simp [State.writeFlag]

theorem State.mem_of_arm (s : State) (k : Nat) (w : Watch) {t : State} (h : s.arm k w = some t) :
    t.mem = s.mem := by
  unfold State.arm at h
  split at h
  · cases h
  · cases h; simp

@[simp] theorem State.mem_giveWid (s : State) (w : Nat) :
    (s.giveWid w).mem = s.mem := rfl

theorem State.mem_of_disarm {s : State} {id v : Nat} {r : Reply} {t : State} (h : s.disarm id v r = some t) :
    t.mem = s.mem := by
  unfold State.disarm at h
  dsimp only at h
  split at h
  · cases h; simp
  · rw [(SameMem.foldlM_option (fun _ _ _ hs => ⟨State.mem_of_sendOp hs⟩) _ h).mem]
    simp

/-! ### Stacks and channels -/

@[simp] theorem State.mem_bumpStack (s : State) (k sub : Nat) :
    (s.bumpStack k sub).mem = s.mem := rfl

@[simp] theorem State.mem_cacheAccess (s : State) (e p sector : Nat) (fills : Bool) :
    (s.cacheAccess e p sector fills).mem = s.mem := rfl

@[simp] theorem State.mem_useSlot (s : State) (e pc level : Nat) :
    (s.useSlot e pc level).mem = s.mem := rfl

@[simp] theorem State.mem_pass (s : State) (back : Bool) (t : Touch) :
    (s.pass back t).mem = s.mem := rfl

@[simp] theorem State.mem_countLoad (s : State) (p : Nat) (ks : List Nat) :
    (s.countLoad p ks).mem = s.mem := SameMem.mem <| by
  unfold State.countLoad
  refine SameMem.foldl ?_ _ _
  exact fun u b => ⟨u.setObj_mem _ _⟩

/-! ### Accesses of stalls -/

@[simp] theorem State.mem_dropRequests (s : State) (t n : Nat) :
    (s.dropRequests t n).mem = s.mem := SameMem.mem <| by
  unfold State.dropRequests
  exact SameMem.foldl (fun _ _ => .ite ⟨by simp⟩ (.refl _)) _ _

@[simp] theorem State.mem_poisonFault (s : State) (t : Nat) (a : Access) :
    (s.poisonFault t a).mem = s.mem := by simp [State.poisonFault]

@[simp] theorem State.mem_leaveWindow (s : State) (e i : Nat) :
    (s.leaveWindow e i).mem = s.mem := rfl

/-! ### The control issue queue -/

@[simp] theorem State.mem_popCtl (s : State) (t : Nat) :
    (s.popCtl t).mem = s.mem := rfl

@[simp] theorem State.mem_giveTag (s : State) (stall : Nat) (id : Option Nat) :
    (s.giveTag stall id).mem = s.mem := by
  unfold State.giveTag
  split
  · split <;> simp
  · simp

end Sys2Proof.Machine
end
section
/-!
SUPPORT, for MemoryStaysCanonical: flags and watches, command units and row engines leave memory as it is.
-/

namespace Sys2Proof.Machine

/-! ### Flags, watches and pens -/

@[simp] theorem State.mem_noteFull (n : Nat) (s : State) (r : Reply) : (State.noteFull n s r).mem = s.mem := by
  induction n generalizing s r with
  | zero => rfl
  | succ n ih =>
    cases r with
    | agg id =>
      simp only [State.noteFull]
      split
      · simp [ih]
      · rfl
    | _ => rfl

@[simp] theorem State.mem_watchFull (s : State) (sh : Nat) (m : Mesh) :
    (s.watchFull sh m).mem = s.mem := by
  unfold State.watchFull
  dsimp only
  split
  · rw [State.mem_reply, State.mem_noteFull]
    split
    · split <;> simp
    · rfl
  · simp
  · simp

@[simp] theorem State.mem_armFar (s : State) (m : Mesh) :
    (s.armFar m).mem = s.mem := SameMem.mem <| by
  unfold State.armFar
  extract_lets sh f u wait more
  split
  · exact SameMem.trans ⟨State.mem_setGroup ..⟩ ⟨State.mem_reply ..⟩
  · split
    · exact ⟨State.mem_watchFull ..⟩
    · next harm =>
      exact (SameMem.mk (State.mem_of_arm _ _ _ harm)).trans (SameMem.trans ⟨State.mem_setGroup ..⟩ ⟨State.mem_reply ..⟩)

theorem State.mem_of_undoWatch {s : State} {m : Mesh} {t : State} (h : s.undoWatch m = some t) :
    t.mem = s.mem := by
  unfold State.undoWatch at h
  dsimp only at h
  split at h
  · split at h
    · exact State.mem_of_disarm h
    · rw [State.mem_of_disarm h, State.mem_send]
  · rw [State.mem_of_disarm h]
    split <;> simp
  · exact State.mem_of_disarm h

@[simp] theorem State.mem_penFail (s : State) (m : Mesh) (code : Nat) :
    (s.penFail m code).mem = s.mem := by
  unfold State.penFail
  simp only [State.mem_giveTag, State.mem_rejectOp]
  split <;> split <;> simp

@[simp] theorem State.mem_leafOp (s : State) (m : Mesh) (a i : Nat) (r : Reply) :
    (s.leafOp m a i r).mem = s.mem := by
  unfold State.leafOp
  split <;> simp

theorem State.mem_of_forwardMember {s : State} {m : Mesh} {p depth : Nat} {r : Reply} {a : Nat} {t : State}
    (h : s.forwardMember m p depth r a = some t) :
    t.mem = s.mem := by
  unfold State.forwardMember at h
  dsimp only at h
  split at h
  · split at h <;> cases h <;> simp
  · split at h
    · cases h; simp
    · split at h
      · cases h; simp
      · exact State.mem_of_sendOp h

theorem State.mem_of_forwardAll {s : State} {m : Mesh} {p depth : Nat} {r : Reply} {ms : List Nat} {t : State}
    (h : s.forwardAll m p depth r ms = some t) :
    t.mem = s.mem := (SameMem.foldlM_option (fun _ _ _ h => ⟨State.mem_of_forwardMember h⟩) ms h).mem

theorem State.mem_of_penWatch {s : State} {m : Mesh} {p depth : Nat} {t : State} (h : s.penWatch m p depth = some t) :
    t.mem = s.mem := SameMem.mem <| by
  unfold State.penWatch at h
  extract_lets i sh id sheds far others n top wid kind at h
  have hwid : SameMem s (if top then s.giveWid wid else s) := .ite ⟨rfl⟩ (.refl s)
  clear_value wid kind
  split at h
  · obtain rfl := Option.some.inj h
    exact ⟨State.mem_watchFull ..⟩
  · next u harm =>
    have harmed := hwid.trans (SameMem.mk (State.mem_of_arm _ _ _ harm))
    obtain ⟨v, hfar, hothers⟩ := Option.bind_eq_some_iff.mp h
    refine SameMem.trans (t := v) ?_ ⟨State.mem_of_forwardAll hothers⟩
    refine SameMem.trans ?_ (SameMem.foldlM_option ?_ _ hfar)
    · exact ⟨harmed.mem⟩
    · exact fun _ _ _ hm => ⟨State.mem_of_forwardMember hm⟩

@[simp] theorem State.mem_pushRefused (s : State) (q : Push) (code kd : Nat) :
    (s.pushRefused q code kd).mem = s.mem := by simp [State.pushRefused]

theorem State.keepsMem_pushEither (s : State) (mail : Bool) (q : Push) :
    Accept.KeepsMem s (if mail then s.pushMail q.queue q.stall q.part q.ev else
      s.pushQueue q.queue q.kind.toNat q.stall q.part q.ev) := by
  split
  · exact s.keepsMem_pushMail ..
  · exact s.keepsMem_pushQueue ..

@[simp] theorem State.mem_offer (s : State) (k : Nat) (mail : Bool) :
    (s.offer k mail).mem = s.mem := SameMem.mem <| by
  unfold State.offer
  split
  · exact .refl s
  · next q _ =>
    dsimp only
    split
    · exact .refl s
    · have hfirst := State.keepsMem_pushEither { s with pushes := removeAt s.pushes k } mail q
      have hagain := s.keepsMem_pushEither mail q
      have hgone : SameMem s { s with pushes := removeAt s.pushes k } := ⟨rfl⟩
      split
      · next heq =>
        rw [heq] at hfirst
        exact hgone.trans (SameMem.trans hfirst ⟨State.mem_reply ..⟩)
      · exact hgone.trans ⟨by simp⟩
      · split
        · next heq =>
          rw [heq] at hagain
          exact hagain
        · exact .refl s

/-! ### Command units -/

@[simp] theorem State.mem_failDesc (s : State) (d : Desc) (code kind idx entry fcode : Nat) :
    (s.failDesc d code kind idx entry fcode).mem = s.mem := by simp [State.failDesc]

/-! ### Dispatch -/

@[simp] theorem State.mem_deliverTo (s : State) (k : Nat) (c : Cand) (i : Nat) :
    (s.deliverTo k c i).mem = s.mem := by
  unfold State.deliverTo
  dsimp only
  split <;> simp

@[simp] theorem State.mem_countDispatch (s : State) (k : Nat) :
    (s.countDispatch k).mem = s.mem := SameMem.mem <| by
  unfold State.countDispatch
  exact SameMem.foldl (fun _ _ => .ite ⟨by simp⟩ (.refl _)) _ _

/-! ### The matrix array -/

@[simp] theorem State.mem_mxFail (s : State) (k : Nat) (d : Desc) (code : Nat) (atStart : Bool) :
    (s.mxFail k d code atStart).mem = s.mem := by simp [State.mxFail]

/-! ### Tables -/

@[simp] theorem State.mem_dropAhead (s : State) (p : Nat) (bad : Sampler → Ahead → Bool) :
    (s.dropAhead p bad).mem = s.mem := SameMem.mem <| by
  unfold State.dropAhead
  exact SameMem.foldl (fun _ _ => .ite (.refl _) ⟨by simp⟩) _ _

@[simp] theorem State.mem_applySwitch (s : State) (p t : Nat) :
    (s.applySwitch p t).mem = s.mem := by simp [State.applySwitch]

@[simp] theorem State.mem_applySwitches (s : State) (p : Nat) :
    (s.applySwitches p).mem = s.mem := SameMem.mem <| by
  unfold State.applySwitches
  exact SameMem.foldl (fun _ _ => .ite ⟨by simp⟩ (.refl _)) _ _

@[simp] theorem State.mem_requestSwitch (s : State) (p t base v : Nat) :
    (s.requestSwitch p t base v).mem = s.mem := by
  unfold State.requestSwitch
  dsimp only
  split <;> simp

/-! ### What row descriptors do -/

@[simp] theorem State.mem_modRcur (s : State) (e p : Nat) (f : RCur → RCur) :
    (s.modRcur e p f).mem = s.mem := by
  unfold State.modRcur
  split <;> rfl

@[simp] theorem State.mem_countRow (s : State) (p t : Nat) :
    (s.countRow p t).mem = s.mem := rfl

@[simp] theorem State.mem_noteHot (s : State) (x : Rows) (p t r : Nat) :
    (s.noteHot x p t r).mem = s.mem := by
  unfold State.noteHot
  split
  · split <;> simp
  · simp

@[simp] theorem State.mem_setOrderCount (s : State) (p t n : Nat) :
    (s.setOrderCount p t n).mem = s.mem := rfl

@[simp] theorem State.mem_noteSpill (s : State) (p t a stall head : Nat) :
    (s.noteSpill p t a stall head).mem = s.mem := by
  unfold State.noteSpill
  dsimp only
  split <;> simp

@[simp] theorem State.mem_noteArrival (s : State) (p : Nat) :
    (s.noteArrival p).mem = s.mem := by
  unfold State.noteArrival
  split <;> simp

/-! ### Row engines -/

@[simp] theorem State.mem_freeDesc (s : State) (d : Desc) :
    (s.freeDesc d).mem = s.mem := by simp [State.freeDesc]

@[simp] theorem State.mem_reStatus (s : State) (p code stall : Nat) :
    (s.reStatus p code stall).mem = s.mem := by simp [State.reStatus]

@[simp] theorem State.mem_reFail (s : State) (e : Nat) (d : Desc) (code entry fcode : Nat) :
    (s.reFail e d code entry fcode).mem = s.mem := by simp [State.reFail]

@[simp] theorem State.mem_setRowQueue (s : State) (e p : Nat) (q : List Desc) :
    (s.setRowQueue e p q).mem = s.mem := rfl

@[simp] theorem State.mem_pump (len n : Nat) (s : State) (e p : Nat) : (State.pump len n s e p).mem = s.mem := SameMem.mem <| by
  induction n generalizing s with
  | zero => exact .refl s
  | succ n ih =>
    unfold State.pump
    split
    · exact .refl s
    · split
      · exact .refl s
      · split
        · exact SameMem.trans ⟨State.mem_setRcur ..⟩ (ih _)
        · split
          · exact ⟨State.mem_setRcur ..⟩
          · split
            · exact .refl s
            · refine SameMem.trans ?_ (ih _)
              refine SameMem.trans (t := State.holdTag _ _ _ _) ?_ (SameMem.foldl ?_ _ _)
              · exact ⟨rfl⟩
              · exact fun u k => ⟨u.mem_emit _⟩

@[simp] theorem State.mem_rowSend (s : State) (e p : Nat) :
    (s.rowSend e p).mem = s.mem := by
  unfold State.rowSend
  split <;> simp

@[simp] theorem State.mem_rowEnd (s : State) (e p : Nat) :
    (s.rowEnd e p).mem = s.mem := by
  unfold State.rowEnd
  split
  · split
    · simp [State.mem_setRcur]
    · rfl
  · rfl

@[simp] theorem State.mem_startSwitch (s : State) (e p : Nat) (d : Desc) (c : RCur) :
    (s.startSwitch e p d c).mem = s.mem := by
  unfold State.startSwitch
  dsimp only
  split
  · simp
  · split <;> simp [State.mem_setRcur]

/-! ### DMA engines -/

@[simp] theorem State.mem_dmFail (s : State) (k : Nat) (d : Desc) (code entry fcode : Nat) :
    (s.dmFail k d code entry fcode).mem = s.mem := by simp [State.dmFail]

@[simp] theorem State.mem_modDma (s : State) (k : Nat) (f : Dma → Dma) :
    (s.modDma k f).mem = s.mem := rfl

end Sys2Proof.Machine
end
section
/-!
SUPPORT, for MemoryStaysCanonical: Llyn ports, packets received, collectives and training leave memory as it is.
-/

namespace Sys2Proof.Machine

/-! ### Llyn ports -/

@[simp] theorem State.mem_freeCame (s : State) (l : List Queued) :
    (s.freeCame l).mem = s.mem := SameMem.mem <| by
  unfold State.freeCame
  exact SameMem.foldl (fun _ _ => by
    split
    · exact ⟨State.mem_modPort ..⟩
    · exact .refl _) _ _

@[simp] theorem State.mem_resync (s : State) :
    s.resync.mem = s.mem := rfl

@[simp] theorem State.mem_linkFails (s : State) (k : Nat) :
    (s.linkFails k).mem = s.mem := by simp [State.linkFails]

@[simp] theorem State.mem_startReplay (s : State) (k : Nat) :
    (s.startReplay k).mem = s.mem := by
  unfold State.startReplay
  dsimp only
  repeat' split
  all_goals simp

@[simp] theorem State.mem_countCrc (s : State) (k : Nat) :
    (s.countCrc k).mem = s.mem := by
  unfold State.countCrc
  dsimp only
  split <;> simp

@[simp] theorem State.mem_landPacket (s : State) (k : Nat) (p : Packet) :
    (s.landPacket k p).mem = s.mem := by
  unfold State.landPacket
  dsimp only
  split <;> simp

@[simp] theorem State.mem_acceptData (s : State) (k : Nat) (area : List Byte) :
    (s.acceptData k area).mem = s.mem := SameMem.mem <| by
  unfold State.acceptData
  refine SameMem.trans (t := State.setPort _ _ _) ⟨rfl⟩ (SameMem.foldl ?_ _ _)
  exact fun u q => ⟨u.mem_landPacket ..⟩

@[simp] theorem State.mem_dataFlit (s : State) (k : Nat) (l : LinkField) (area : List Byte) :
    (s.dataFlit k l area).mem = s.mem := by
  unfold State.dataFlit
  dsimp only
  repeat' split
  all_goals simp

@[simp] theorem State.mem_reroute (s : State) (k : Nat) :
    (s.reroute k).mem = s.mem := SameMem.mem <| by
  unfold State.reroute
  refine SameMem.trans (t := State.setPort _ _ _) ⟨rfl⟩ (SameMem.foldl ?_ _ _)
  exact fun u q => ⟨u.mem_emitFrom ..⟩

@[simp] theorem State.mem_correctTime (s : State) (t : Nat) :
    (s.correctTime t).mem = s.mem := by
  unfold State.correctTime
  dsimp only
  split <;> simp

/-! ### Packets received -/

@[simp] theorem State.mem_readErr (s : State) (h code : Nat) :
    (s.readErr h code).mem = s.mem := by simp [State.readErr]

@[simp] theorem State.mem_strayColl (s : State) (k h code : Nat) :
    (s.strayColl k h code).mem = s.mem := by simp [State.strayColl]

@[simp] theorem State.mem_stray (s : State) :
    s.stray.mem = s.mem := rfl

@[simp] theorem State.mem_keepPlace (s : State) (k st : Nat) :
    (s.keepPlace k st).mem = s.mem := rfl

@[simp] theorem State.mem_ackWrite (s : State) (t : Trailer) (deferred : Bool) :
    (s.ackWrite t deferred).mem = s.mem := by simp [State.ackWrite]

@[simp] theorem State.mem_noteTransfer (s : State) (p : Packet) (bad : Bool) :
    (s.noteTransfer p bad).mem = s.mem := by
  unfold State.noteTransfer
  dsimp only
  repeat' split
  all_goals simp

@[simp] theorem State.mem_passOn (s : State) (p : Packet) (f : Fwd) (addr : Nat) :
    (s.passOn p f addr).mem = s.mem := by simp [State.passOn]

@[simp] theorem State.mem_respond (s : State) (h : Nat) (bs : List Byte) :
    (s.respond h bs).mem = s.mem := SameMem.mem <| by
  unfold State.respond
  exact SameMem.foldl (fun u i => ⟨u.mem_send ..⟩) _ _

@[simp] theorem State.mem_installCopy (s : State) (e p idx : Nat) :
    (s.installCopy e p idx).mem = s.mem := by
  unfold State.installCopy
  dsimp only
  repeat' split
  all_goals simp

@[simp] theorem State.mem_endDma (s : State) (sh tag fcode : Nat) :
    (s.endDma sh tag fcode).mem = s.mem := rfl

@[simp] theorem State.mem_endMirror (s : State) (p tag fcode : Nat) :
    (s.endMirror p tag fcode).mem = s.mem := rfl

@[simp] theorem State.mem_endFired (s : State) (h : Nat) (r : Reply) :
    (s.endFired h r).mem = s.mem := by simp [State.endFired]

@[simp] theorem State.mem_remoteFull (s : State) (part : Nat) (r : Reply) (a : Nat) :
    (s.remoteFull part r a).mem = s.mem := by
  unfold State.remoteFull
  split <;> simp

@[simp] theorem State.mem_takeOut (s : State) (k st : Nat) :
    (s.takeOut k st).mem = s.mem := rfl

/-! ### Collectives -/

@[simp] theorem State.mem_setPlan (s : State) (p n : Nat) (x : PlanSt) :
    (s.setPlan p n x).mem = s.mem := rfl

@[simp] theorem State.mem_modPlan (s : State) (p n : Nat) (f : PlanSt → PlanSt) :
    (s.modPlan p n f).mem = s.mem := rfl

@[simp] theorem State.mem_sendColl (s : State) (p n d sub r first inst : Nat) (run nf : Bool) (pay : List Byte) :
    (s.sendColl p n d sub r first inst run nf pay).mem = s.mem := by simp [State.sendColl]

@[simp] theorem State.mem_sendChunk (s : State) (p n d r inst : Nat) (src : List Byte) (c : Nat × Nat) :
    (s.sendChunk p n d r inst src c).mem = s.mem := by
  unfold State.sendChunk
  dsimp only
  split <;> simp

@[simp] theorem State.mem_sendOut (s : State) (p n d sub r inst lo hi : Nat) (bs : List Byte) :
    (s.sendOut p n d sub r inst lo hi bs).mem = s.mem := SameMem.mem <| by
  unfold State.sendOut
  exact SameMem.foldl (fun u c => ⟨u.mem_sendColl ..⟩) _ _

@[simp] theorem State.mem_sendSidecars (s : State) (p n d inst : Nat) (t : PlanTot) :
    (s.sendSidecars p n d inst t).mem = s.mem := SameMem.mem <| by
  unfold State.sendSidecars
  exact SameMem.foldl (fun u r => ⟨u.mem_sendColl ..⟩) _ _

@[simp] theorem State.mem_contributeAll (s : State) (p n d inst : Nat) :
    (s.contributeAll p n d inst).mem = s.mem := SameMem.mem <| by
  unfold State.contributeAll
  extract_lets x u
  have hu : SameMem s u := by
    refine SameMem.foldl ?_ _ _
    intro u r
    refine SameMem.foldl ?_ _ _
    exact fun v c => ⟨v.mem_sendChunk ..⟩
  exact .ite (hu.trans ⟨by simp⟩) hu

@[simp] theorem State.mem_chainSideBack (s : State) (p n d inst : Nat) (t : PlanTot) :
    (s.chainSideBack p n d inst t).mem = s.mem := by
  unfold State.chainSideBack
  dsimp only
  split <;> simp

/-! ### Training steps and mirrors -/

@[simp] theorem State.mem_modTrain (s : State) (p : Nat) (f : Train → Train) :
    (s.modTrain p f).mem = s.mem := rfl

@[simp] theorem State.mem_modMirror (s : State) (p : Nat) (f : Mirror → Mirror) :
    (s.modMirror p f).mem = s.mem := rfl

@[simp] theorem State.mem_pushTrain (s : State) (p tev norm step : Nat) :
    (s.pushTrain p tev norm step).mem = s.mem := by
  unfold State.pushTrain
  dsimp only
  split
  · rfl
  · split <;> simp

@[simp] theorem State.mem_noise (s : State) (p : Nat) (t : PlanTot) (first : Bool) :
    (s.noise p t first).mem = s.mem := by
  unfold State.noise
  dsimp only
  split <;> simp

@[simp] theorem State.mem_rollBack (s : State) (p n : Nat) :
    (s.rollBack p n).mem = s.mem := by simp [State.rollBack]

@[simp] theorem State.mem_writeCfgFlag (s : State) (p i : Nat) (v : Bool) :
    (s.writeCfgFlag p i v).mem = s.mem := by
  unfold State.writeCfgFlag
  split <;> simp

@[simp] theorem State.mem_flipGroups (s : State) (p : Nat) :
    (s.flipGroups p).mem = s.mem := SameMem.mem <| by
  unfold State.flipGroups
  refine SameMem.foldl ?_ _ _
  exact fun u g => ⟨u.setObj_mem _ _⟩

@[simp] theorem State.mem_dueNow (s : State) (p : Nat) :
    (s.dueNow p).mem = s.mem := rfl

@[simp] theorem State.mem_boundary (s : State) (p : Nat) :
    (s.boundary p).mem = s.mem := SameMem.mem <| by
  unfold State.boundary
  extract_lets u1 u2 u3 step d u4
  have h3 : SameMem s u3 := by
    have h2 : SameMem s u2 := ⟨s.mem_applySwitches p⟩
    refine h2.trans (SameMem.foldl ?_ _ _)
    intro u e
    split
    · exact .ite ⟨rfl⟩ (.refl u)
    · exact .refl u
  clear_value u3
  have h4 : SameMem s u4 := .ite ⟨h3.mem⟩ h3
  clear_value u4
  exact .ite ⟨(State.mem_dueNow ..).trans h4.mem⟩ h4

theorem State.mem_of_mirrorSend {s : State} {p slot off : Nat} {bs : List Byte} {t : State}
    (h : s.mirrorSend p slot off bs = some t) :
    t.mem = s.mem := SameMem.mem <| by
  unfold State.mirrorSend at h
  extract_lets m n at h
  split at h
  · obtain rfl := Option.some.inj h
    exact ⟨rfl⟩
  · refine SameMem.foldlM_option ?_ _ h
    intro u i v hv
    split at hv
    · cases hv
    · obtain rfl := Option.some.inj hv
      refine SameMem.trans ?_ (SameMem.foldl ?_ _ _)
      · exact ⟨rfl⟩
      · exact fun w k => ⟨w.mem_emit _⟩

theorem State.mem_of_mirrorZero {s : State} {p : Nat} {t : State} (h : s.mirrorZero p = some t) :
    t.mem = s.mem := by
  unfold State.mirrorZero at h
  rw [State.mem_of_mirrorSend h]
  rfl

end Sys2Proof.Machine
end
section
/-!
SUPPORT, for MemoryStaysCanonical: partitions, flash, seasons and power leave memory as it is.
-/

namespace Sys2Proof.Machine

/-! ### Partitions -/

/-- Frames are taken one after the other.  Which frame is picked plays no part: evaluating that is what makes the definition's own
equations fail. -/
theorem takeFrames_cons (p y : Nat) (ys : List Nat) (s : State) : takeFrames p (y :: ys) s =
    Option.bind (s.pickFrame y) (fun f => (takeFrames p ys (s.setFrame y f { s.frame y f with taken := some p })).map
      (fun r => ((y, f) :: r.1, r.2))) := by
  delta takeFrames takeFrames._f
  generalize State.pickFrame = pick
  cases h : pick s y with
  | none =>
    show (match pick s y with | none => none | some f => _ : Option (List (Nat × Nat) × State)) = _
    rw [h]
    rfl
  | some f =>
    show (match pick s y with | none => none | some f => _ : Option (List (Nat × Nat) × State)) = _
    rw [h]
    rfl

theorem mem_of_takeFrames {p : Nat} {ys : List Nat} {s : State} {r : List (Nat × Nat) × State}
    (h : takeFrames p ys s = some r) : r.2.mem = s.mem := SameMem.mem <| by
  induction ys generalizing s r with
  | nil =>
    have hr : some ([], s) = some r := h
    rw [← Option.some.inj hr]
    exact .refl s
  | cons y ys ih =>
    rw [takeFrames_cons] at h
    obtain ⟨f, -, hf⟩ := Option.bind_eq_some_iff.mp h
    obtain ⟨q, hq, rfl⟩ := Option.map_eq_some_iff.mp hf
    have htaken : SameMem s (s.setFrame y f { s.frame y f with taken := some p }) := ⟨rfl⟩
    have hrest := ih hq
    exact htaken.trans hrest

theorem mem_of_takeGranules {p : Nat} {near : Option Nat} {n : Nat} {s : State} {r : List Granule × State}
    (h : takeGranules p near n s = some r) : r.2.mem = s.mem := by
  induction n generalizing s r with
  | zero => cases h; rfl
  | succ n ih =>
    unfold takeGranules at h
    split at h
    · cases h
    · next hframes =>
      obtain ⟨q, hq, rfl⟩ := Option.map_eq_some_iff.mp h
      exact (ih hq).trans (mem_of_takeFrames hframes)

@[simp] theorem State.mem_releaseGranules (s : State) (gs : List Granule) :
    (s.releaseGranules gs).mem = s.mem := SameMem.mem <| by
  unfold State.releaseGranules
  refine SameMem.foldl ?_ _ _
  intro u g
  refine SameMem.foldl ?_ _ _
  exact fun v f => ⟨rfl⟩

theorem State.mem_of_regroup {s : State} {p v : Nat} {t : State} (h : s.regroup p v = some t) :
    t.mem = s.mem := SameMem.mem <| by
  have hfold : ∀ (l : List (Option Nat × List Granule)) (a : List Granule × State) (r : List Granule × State),
      l.foldlM (fun (acc : List Granule × State) e =>
        (takeGranules p e.1 (layCount v e.1 - e.2.length) acc.2).map
          (fun r => (acc.1 ++ e.2.take (layCount v e.1) ++ r.1, r.2))) a = some r → SameMem a.2 r.2 := by
    intro l
    induction l with
    | nil =>
      intro a r hr
      rw [← Option.some.inj hr]
      exact .refl a.2
    | cons e l ih =>
      intro a r hr
      obtain ⟨b, hb, hrest⟩ := Option.bind_eq_some_iff.mp hr
      obtain ⟨q, hq, rfl⟩ := Option.map_eq_some_iff.mp hb
      have hlast := ih _ _ hrest
      exact SameMem.trans (t := q.2) ⟨mem_of_takeGranules hq⟩ hlast
  unfold State.regroup at h
  obtain ⟨r, hr, rfl⟩ := Option.map_eq_some_iff.mp h
  refine SameMem.trans ?_ (SameMem.trans (hfold _ _ _ hr) ⟨rfl⟩)
  refine SameMem.foldl ?_ _ _
  exact fun u e => ⟨u.mem_releaseGranules _⟩

@[simp] theorem State.mem_trimStage (s : State) (p n : Nat) (home : Option Nat) :
    (s.trimStage p n home).mem = s.mem := by simp [State.trimStage]

theorem State.mem_of_restage {s : State} {p n : Nat} {wide : Bool} {t : State} (h : s.restage p n wide = some t) :
    t.mem = s.mem := by
  unfold State.restage at h
  obtain ⟨r, hr, rfl⟩ := Option.map_eq_some_iff.mp h
  exact (mem_of_takeGranules hr).trans (s.mem_trimStage ..)

theorem State.mem_of_setLayout {s : State} {p v : Nat} {t : State} (h : s.setLayout p v = some t) :
    t.mem = s.mem := by
  unfold State.setLayout at h
  split at h
  · cases h
  · next u hu =>
    obtain ⟨v, hv, rfl⟩ := Option.map_eq_some_iff.mp h
    rw [State.setObj_mem, State.mem_of_restage hv, State.mem_of_regroup hu, State.mem_trimStage]

theorem State.mem_of_setStaging {s : State} {p n : Nat} {t : State} (h : s.setStaging p n = some t) :
    t.mem = s.mem := by
  unfold State.setStaging at h
  obtain ⟨u, hu, rfl⟩ := Option.map_eq_some_iff.mp h
  exact (State.setObj_mem ..).trans (State.mem_of_restage hu)

theorem State.mem_of_setSheds {s : State} {p v : Nat} {t : State} (h : s.setSheds p v = some t) :
    t.mem = s.mem := by
  unfold State.setSheds at h
  rw [State.mem_of_restage h, State.mem_modPart]

@[simp] theorem State.mem_resetSq (s : State) (p : Nat) :
    (s.resetSq p).mem = s.mem := rfl

@[simp] theorem State.mem_resetCq (s : State) (p : Nat) :
    (s.resetCq p).mem = s.mem := rfl

@[simp] theorem State.mem_modRings (s : State) (p : Nat) (f : Rings → Rings) :
    (s.modRings p f).mem = s.mem := rfl

@[simp] theorem State.mem_requestStop (s : State) (p : Nat) :
    (s.requestStop p).mem = s.mem := by
  unfold State.requestStop
  split <;> simp

@[simp] theorem State.mem_onStopped (s : State) (p : Nat) :
    (s.onStopped p).mem = s.mem := by
  unfold State.onStopped
  dsimp only
  split <;> simp

/-! ### The sampler -/

@[simp] theorem State.mem_modSampler (s : State) (k : Nat) (f : Sampler → Sampler) :
    (s.modSampler k f).mem = s.mem := rfl

@[simp] theorem State.mem_saFail (s : State) (k : Nat) (d : Desc) (code : Nat) :
    (s.saFail k d code).mem = s.mem := by simp [State.saFail]

@[simp] theorem State.mem_raiseRes (s : State) (k : Nat) (d : Desc) (r : SRes) :
    (s.raiseRes k d r).mem = s.mem := SameMem.mem <| by
  unfold State.raiseRes
  exact SameMem.trans ⟨State.mem_modSampler ..⟩ (SameMem.foldl (fun t e => ⟨t.mem_nanEvent ..⟩) _ _)

@[simp] theorem State.mem_discardFor (s : State) (k : Nat) (d : Desc) :
    (s.discardFor k d).mem = s.mem := rfl

@[simp] theorem State.mem_saRunning (s : State) (k : Nat) (d : Desc) (caps : List (Nat × Nat)) (r : SRes) :
    (s.saRunning k d caps r).mem = s.mem := by simp [State.saRunning]

/-! ### Status objects -/

@[simp] theorem State.mem_wrapPerf (s : State) (n : Nat) :
    (s.wrapPerf n).mem = s.mem := by
  unfold State.wrapPerf
  dsimp only
  split
  · simp
  · split <;> simp

/-! ### Flash -/

@[simp] theorem State.mem_finishFlash (s : State) :
    s.finishFlash.mem = s.mem := rfl

@[simp] theorem State.mem_beginCommit (s : State) :
    s.beginCommit.mem = s.mem := by
  unfold State.beginCommit
  dsimp only
  simp

@[simp] theorem State.mem_commitBank (s : State) :
    s.commitBank.mem = s.mem := by simp [State.commitBank]

@[simp] theorem State.mem_loadBank (s : State) :
    s.loadBank.mem = s.mem := rfl

@[simp] theorem State.mem_markDirty (s : State) (k : Nat) :
    (s.markDirty k).mem = s.mem := by
  unfold State.markDirty
  split <;> simp

@[simp] theorem State.mem_recordFault (s : State) (seq : Nat) (body : List Byte) :
    (s.recordFault seq body).mem = s.mem := rfl

@[simp] theorem State.mem_backOff (s : State) :
    s.backOff.mem = s.mem := rfl

@[simp] theorem State.mem_loadFirmware (s : State) :
    s.loadFirmware.mem = s.mem := by
  unfold State.loadFirmware
  dsimp only
  repeat' split
  all_goals simp

/-! ### Seasons -/

@[simp] theorem State.mem_hostReset (s : State) :
    s.hostReset.mem = s.mem := rfl

@[simp] theorem State.mem_portsDown (s : State) :
    s.portsDown.mem = s.mem := rfl

@[simp] theorem State.mem_ioDark (s : State) :
    s.ioDark.mem = s.mem := rfl

@[simp] theorem State.mem_restartOstler (s : State) :
    s.restartOstler.mem = s.mem := by simp [State.restartOstler]

@[simp] theorem State.mem_toSeason (s : State) (ph : SeasonPhase) (sub : Nat) :
    (s.toSeason ph sub).mem = s.mem := by
  unfold State.toSeason
  dsimp only
  repeat' split
  all_goals simp

@[simp] theorem State.mem_clearPend (s : State) :
    s.clearPend.mem = s.mem := rfl

@[simp] theorem State.mem_slowYards (s : State) :
    s.slowYards.mem = s.mem := SameMem.mem <| by
  unfold State.slowYards
  refine SameMem.foldl ?_ _ _
  exact fun u y => ⟨rfl⟩

@[simp] theorem State.mem_applyBrake (s : State) :
    s.applyBrake.mem = s.mem := by
  unfold State.applyBrake
  split <;> simp

@[simp] theorem State.mem_trainPort (s : State) (k : Nat) :
    (s.trainPort k).mem = s.mem := by
  unfold State.trainPort
  dsimp only
  split <;> simp

@[simp] theorem State.mem_springStart (s : State) (k : Nat) :
    (s.springStart k).mem = s.mem := SameMem.mem <| by
  unfold State.springStart
  split
  · exact ⟨rfl⟩
  · exact ⟨rfl⟩
  · exact SameMem.trans (t := s.bumpObj (kAttempts 4) 1) ⟨rfl⟩ ⟨State.mem_slowYards _⟩
  · refine SameMem.foldl ?_ _ _
    exact fun u k => ⟨u.mem_trainPort k⟩
  · refine SameMem.trans (t := s.bumpObj (kAttempts 5) 1) ⟨rfl⟩ (SameMem.foldl ?_ _ _)
    exact fun u k => ⟨rfl⟩
  · exact ⟨rfl⟩
  · exact .refl s

@[simp] theorem State.mem_enterSpring (s : State) (k : Nat) :
    (s.enterSpring k).mem = s.mem := by simp [State.enterSpring]

@[simp] theorem State.mem_springFails (s : State) (k : Nat) :
    (s.springFails k).mem = s.mem := by
  unfold State.springFails
  split <;> simp

@[simp] theorem State.mem_enterSummer (s : State) :
    s.enterSummer.mem = s.mem := by simp [State.enterSummer]

@[simp] theorem State.mem_applyStore (s : State) (p : Nat) :
    (s.applyStore p).2.mem = s.mem := SameMem.mem <| by
  unfold State.applyStore
  dsimp only
  split
  · exact .refl s
  · split
    · exact .refl s
    · split
      · exact .refl s
      · next t hsheds =>
        split
        · exact .refl s
        · next v hlay =>
          refine ⟨(State.mem_of_setLayout hlay).trans (Eq.trans ?_ (State.mem_of_setSheds hsheds))⟩
          split <;> split <;> simp

@[simp] theorem State.mem_applyStores (s : State) :
    s.applyStores.mem = s.mem := SameMem.mem <| by
  unfold State.applyStores
  exact SameMem.foldl (fun t p => .ite (.refl t) (.ite ⟨by simp⟩ ⟨by simp⟩)) _ _

@[simp] theorem State.mem_springEnd (s : State) (k mask : Nat) :
    (s.springEnd k mask).mem = s.mem := SameMem.mem <| by
  unfold State.springEnd
  refine .ite (SameMem.foldl ?_ _ _) (.ite ⟨rfl⟩ (.refl s))
  exact fun u i => ⟨rfl⟩

@[simp] theorem State.mem_startUp (s : State) :
    s.startUp.mem = s.mem := by
  unfold State.startUp
  dsimp only
  split
  · rfl
  · split <;> simp

/-! ### Power -/

@[simp] theorem State.mem_movePoints (s : State) (who : Nat → Bool) (f : Nat → Nat) :
    (s.movePoints who f).mem = s.mem := SameMem.mem <| by
  unfold State.movePoints
  exact SameMem.foldl (fun _ _ => .ite ⟨by simp⟩ (.refl _)) _ _

@[simp] theorem State.mem_clampPoints (s : State) :
    s.clampPoints.mem = s.mem := SameMem.mem <| by
  unfold State.clampPoints
  refine SameMem.foldl ?_ _ _
  exact fun u y => ⟨rfl⟩

@[simp] theorem State.mem_capLoop (s : State) :
    s.capLoop.mem = s.mem := SameMem.mem <| by
  unfold State.capLoop
  extract_lets cap target w n sum above low below u1 p1 v1 p2 u2
  have h2 : SameMem s u2 := by
    refine .ite (.ite ?_ (.ite ?_ ?_)) (.ite (.ite ?_ ?_) ?_)
    · exact ⟨State.mem_movePoints ..⟩
    · exact ⟨rfl⟩
    · exact ⟨rfl⟩
    · exact ⟨rfl⟩
    · exact ⟨State.mem_movePoints ..⟩
    · exact ⟨rfl⟩
  clear_value u2
  exact ⟨(State.mem_clampPoints u2).trans h2.mem⟩

end Sys2Proof.Machine
end
section
/-!
SUPPORT, for MemoryStaysCanonical: the dictionary, the host port, the loader and clocks leave memory as it is.
-/

namespace Sys2Proof.Machine

/-! ### The dictionary -/

@[simp] theorem State.mem_afterRead (s : State) (idx sub : Nat) :
    (s.afterRead idx sub).mem = s.mem := by
  unfold State.afterRead
  split <;> simp

/-! ### Writes of objects -/

@[simp] theorem State.mem_storeObj (s : State) (k v : Nat) :
    (s.storeObj k v).mem = s.mem := by simp [State.storeObj]

@[simp] theorem State.mem_setDepth (s : State) (p v : Nat) :
    (s.setDepth p v).mem = s.mem := by simp [State.setDepth]

@[simp] theorem State.mem_setPortCtrl (s : State) (k v : Nat) :
    (s.setPortCtrl k v).mem = s.mem := by
  unfold State.setPortCtrl
  dsimp only
  split
  · simp
  · split <;> simp

@[simp] theorem State.mem_retrainPort (s : State) (k : Nat) :
    (s.retrainPort k).mem = s.mem := by
  unfold State.retrainPort
  split
  · rfl
  · split <;> simp

@[simp] theorem State.mem_retrainAll (s : State) :
    s.retrainAll.mem = s.mem := SameMem.mem <| by
  unfold State.retrainAll
  exact SameMem.foldl (fun t k => ⟨t.mem_retrainPort k⟩) _ _

@[simp] theorem State.mem_clearWrap (s : State) (k v : Nat) :
    (s.clearWrap k v).mem = s.mem := by
  unfold State.clearWrap
  split <;> simp

@[simp] theorem State.mem_clearShed (s : State) (p sub v : Nat) :
    (s.clearShed p sub v).mem = s.mem := by
  unfold State.clearShed
  repeat' split
  all_goals simp

@[simp] theorem State.mem_writeTrap (s : State) (p v : Nat) :
    (s.writeTrap p v).mem = s.mem := by
  unfold State.writeTrap
  split <;> simp

@[simp] theorem State.mem_mirrorNow (s : State) (p : Nat) :
    (s.mirrorNow p).mem = s.mem := by
  unfold State.mirrorNow
  split <;> simp

@[simp] theorem State.mem_clearCap (s : State) (v : Nat) :
    (s.clearCap v).mem = s.mem := rfl

@[simp] theorem State.mem_setPerfSel (s : State) (n v : Nat) :
    (s.setPerfSel n v).mem = s.mem := by simp [State.setPerfSel]

@[simp] theorem State.mem_commitSlot (s : State) :
    s.commitSlot.mem = s.mem := by
  unfold State.commitSlot
  dsimp only
  split <;> simp

@[simp] theorem State.mem_askRestart (s : State) :
    s.askRestart.mem = s.mem := by
  unfold State.askRestart
  split <;> simp

/-! ### Requests -/

@[simp] theorem State.mem_acquire (s : State) (who : Requester) (sm : Nat) :
    (s.acquire who sm).2.2.mem = s.mem := by
  unfold State.acquire
  dsimp only
  split
  · simp
  · split <;> simp

@[simp] theorem State.mem_renew (s : State) (who : Requester) (lease sm : Nat) :
    (s.renew who lease sm).2.2.mem = s.mem := by
  unfold State.renew
  split <;> simp

@[simp] theorem State.mem_release (s : State) (who : Requester) (lease sm : Nat) :
    (s.release who lease sm).2.2.mem = s.mem := by
  unfold State.release
  split <;> simp

@[simp] theorem State.mem_readObj (s : State) (who : Requester) (m : List Byte) :
    (s.readObj who m).2.2.mem = s.mem := by
  unfold State.readObj
  split <;> simp

@[simp] theorem State.mem_leaseReq (s : State) (who : Requester) (m : List Byte) :
    (s.leaseReq who m).2.2.mem = s.mem := by
  unfold State.leaseReq
  repeat' split
  all_goals simp

@[simp] theorem State.mem_answerMgmt (s : State) (ip port seq : Nat) (resp : List Byte) :
    (s.answerMgmt ip port seq resp).mem = s.mem := by simp [State.answerMgmt]

@[simp] theorem State.mem_answerFn (s : State) (f : Nat) (resp : List Byte) :
    (s.answerFn f resp).mem = s.mem := by
  unfold State.answerFn
  dsimp only
  split <;> simp

@[simp] theorem State.mem_answer (s : State) (who : Requester) (m resp : List Byte) :
    (s.answer who m resp).mem = s.mem := by
  unfold State.answer
  split <;> simp

/-! ### The host port -/

@[simp] theorem State.mem_sizeBar (s : State) (f e : Nat) :
    (s.sizeBar f e).mem = s.mem := by
  unfold State.sizeBar
  split <;> simp

@[simp] theorem State.mem_dropBell (s : State) (p : Nat) :
    (s.dropBell p).mem = s.mem := rfl

@[simp] theorem State.mem_writeSqTail (s : State) (p : Nat) (t : BitVec 32) :
    (s.writeSqTail p t).mem = s.mem := by
  unfold State.writeSqTail
  dsimp only
  split <;> simp

@[simp] theorem State.mem_writeCqHead (s : State) (p : Nat) (h : BitVec 32) :
    (s.writeCqHead p h).mem = s.mem := by
  unfold State.writeCqHead
  dsimp only
  split <;> simp

@[simp] theorem State.mem_setGo (s : State) (f : Nat) :
    (s.setGo f).mem = s.mem := rfl

@[simp] theorem State.mem_writeMbox (s : State) (f : Nat) (b : Byte) :
    (s.writeMbox f b).mem = s.mem := rfl

@[simp] theorem State.mem_writeMsix (s : State) (f i : Nat) (b : Byte) :
    (s.writeMsix f i b).mem = s.mem := by
  unfold State.writeMsix
  dsimp only
  repeat' split
  all_goals simp

@[simp] theorem State.mem_writeBar0Byte (s : State) (f off : Nat) (b : Byte) :
    (s.writeBar0Byte f off b).mem = s.mem := by
  unfold State.writeBar0Byte
  repeat' split
  all_goals simp

@[simp] theorem State.mem_writeBell (s : State) (f off i : Nat) (val : List Byte) :
    (s.writeBell f off i val).mem = s.mem := by
  unfold State.writeBell
  repeat' split
  all_goals simp

@[simp] theorem State.mem_countHost (s : State) (fn : Nat) (ks : List Nat) :
    (s.countHost fn ks).mem = s.mem := by
  unfold State.countHost
  split <;> simp

@[simp] theorem State.mem_acceptEntry (s : State) (p : Nat) (comp : Option (BitVec 128)) :
    (s.acceptEntry p comp).mem = s.mem := rfl

@[simp] theorem State.mem_offerEntry (s : State) (p : Nat) (e : BitVec 512) (qi : Nat) :
    (s.offerEntry p e qi).mem = s.mem := SameMem.mem <| by
  unfold State.offerEntry
  have hpush := s.keepsMem_pushQueue qi kindHost noStall p (entryEvent e.toNat)
  dsimp only
  split
  · exact ⟨by simp⟩
  · split
    · exact ⟨by simp⟩
    · split
      · next heq => rw [heq] at hpush; exact hpush.trans ⟨by simp⟩
      · next heq => rw [heq] at hpush; exact hpush.trans ⟨by simp⟩
      · exact ⟨by simp⟩

@[simp] theorem State.mem_takeCompletion (s : State) (p : Nat) (c : Cand) :
    (s.takeCompletion p c).mem = s.mem := rfl

@[simp] theorem State.mem_putCompletion (s : State) (p : Nat) (c : BitVec 128) :
    (s.putCompletion p c).mem = s.mem := rfl

/-! ### The loader -/

@[simp] theorem State.mem_startShed (s : State) (img : List Byte) (xs : List Sect) (ps : List PenRec) (k : Nat) :
    (s.startShed img xs ps k).mem = s.mem := SameMem.mem <| by
  unfold State.startShed
  refine SameMem.trans (t := State.setShed _ _ _) ⟨rfl⟩ (SameMem.foldl ?_ _ _)
  exact fun u i => ⟨rfl⟩

@[simp] theorem State.mem_startTables (s : State) (p : Nat) (img : List Byte) (xs : List Sect) :
    (s.startTables p img xs).mem = s.mem := SameMem.mem <| by
  unfold State.startTables
  refine SameMem.trans ?_ (SameMem.foldl ?_ _ _)
  · exact ⟨rfl⟩
  · exact fun u b => ⟨u.setObj_mem _ _⟩

theorem State.mem_of_loadPlans {s : State} {p : Nat} {img : List Byte} {xs : List Sect} {t : State}
    (h : s.loadPlans p img xs = .ok t) :
    t.mem = s.mem := SameMem.mem <| by
  unfold State.loadPlans at h
  refine SameMem.trans ?_ (SameMem.foldlM ?_ _ h)
  · exact ⟨rfl⟩
  · intro u x w hw
    refine SameMem.foldlM ?_ _ hw
    intro u i w hw
    dsimp only at hw
    split at hw
    · cases hw
    · split at hw
      · cases hw
      · obtain rfl := Except.ok.inj hw
        exact ⟨State.setObj_mem ..⟩

theorem State.mem_of_loadPipes {s : State} {p : Nat} {img : List Byte} {xs : List Sect} {t : State}
    (h : s.loadPipes p img xs = .ok t) :
    t.mem = s.mem := SameMem.mem <| by
  unfold State.loadPipes at h
  refine SameMem.foldlM (fun u x w hw => ?_) _ h
  dsimp only at hw
  split at hw
  · cases hw
  · cases hw; exact ⟨by simp⟩

@[simp] theorem State.mem_startTrain (s : State) (p : Nat) :
    (s.startTrain p).mem = s.mem := rfl

@[simp] theorem State.mem_startObjects (s : State) (p : Nat) (img : List Byte) :
    (s.startObjects p img).mem = s.mem := by simp [State.startObjects]

@[simp] theorem State.mem_offerHeld (s : State) (p qi : Nat) :
    (s.offerHeld p qi).mem = s.mem := by
  unfold State.offerHeld
  split <;> simp

@[simp] theorem State.mem_startRunning (s : State) (p : Nat) :
    (s.startRunning p).mem = s.mem := by
  unfold State.startRunning
  dsimp only
  split <;> simp

@[simp] theorem State.mem_loadFailed (s : State) (p : Nat) (e : LErr) :
    (s.loadFailed p e).mem = s.mem := by simp [State.loadFailed]

/-! ### Clocks and counts -/

@[simp] theorem State.mem_tick (s : State) :
    s.tick.mem = s.mem := by
  by_cases h : s.season.phase = .noPower
  · rw [State.tick, if_pos h]
  · obtain ⟨_, _, _, _, htick⟩ := s.tick_passes h
    rw [htick]

@[simp] theorem State.mem_wrapCycle (s : State) (t : Nat) :
    (s.wrapCycle t).mem = s.mem := by
  unfold State.wrapCycle
  dsimp only
  split
  · simp
  · split <;> simp

end Sys2Proof.Machine
end
section
/-!
SUPPORT, for MemoryStaysCanonical: work of a unit that keeps memory in its canonical form, and the forms in which work is put
together.
-/

namespace Sys2Proof.Machine

/-- Work that leaves memory in its canonical form, whether it ends or stops with a code. -/
structure UM.Safe {α : Type} (m : UM α) : Prop where
  keeps : ∀ w : Work, Memory.wf w.st.mem = true → Memory.wf (m w).2.st.mem = true

namespace UM.Safe

variable {α β : Type}

theorem pure (a : α) : UM.Safe (Pure.pure a : UM α) := ⟨fun _ h => h⟩

theorem throw (e : Nat) : UM.Safe (MonadExcept.throw e : UM α) := ⟨fun _ h => h⟩

theorem bind {m : UM α} {f : α → UM β} (hm : m.Safe) (hf : ∀ a, (f a).Safe) : (m >>= f).Safe := by
  refine ⟨fun w hw => ?_⟩
  have h := hm.keeps w hw
  rw [UM.bind_run]
  split
  · next heq => rw [heq] at h; exact (hf _).keeps _ h
  · next heq => rw [heq] at h; exact h

/-- What follows a look at the state may use that the state it sees is in the form. -/
theorem now {f : State → UM α} (h : ∀ s : State, Memory.wf s.mem = true → (f s).Safe) : (Machine.now >>= f).Safe :=
  ⟨fun w hw => (h w.st hw).keeps w hw⟩

theorem get {f : Work → UM α}
    (h : ∀ w, (f w).Safe) : ((MonadState.get : UM Work) >>= f).Safe := ⟨fun w hw => (h w).keeps w hw⟩

theorem act {f : State → State}
    (h : ∀ s : State, Memory.wf s.mem = true → Memory.wf (f s).mem = true) : (Machine.act f).Safe :=
  ⟨fun w hw => h w.st hw⟩

/-- A change of the state that memory is no part of. -/
theorem act_same {f : State → State} (h : ∀ s : State, (f s).mem = s.mem) : (Machine.act f).Safe :=
  act fun s hs => by rwa [h s]

/-- The state is replaced by one in the form. -/
theorem act_const {t : State} (h : Memory.wf t.mem = true) : (Machine.act (fun _ => t)).Safe := act fun _ _ => h

theorem touch (p : Nat) (write rows : Bool) (ks : List Nat) : (Machine.touch p write rows ks).Safe := ⟨fun _ h => h⟩

theorem ite {c : Prop} [Decidable c] {m n : UM α} (hm : m.Safe) (hn : n.Safe) : (if c then m else n).Safe := by
  split
  · exact hm
  · exact hn

/-- A check that may stop the work, and what follows it. -/
theorem check {c : Prop} [Decidable c] {e : Nat} {f : β → UM α} {m : UM α} (hm : m.Safe) :
    (if c then MonadExcept.throw e >>= f else m).Safe := ite ⟨fun _ h => h⟩ hm

theorem tryCatch {m : UM α} {f : Nat → UM α} (hm : m.Safe) (hf : ∀ e, (f e).Safe) : (MonadExcept.tryCatch m f).Safe := by
  refine ⟨fun w hw => ?_⟩
  have h := hm.keeps w hw
  have hrun : (MonadExcept.tryCatch m f : UM α) w = match m w with
      | (.ok a, w') => (.ok a, w')
      | (.error e, w') => f e w' := by
    show (ExceptT.tryCatch m f) w = _
    simp only [ExceptT.tryCatch, ExceptT.mk, Bind.bind, StateT.bind]
    cases h : m w with
    | mk r w' => cases r <;> rfl
  rw [hrun]
  split
  · next heq => rw [heq] at h; exact h
  · next heq => rw [heq] at h; exact (hf _).keeps _ h

theorem atEntry (i : Nat) {m : UM α} (hm : m.Safe) : (Machine.atEntry i m).Safe := tryCatch hm fun _ => throw _

theorem served {m : UM α} (hm : m.Safe) : (Machine.served m).Safe := tryCatch hm fun _ => throw _

theorem forM {f : β → UM Unit} (h : ∀ b, (f b).Safe) : ∀ l : List β, UM.Safe (l.forM f)
  | [] => pure ()
  | b :: l => bind (h b) fun _ => forM h l

theorem mapM {f : β → UM α} (h : ∀ b, (f b).Safe) : ∀ l : List β, UM.Safe (l.mapM f)
  | [] => pure []
  | b :: l => by
    rw [List.mapM_cons]
    exact bind (h b) fun _ => bind (mapM h l) fun _ => pure _

theorem foldlM {f : α → β → UM α} (h : ∀ a b, (f a b).Safe) : ∀ (l : List β) (a : α), UM.Safe (l.foldlM f a)
  | [], a => pure a
  | b :: l, a => bind (h a b) fun a' => foldlM h l a'

/-- Work that is performed leaves memory in its form. -/
theorem run {m : UM α} (hm : m.Safe) {how : How} {s : State} {r : Except Nat α × State} (h : m.run how s = some r)
    (hs : Memory.wf s.mem = true) : Memory.wf r.2.mem = true := by
  unfold UM.run at h
  dsimp only at h
  split at h
  · cases h
    rw [State.mem_passAll]
    exact hm.keeps _ hs
  · cases h

end UM.Safe

/-! ### Reads and writes -/

theorem safe_rd (p : Nat) (mode : Reading) (unm a n : Nat) : (rd p mode unm a n).Safe := by
  unfold rd
  refine .now fun s hs => ?_
  split
  · exact .throw _
  · have hread : ∀ u : State, u.mem = s.mem → ∀ secs, Memory.wf (u.sense secs).1.mem = true :=
      fun u hu secs => u.wf_sense secs (hu ▸ hs)
    refine .ite (.bind (.act_const (hread _ ?_ _)) fun _ => .get fun _ => .bind (.touch ..) fun _ => ?_) ?_
    · split
      · exact s.mem_countLoad ..
      · rfl
    · exact .check (.pure _)
    · exact .check (.pure _)

theorem safe_rdNum (p : Nat) (mode : Reading) (unm a n : Nat) : (rdNum p mode unm a n).Safe :=
  .bind (safe_rd ..) fun _ => .pure _

theorem safe_wrKeyed (p : Nat) (ks : List Nat) (bs : List Byte) : (wrKeyed p ks bs).Safe := by
  unfold wrKeyed
  refine .now fun s hs => .bind (.act_const (s.wf_writeAll _ hs)) fun _ => .bind (.touch ..) fun _ => .ite (.throw _) (.pure _)

theorem safe_wr (p unm a : Nat) (bs : List Byte) : (wr p unm a bs).Safe := by
  unfold wr
  refine .now fun s _ => ?_
  split
  · exact .throw _
  · exact .bind (.act_same fun s => s.mem_countLoad ..) fun _ => safe_wrKeyed ..

/-! ### Tables -/

theorem safe_rdHomes (p : Nat) (mode : Reading) (unm bad a n : Nat) : (rdHomes p mode unm bad a n).Safe :=
  .ite (.pure _) (.bind (safe_rd ..) fun _ => .check (.pure _))

theorem safe_rdRows (p : Nat) (mode : Reading) (unm a : Nat) : (rdRows p mode unm a).Safe := by
  refine .bind (safe_rd ..) fun _ => .now fun _ _ => .check (.bind (safe_rdHomes ..) fun _ => .ite ?_ ?_)
  · exact .bind (safe_rd ..) fun _ => .check (.pure _)
  · exact .bind (safe_rd ..) fun _ => .check (.pure _)

theorem safe_settled (p t r : Nat) : (settled p t r).Safe := .now fun _ _ => .ite (.throw _) (.pure _)

end Sys2Proof.Machine
end
section
/-!
SUPPORT, for MemoryStaysCanonical: the work of row engines leaves memory in its canonical form.
-/

namespace Sys2Proof.Machine

/-! ### Rows and entries -/

theorem safe_fetchRow (e p t : Nat) (x : Rows) (r : Nat) : (fetchRow e p t x r).Safe := by
  refine .check (.bind (safe_settled ..) fun _ => .now fun s hs => ?_)
  dsimp only
  split
  · refine .bind (.act_const ?_) fun _ => safe_rd ..
    rw [State.mem_noteHot]
    split
    · exact hs
    · exact hs
  · refine .bind (.act_const (by rwa [State.mem_noteHot])) fun _ => ?_
    split
    · exact .pure _
    · exact .throw _
  · exact .throw _

theorem safe_nanOf (p : Nat) (src : NanSrc) (cause elem : Nat) : (nanOf p src cause elem).Safe :=
  .ite (.pure _) (.act_same fun s => s.mem_nanEvent ..)

theorem safe_wrBack (p a : Nat) (bs : List Byte) : (wrBack p a bs).Safe := by
  unfold wrBack
  refine .now fun s _ => ?_
  split
  · exact .throw _
  · exact safe_wrKeyed ..

theorem safe_pushTodo (e p i : Nat) (ps : List Packet) : (pushTodo e p i ps).Safe := .act_same fun s => s.mem_modRcur ..

theorem safe_rdEntry (p d i : Nat) : (rdEntry p d i).Safe := safe_rdNum ..

/-! ### GATHER, POOL and REPLAY -/

theorem safe_gatherOne (e p d : Nat) (src : Nat → NanSrc) (x : Rows) (i : Nat) : (gatherOne e p d src x i).Safe :=
  .bind (safe_rdEntry ..) fun _ => .bind (safe_fetchRow ..) fun _ => .ite (safe_wr ..)
    (.bind (safe_wr ..) fun _ => .forM (fun _ => safe_nanOf ..) _)

theorem safe_gatherWork (e p d : Nat) (src : Nat → NanSrc) (x : Rows) : (gatherWork e p d src x).Safe :=
  .bind (.forM (fun i => .atEntry i (safe_gatherOne ..)) _) fun _ => .pure _

theorem safe_poolRow (e p d : Nat) (x : Option Rows) (sv : Nat) : (poolRow e p d x sv).Safe := by
  unfold poolRow
  dsimp only
  split
  · exact .bind (safe_rd ..) fun _ => .pure _
  · exact .bind (safe_rdNum ..) fun _ => .bind (safe_fetchRow ..) fun _ => .pure _
  · exact .bind (safe_fetchRow ..) fun _ => .pure _
  · exact .throw _

theorem safe_hopList (p d : Nat) (bySrc : Bool) : (hopList p d bySrc).Safe :=
  .mapM (fun i => .atEntry i (.bind (safe_rdEntry ..) fun _ => .pure _)) _

theorem safe_poolWork (e p d : Nat) (src : Nat → NanSrc) (x : Option Rows) : (poolWork e p d src x).Safe :=
  .bind (safe_hopList ..) fun _ => .bind (.foldlM (fun _ _ => .atEntry _ (.check
    (.bind (.mapM (fun _ => .atEntry _ (.bind (safe_poolRow ..) fun _ => .pure _)) _) fun _ => .bind (safe_wr ..) fun _ =>
      .bind (.forM (fun _ => safe_nanOf ..) _) fun _ => .pure _))) _ _) fun _ => .pure _

theorem safe_replayWork (p d : Nat) (src : Nat → NanSrc) : (replayWork p d src).Safe :=
  .bind (safe_hopList ..) fun _ => .bind (.forM (fun _ => .atEntry _
    (.bind (.mapM (fun _ => .atEntry _ (.bind (safe_rd ..) fun _ => .pure _)) _) fun _ => .bind (safe_rd ..) fun _ =>
      .bind (safe_wrBack ..) fun _ => .forM (fun _ => safe_nanOf ..) _)) _) fun _ => .pure _

/-! ### Row adds -/

theorem safe_addElems (p : Nat) (x : RowTab) (a first : Nat) (vals : List Nat) (src : NanSrc) (elem0 : Nat) :
    (addElems p x a first vals src elem0).Safe :=
  .bind (safe_rd ..) fun _ => .bind (safe_wrBack ..) fun _ => .forM (fun _ => safe_nanOf ..) _

theorem safe_findOrder (p : Nat) (x : RowTab) (h : Nat) : ∀ n, (findOrder p x h n).Safe
  | 0 => .pure none
  | n + 1 => .bind (safe_rdNum ..) fun _ => .ite (.pure _) (safe_findOrder p x h n)

theorem safe_writable (p a n : Nat) : (writable p a n).Safe := by
  unfold writable
  refine .now fun s hs => ?_
  dsimp only
  split
  · exact .throw _
  · exact .bind (.act_const (s.wf_sense _ hs)) fun _ => .ite (.throw _) (.pure _)

theorem safe_contribute (p t : Nat) (x : RowTab) (a row first : Nat) (vals : List Nat) (c : Contrib) (src : NanSrc)
    (elem0 head : Nat) : (contribute p t x a row first vals c src elem0 head).Safe := by
  have hdone : (act (fun s => s.countRow p t)).Safe := .act_same fun s => s.mem_countRow ..
  refine .now fun s _ => .ite ?_ (.bind (.ite (.pure _) (safe_findOrder ..)) fun slot => ?_)
  · exact .bind (safe_addElems ..) fun _ => .bind (.act_same fun s => s.mem_noteArrival p) fun _ => hdone
  · cases slot with
    | some k => exact .bind (safe_writable ..) fun _ => .bind (safe_wr ..) fun _ => hdone
    | none =>
      refine .ite (.bind (safe_wr ..) fun _ => .bind (.act_same fun s => s.mem_setOrderCount ..) fun _ => hdone)
        (.bind (safe_addElems ..) fun _ => .bind (.act_same fun s => ?_) fun _ => hdone)
      rw [State.mem_noteArrival]
      split
      · exact State.mem_noteSpill ..
      · rfl

/-! ### SCATTER, FLUSH, APPLY_ORDERED and REPLICATE -/

theorem safe_scatterRow (e p d : Nat) (src : Nat → NanSrc) (head : Nat) (x : Rows) (i pos row : Nat) (vals : List Nat) :
    (scatterRow e p d src head x i pos row vals).Safe := by
  refine .check (.bind (safe_settled ..) fun _ => .now fun s _ => ?_)
  dsimp only
  split
  · exact safe_contribute ..
  · exact .throw _
  · split
    · exact .bind (safe_rd ..) fun _ => .bind (safe_wrBack ..) fun _ =>
        .bind (.act_same fun s => s.mem_noteArrival p) fun _ => safe_addElems ..
    · exact safe_pushTodo ..

theorem safe_scatterWork (e p d : Nat) (src : Nat → NanSrc) (head : Nat) (x : Rows) : (scatterWork e p d src head x).Safe :=
  .bind (.mapM (fun _ => .atEntry _ (.bind (safe_rdEntry ..) fun _ => .bind (safe_rd ..) fun _ => .pure _)) _) fun _ =>
    .bind (.forM (fun _ => .atEntry _ (.bind (.forM (fun _ => safe_nanOf ..) _) fun _ => safe_scatterRow ..)) _) fun _ => .pure _

theorem safe_flushWork (e p d : Nat) (src : Nat → NanSrc) (head : Nat) (x : Rows) : (flushWork e p d src head x).Safe := by
  refine .bind (.forM (fun k => .atEntry k (.bind (safe_rd ..) fun _ => .ite ?_ (.pure _))) _) fun _ => .pure _
  refine .bind (safe_settled ..) fun _ => .now fun s _ => ?_
  dsimp only
  split
  · exact .bind (safe_contribute ..) fun _ => safe_wrBack ..
  · exact .bind (safe_pushTodo ..) fun _ => safe_wrBack ..
  · exact .bind (.throw _) fun _ => safe_wrBack ..

theorem safe_applyOrderedWork (p d : Nat) (src : Nat → NanSrc) (x : Rows) : (applyOrderedWork p d src x).Safe := by
  refine .now fun s _ => .bind (.mapM (fun i => .atEntry i (.bind (safe_rd ..) fun _ => .pure _)) _) fun _ =>
    .bind (.forM (fun i => .atEntry i (.now fun s _ => ?_)) _) fun _ =>
    .bind (.act_same fun s => s.mem_setOrderCount ..) fun _ => .pure _
  split
  · exact safe_addElems ..
  · exact .throw _

theorem safe_replicateWork (e p d : Nat) (x : Rows) : (replicateWork e p d x).Safe := by
  refine .bind (.forM (fun k => .atEntry k (.bind (safe_settled ..) fun _ => .now fun s _ => .bind ?_ fun _ => safe_wr ..)) _)
    fun _ => .pure _
  split
  · exact safe_rd ..
  · split
    · exact .pure _
    · exact .throw _
  · exact .throw _

/-! ### OPT8 -/

theorem safe_opt8Block (p d : Nat) (src : NanSrc) (n pa pd ga ma md elem0 : Nat) :
    (opt8Block p d src n pa pd ga ma md elem0).Safe :=
  .bind (safe_rd ..) fun _ => .bind (safe_rd ..) fun _ => .bind (safe_rd ..) fun _ => .bind (safe_wr ..) fun _ =>
    .bind (safe_wr ..) fun _ => .bind (safe_nanOf ..) fun _ => .bind (safe_nanOf ..) fun _ => .forM (fun _ => safe_nanOf ..) _

theorem safe_opt8Row (p d : Nat) (src : NanSrc) (len pa pd ga ma md elem0 : Nat) (dense : Bool) :
    (opt8Row p d src len pa pd ga ma md elem0 dense).Safe :=
  .forM (fun b => .ite (.atEntry b (safe_opt8Block ..)) (safe_opt8Block ..)) _

theorem safe_opt8Work (p d : Nat) (src : Nat → NanSrc) : (opt8Work p d src).Safe :=
  .ite (.bind (safe_opt8Row ..) fun _ => .pure _)
    (.bind (.forM (fun i => .atEntry i (.bind (safe_rdNum ..) fun _ => safe_opt8Row ..)) _) fun _ => .pure _)

/-! ### A descriptor -/

theorem safe_rePrep (p d base : Nat) (mode : Reading) : (rePrep p d base mode).Safe :=
  .ite (.bind (safe_rdRows ..) fun _ => .now fun _ _ => .check (.check (.check (.pure _)))) (.check (.pure _))

theorem safe_reWork (e p : Nat) (c : RCur) : (reWork e p c).Safe := by
  refine .bind (safe_rePrep ..) fun x => ?_
  split
  · exact safe_gatherWork ..
  · exact safe_poolWork ..
  · exact safe_replayWork ..
  · exact safe_scatterWork ..
  · exact safe_flushWork ..
  · exact safe_applyOrderedWork ..
  · exact safe_opt8Work ..
  · exact safe_replicateWork ..
  · exact .pure _

/-! ### MIGRATE -/

theorem safe_slotOffset (me t dv q slot : Nat) : (slotOffset me t dv q slot).Safe :=
  .now fun _ _ => .ite (.bind (safe_rdRows ..) fun _ => .pure _) (.bind (.act_same fun _ => rfl) fun _ => .pure _)

theorem safe_migrateRow (e p t base i row dv q slot : Nat) : (migrateRow e p t base i row dv q slot).Safe := by
  refine .bind (safe_rdRows ..) fun _ => .bind (safe_settled ..) fun _ => .now fun s _ => .check ?_
  dsimp only
  split
  · exact .bind (safe_rd ..) fun _ => .bind (safe_slotOffset ..) fun _ => .bind (safe_pushTodo ..) fun _ =>
      .act_same fun _ => rfl
  · exact .throw _

theorem safe_migrateEntry (e p : Nat) (c : RCur) : (migrateEntry e p c).Safe :=
  .atEntry _ (.bind (safe_rdEntry ..) fun _ => .bind (safe_migrateRow ..) fun _ => .ite (safe_migrateRow ..) (.pure _))

end Sys2Proof.Machine
end
section
/-!
SUPPORT, for MemoryStaysCanonical: the work of DMA engines and samplers, and of requests served for other modules, leaves memory
in its canonical form.
-/

namespace Sys2Proof.Machine

/-! ### DMA engines -/

theorem safe_copyWork (p d : Nat) : (copyWork p d).Safe :=
  .bind (.forM (fun i => .atEntry i (.bind (safe_rd ..) fun _ => safe_wr ..)) _) fun _ => .pure _

theorem safe_copyPackets (p d : Nat) : (copyPackets p d).Safe :=
  .bind (.mapM (fun i => .atEntry i (.bind (safe_rd ..) fun _ => .now fun _ _ => .pure _)) _) fun _ => .pure _

theorem safe_compressWork (p d : Nat) : (compressWork p d).Safe :=
  .now fun _ _ => .bind (safe_wr ..) fun _ => .foldlM (fun _ i => .atEntry i (.bind (safe_rd ..) fun _ => .check
    (.bind (safe_wr ..) fun _ => .bind (safe_wr ..) fun _ => .pure _))) _ _

theorem safe_expandWork (p d : Nat) : (expandWork p d).Safe := by
  refine .bind (.forM (fun i => .atEntry i (.bind (safe_rdNum ..) fun _ => .bind (safe_rdNum ..) fun _ => .check
    (.bind (safe_rd ..) fun bs => ?_))) _) fun _ => .pure _
  split
  · exact .throw _
  · exact .check (safe_wr ..)

/-! ### Samplers -/

theorem safe_rdGraph (p : Nat) (mode : Reading) (base : Nat) : (rdGraph p mode base).Safe :=
  .bind (safe_rd ..) fun _ => .bind (safe_rdHomes ..) fun _ => .bind (safe_rdNum ..) fun _ => .check (.pure _)

theorem safe_rdSegment (p : Nat) (mode : Reading) (g : Graph) (v : Nat) : (rdSegment p mode g v).Safe :=
  .ite (.pure _) (.bind (safe_rdNum ..) fun _ => .bind (safe_rdNum ..) fun _ => .check (.pure _))

theorem safe_rdSource (p : Nat) (mode : Reading) (g : Graph) (e : Nat) : (rdSource p mode g e).Safe :=
  .bind (safe_rdNum ..) fun _ => .check (.pure _)

theorem safe_drawEdges (p : Nat) (mode : Reading) (d : Nat) (g : Graph) (scb v tm h off dg : Nat) :
    (drawEdges p mode d g scb v tm h off dg).Safe := by
  unfold drawEdges
  dsimp only
  split
  · exact .pure _
  · exact .ite (.pure _) (.bind (.mapM (fun _ => .bind (safe_rdNum ..) fun _ => .check (.pure _)) _) fun _ => .pure _)
  · exact .bind (safe_rd ..) fun _ => .check (.pure _)
  · exact .bind (safe_rd ..) fun _ => .pure _

theorem safe_expandEntry (p : Nat) (mode : Reading) (d : Nat) (g : Graph) (scb h e : Nat) :
    (expandEntry p mode d g scb h e).Safe := by
  refine .bind (safe_rdSegment ..) fun seg => ?_
  split
  · exact .pure _
  · refine .bind (safe_drawEdges ..) fun r => .bind (.mapM (fun k => .bind (safe_rdSource ..) fun v => .bind ?_ fun _ =>
      .bind ?_ fun _ => .pure _) _) fun _ => .pure _
    · exact .ite (.ite (safe_rdNum ..) (.pure _)) (.pure _)
    · exact .ite (.bind (safe_rdNum ..) fun _ => .pure _) (.pure _)

theorem safe_hopOf (p : Nat) (mode : Reading) (d : Nat) (g : Graph) (scb h : Nat) (fr : List Nat) :
    (hopOf p mode d g scb h fr).Safe :=
  .bind (.mapM (fun _ => safe_expandEntry ..) _) fun _ => .pure _

theorem safe_hopsOf (p : Nat) (mode : Reading) (d : Nat) (g : Graph) (scb : Nat) :
    ∀ n h fr, (hopsOf p mode d g scb n h fr).Safe
  | 0, _, _ => .pure []
  | n + 1, _, _ => .bind (safe_hopOf ..) fun _ => .bind (safe_hopsOf p mode d g scb n ..) fun _ => .pure _

theorem safe_rdSeeds (p : Nat) (mode : Reading) (d base : Nat) : (rdSeeds p mode d base).Safe :=
  .bind (safe_rd ..) fun _ => .bind (.mapM (fun _ => .bind (safe_rd ..) fun _ => .pure _) _) fun _ => .pure _

theorem safe_sampleWork (me p : Nat) (mode : Reading) (d : Nat) : (sampleWork me p mode d).Safe :=
  .now fun _ _ => .check (.check (.bind (safe_rdGraph ..) fun _ => .check (.bind (safe_rdSeeds ..) fun _ =>
    .bind (safe_hopsOf ..) fun _ => .pure _)))

theorem safe_writeRes (p d : Nat) (r : SRes) : (writeRes p d r).Safe := .forM (fun _ => safe_wr ..) _

theorem safe_scoreWork (p d : Nat) : (scoreWork p d).Safe :=
  .check (.bind (.mapM (fun _ => .bind (safe_rd ..) fun _ => .pure _) _) fun _ => .pure _)

theorem safe_saWork (p d : Nat) {res : UM SRes} (h : res.Safe) : (saWork p d res).Safe :=
  .bind h fun _ => .check (.bind (safe_writeRes ..) fun _ => .pure _)

/-! ### Requests of other modules -/

theorem safe_servedRows (p t : Nat) : (servedRows p t).Safe := .now fun _ _ => .check (safe_rdRows ..)

theorem safe_servedRead (h : Nat) : (servedRead h).Safe := by
  refine .served (.ite (.bind (safe_servedRows ..) fun x => .now fun s _ => ?_) (.check (safe_rd ..)))
  split
  · exact .throw _
  · exact .bind (safe_rd ..) fun _ => .bind (.act_same fun s => s.mem_countRow ..) fun _ => .pure _

theorem safe_servedAdd (p : Packet) : (servedAdd p).Safe := by
  refine .served (.bind (safe_servedRows ..) fun x => .check (.now fun s _ => ?_))
  split
  · exact .throw _
  · exact .bind (safe_contribute ..) fun _ => .pure _

end Sys2Proof.Machine
end
section
/-!
SUPPORT, for MemoryStaysCanonical: the operations of stalls, matrix arrays, row engines and HBM that write memory keep it in its
canonical form.
-/

namespace Sys2Proof.Machine

/-- A fold of steps that keep the form keeps it. -/
theorem State.wf_foldl {β : Type} {f : State → β → State}
    (h : ∀ (u : State) b, Memory.wf u.mem = true → Memory.wf (f u b).mem = true) (l : List β) {s : State}
    (hs : Memory.wf s.mem = true) : Memory.wf (l.foldl f s).mem = true :=
  keeps_foldl (P := fun u : State => Memory.wf u.mem = true) h l s hs

/-! ### Accesses of stalls -/

@[simp] theorem State.wf_performPart {s : State} (h : Memory.wf s.mem = true) (t k j : Nat) (poison : Bool) :
    Memory.wf (s.performPart t k j poison).mem = true := by
  unfold State.performPart
  dsimp only
  split
  · exact h
  · split
    · exact h
    · split
      · split
        · exact h
        · exact h
      · split
        · rwa [State.logPart_mem]
        · exact State.wf_putKeyed _ _ h
      · exact h

@[simp] theorem State.wf_performNear {s : State} (h : Memory.wf s.mem = true) (t k : Nat) (a : Access) :
    Memory.wf (s.performNear t k a).mem = true := by
  refine State.wf_foldl (fun u j hu => ?_) _ h
  split
  · split
    · exact State.wf_performPart hu ..
    · exact hu
  · exact hu

@[simp] theorem State.wf_performAtomic {s : State} (h : Memory.wf s.mem = true) (t k : Nat) (poison : Bool) :
    Memory.wf (s.performAtomic t k poison).mem = true := by
  unfold State.performAtomic
  dsimp only
  split
  · exact h
  · split
    · exact h
    · split
      · split
        · exact h
        · split
          · exact State.wf_putBytes _ _ _ h
          · exact h
      · split
        · rwa [State.logPart_mem]
        · rw [State.mem_nanEvents]
          exact State.wf_putBytes _ _ _ h
      · exact h

/-! ### Matrix arrays -/

@[simp] theorem State.wf_putLoft {s : State} (h : Memory.wf s.mem = true) (k off : Nat) (bs : List Byte) :
    Memory.wf (s.putLoft k off bs).mem = true := State.wf_putBytes _ _ _ h

@[simp] theorem State.wf_promoteTile {s : State} (h : Memory.wf s.mem = true) (k : Nat) (t : Tile) :
    Memory.wf (s.promoteTile k t).1.mem = true := by
  refine keeps_foldl (P := fun a : State × List (Nat × Nat) × Bool => Memory.wf a.1.mem = true) (fun a e ha => ?_) _ _ h
  obtain ⟨u, ev, sat⟩ := a
  dsimp only
  split
  · exact State.wf_putLoft ha ..
  · split
    · exact State.wf_putLoft ha ..
    · exact ha

@[simp] theorem State.wf_runStream {s : State} (h : Memory.wf s.mem = true) (k : Nat) (d : Desc) (x : Slot) (b : Tile) :
    Memory.wf (s.runStream k d x b).mem = true := by
  unfold State.runStream
  extract_lets c t due pr s1 t' r streamed t'' s2
  have h1 : Memory.wf s1.mem = true := by
    unfold s1
    split
    · rw [State.mem_nanEvents, State.mem_satMxa]
      exact State.wf_promoteTile h k t
    · exact h
  clear_value s1
  rw [State.mem_nanEvents, State.mem_modMxa]
  unfold s2
  split
  · exact h1
  · exact h1

@[simp] theorem State.wf_runDrain {s : State} (h : Memory.wf s.mem = true) (k : Nat) (d : Desc) (t : Tile) :
    Memory.wf (s.runDrain k d t).1.mem = true := by
  unfold State.runDrain
  dsimp only
  split
  · rw [State.mem_nanEvents, State.mem_modMxa]
    exact State.wf_promoteTile h k t
  · rw [State.mem_nanEvents]
    split
    · exact State.wf_putLoft (State.wf_putLoft h ..) ..
    · exact State.wf_foldl (fun u e hu => State.wf_putLoft hu ..) _ h

/-! ### Row engines -/

@[simp] theorem State.wf_rowAdvance {s : State} (h : Memory.wf s.mem = true) (e p : Nat) :
    Memory.wf (s.rowAdvance e p).mem = true := by
  unfold State.rowAdvance
  dsimp only
  split
  · simpa
  · split
    · simpa
    · split
      · simpa [State.mem_setRcur]
      · split
        · simpa
        · simpa [State.mem_setRcur]
        · split
          · simpa
          · next r hr =>
            have hwork := (safe_reWork ..).run hr (by simpa)
            split
            · simpa using hwork
            · simpa using hwork

theorem State.wf_of_rowStart {s t : State} {e p : Nat} {d : Desc} (h : s.rowStart e p d = some t)
    (hs : Memory.wf s.mem = true) : Memory.wf t.mem = true := by
  unfold State.rowStart at h
  dsimp only at h
  split at h
  · obtain rfl := Option.some.inj h
    simpa using hs
  · split at h
    · obtain rfl := Option.some.inj h
      simpa using hs
    · obtain ⟨r, hr, rfl⟩ := Option.map_eq_some_iff.mp h
      have hprep := (safe_rePrep ..).run hr hs
      split
      · simpa using hprep
      · exact State.wf_rowAdvance (by simpa [State.mem_setRcur] using hprep) ..
      · split
        · exact State.wf_rowAdvance (by simpa [State.mem_setRcur] using hprep) ..
        · exact State.wf_rowAdvance (by simpa [State.mem_setRcur] using hprep) ..

@[simp] theorem State.wf_endRow {s : State} (h : Memory.wf s.mem = true) (e p idx tag fcode : Nat) :
    Memory.wf (s.endRow e p idx tag fcode).mem = true := by
  refine State.wf_rowAdvance ?_ ..
  split
  · simpa
  · simpa

/-! ### Transactions and data of other modules -/

@[simp] theorem State.wf_failTag {s : State} (h : Memory.wf s.mem = true) (t : Tag) (fcode target : Nat) :
    Memory.wf (s.failTag t fcode target).mem = true := by
  unfold State.failTag
  dsimp only
  split <;> simp [h]

@[simp] theorem State.wf_landData {s : State} (h : Memory.wf s.mem = true) (q : Nat) (ks : List Nat) (bs : List Byte) :
    Memory.wf (s.landData q ks bs).1.mem = true := by
  have hsense := s.wf_sense (partSectors ks) h
  unfold State.landData
  dsimp only
  split
  · rwa [State.mem_passAll]
  · exact State.wf_writeThrough _ _ _ (by rwa [State.mem_countLoad])

/-- What is known after a refused request: the memory of the state its reads left. -/
@[simp] theorem State.mem_afterRefusal (s t : State) : (s.afterRefusal t).mem = t.mem := rfl

end Sys2Proof.Machine
end
section
/-!
SUPPORT, for MemoryStaysCanonical: collectives, the scan of the verdict engine and the loader keep memory in its canonical form.
-/

namespace Sys2Proof.Machine

/-! ### Reads and writes of an engine -/

@[simp] theorem State.wf_peek {s : State} (h : Memory.wf s.mem = true) (p a n : Nat) :
    Memory.wf (s.peek p a n).2.mem = true := by
  unfold State.peek
  split
  · exact h
  · exact s.wf_readThrough _ _ h

@[simp] theorem State.wf_poked {s : State} (h : Memory.wf s.mem = true) (p a : Nat) (bs : List Byte) :
    Memory.wf (s.poke p a bs).mem = true := s.wf_poke p a bs h

/-! ### Collectives: contributions and owners -/

@[simp] theorem State.wf_endInstance {s : State} (h : Memory.wf s.mem = true) (p n : Nat) :
    Memory.wf (s.endInstance p n).mem = true := by
  unfold State.endInstance
  extract_lets d x t s1 s2
  have h2 : Memory.wf s2.mem = true := State.wf_poked h ..
  clear_value s2
  split
  · exact h
  · split
    · rwa [State.mem_writeFlag]
    · exact h2

@[simp] theorem State.wf_addShard {s : State} (h : Memory.wf s.mem = true) (p n d : Nat) (f : Fmt) (es : List (Nat × Nat)) :
    Memory.wf (s.addShard p n d f es).mem = true :=
  State.wf_foldl (fun u e hu => by simp [hu]) _ h

@[simp] theorem State.wf_takeContrib {s : State} (h : Memory.wf s.mem = true) (p n d : Nat) (k : Packet) :
    Memory.wf (s.takeContrib p n d k).mem = true := by
  unfold State.takeContrib
  split
  · exact h
  · simp [h]

@[simp] theorem State.wf_bufferContrib {s : State} (h : Memory.wf s.mem = true) (p n d : Nat) (k : Packet) :
    Memory.wf (s.bufferContrib p n d k).mem = true := by
  unfold State.bufferContrib
  split
  · exact h
  · rw [State.mem_modPlan]
    exact State.wf_foldl (fun u e hu => State.wf_poked hu ..) _ h

@[simp] theorem State.wf_takeBuffered {s : State} (h : Memory.wf s.mem = true) (p n d : Nat) (b : Buffered) :
    Memory.wf (s.takeBuffered p n d b).mem = true := by
  unfold State.takeBuffered
  rw [State.mem_modPlan]
  exact State.wf_foldl (fun u i hu => State.wf_addShard (State.wf_peek hu ..) ..) _ h

@[simp] theorem State.wf_drainTurns (f : Nat) {s : State} (h : Memory.wf s.mem = true) (p n d : Nat) :
    Memory.wf (State.drainTurns f s p n d).mem = true := by
  induction f generalizing s with
  | zero => exact h
  | succ f ih =>
    unfold State.drainTurns
    dsimp only
    split
    · exact h
    · split
      · exact h
      · split
        · exact h
        · exact ih (by simp [h])

@[simp] theorem State.wf_endShard {s : State} (h : Memory.wf s.mem = true) (p n : Nat) :
    Memory.wf (s.endShard p n).mem = true := by
  unfold State.endShard
  dsimp only
  split
  · exact h
  · rw [State.mem_sendSidecars]
    exact State.wf_foldl (fun u k hu => by simpa using hu) _ (by simp [h])

/-! ### Collectives: chains -/

@[simp] theorem State.wf_chainResult {s : State} (h : Memory.wf s.mem = true) (p n d inst first : Nat) (cs : List Nat) :
    Memory.wf (s.chainResult p n d inst first cs).mem = true := by
  unfold State.chainResult
  dsimp only
  split <;> simp [h]

@[simp] theorem State.wf_chainStep {s : State} (h : Memory.wf s.mem = true) (p n d inst first : Nat) (prev : Option (List Nat))
    (count : Nat) : Memory.wf (s.chainStep p n d inst first prev count).mem = true := by
  unfold State.chainStep
  dsimp only
  split <;> simp [h]

@[simp] theorem State.wf_chainSideUp {s : State} (h : Memory.wf s.mem = true) (p n d inst : Nat) (t : PlanTot) :
    Memory.wf (s.chainSideUp p n d inst t).mem = true := by
  unfold State.chainSideUp
  dsimp only
  split <;> simp [h]

@[simp] theorem State.wf_takeChain {s : State} (h : Memory.wf s.mem = true) (p n d : Nat) (k : Packet) :
    Memory.wf (s.takeChain p n d k).mem = true := State.wf_chainStep h ..

@[simp] theorem State.wf_bufferChain {s : State} (h : Memory.wf s.mem = true) (p n d : Nat) (k : Packet) :
    Memory.wf (s.bufferChain p n d k).mem = true := by simp [State.bufferChain, h]

@[simp] theorem State.wf_unbufferChain {s : State} (h : Memory.wf s.mem = true) (p n d : Nat) (b : Buffered) :
    Memory.wf (s.unbufferChain p n d b).mem = true := State.wf_takeChain (State.wf_peek h ..) ..

@[simp] theorem State.wf_takeSide {s : State} (h : Memory.wf s.mem = true) (p n d : Nat) (k : Packet) :
    Memory.wf (s.takeSide p n d k).mem = true := by
  unfold State.takeSide
  dsimp only
  split
  · simp [h]
  · split <;> simp [h]

@[simp] theorem State.wf_beginInstance {s : State} (h : Memory.wf s.mem = true) (p n : Nat) :
    Memory.wf (s.beginInstance p n).mem = true := by
  unfold State.beginInstance
  extract_lets d x a b inst s1 s2 s3 s4
  have h1 : Memory.wf s1.mem = true := State.wf_peek (State.wf_peek (State.wf_peek h ..) ..) ..
  clear_value s1
  have h2 : Memory.wf s2.mem = true := by
    unfold s2
    split
    · rwa [State.mem_contributeAll]
    · split
      · exact State.wf_chainSideUp (State.wf_foldl (fun u c hu => State.wf_chainStep hu ..) _ h1) ..
      · exact h1
  clear_value s2
  have h3 : Memory.wf s3.mem = true := by
    unfold s3
    split
    · exact State.wf_foldl (fun u c hu => State.wf_unbufferChain hu ..) _ h2
    · exact h2
  clear_value s3
  exact State.wf_endInstance (State.wf_foldl (fun u c hu => State.wf_takeSide hu ..) _ h3) ..

/-! ### The scan of the verdict engine -/

@[simp] theorem State.wf_scanRegion {s : State} (h : Memory.wf s.mem = true) (p e : Nat) :
    Memory.wf (s.scanRegion p e).2.mem = true :=
  keeps_foldl (P := fun a : (Nat × Bool) × State => Memory.wf a.2.mem = true) (fun _ _ ha => State.wf_peek ha ..) _ _ h

@[simp] theorem State.wf_scan {s : State} (h : Memory.wf s.mem = true) (p : Nat) : Memory.wf (s.scan p).2.mem = true := by
  unfold State.scan
  dsimp only
  split
  · exact h
  · split
    · exact h
    · split
      · exact State.wf_peek h ..
      · exact keeps_foldl (P := fun a : (Nat × Bool × Bool) × State => Memory.wf a.2.mem = true)
          (fun _ _ ha => State.wf_scanRegion ha ..) _ _ (State.wf_peek h ..)

/-! ### The loader -/

@[simp] theorem State.wf_fetchImage {s : State} (h : Memory.wf s.mem = true) (p : Nat) :
    Memory.wf (s.fetchImage p).mem = true := by
  unfold State.fetchImage
  dsimp only
  split <;> simp [h]

@[simp] theorem State.wf_loadBytes {s : State} (h : Memory.wf s.mem = true) (p : Nat) (img : List Byte) (x : Sect) :
    Memory.wf (s.loadBytes p img x).mem = true := by
  unfold State.loadBytes
  dsimp only
  split
  · exact State.wf_putBytes _ _ _ h
  · exact State.wf_putBytes _ _ _ h
  · exact State.wf_poked h ..
  · exact h

@[simp] theorem State.wf_tentative {s : State} (h : Memory.wf s.mem = true) (p : Nat) (img : List Byte) (xs : List Sect)
    (ps : List PenRec) : Memory.wf (s.tentative p img xs ps).mem = true := by
  unfold State.tentative
  extract_lets ks s1 s2 s3 s4
  have h1 : Memory.wf s1.mem = true := State.wf_foldl (fun u x hu => State.wf_loadBytes hu ..) _ h
  clear_value s1
  have h2 : Memory.wf s2.mem = true := State.wf_foldl (fun u k hu => by rwa [State.mem_startShed]) _ h1
  clear_value s2
  have h4 : Memory.wf s4.mem = true := State.wf_foldl (fun u g hu => by rwa [State.setObj_mem]) _ h2
  clear_value s4
  rwa [State.mem_startTables]

@[simp] theorem State.wf_zeroAccs {s : State} (h : Memory.wf s.mem = true) (p : Nat) :
    Memory.wf (s.zeroAccs p).mem = true := by
  refine State.wf_foldl (fun u n hu => ?_) _ h
  dsimp only
  split
  · exact State.wf_poked hu ..
  · exact hu

@[simp] theorem State.wf_loadDone {s : State} (h : Memory.wf s.mem = true) (old : State) (p : Nat) (img : List Byte) :
    Memory.wf (s.loadDone old p img).mem = true := by simp [State.loadDone, h]

end Sys2Proof.Machine
end
section
/-!
SUPPORT, for MemoryStaysCanonical: the season machine, writes to the dictionary and the host port keep memory in its canonical
form.
-/

namespace Sys2Proof.Machine

/-! ### The season machine -/

/-- Nothing is stored once the sheds and stacks are dark. -/
@[simp] theorem State.mem_coreDark (s : State) : s.coreDark.mem = [] := rfl

@[simp] theorem State.mem_cold (s : State) : s.cold.mem = [] := rfl

@[simp] theorem Memory.wf_nil : Memory.wf [] = true := rfl

@[simp] theorem State.wf_enterAutumn {s : State} (h : Memory.wf s.mem = true) (j : Nat) :
    Memory.wf (s.enterAutumn j).mem = true := by
  unfold State.enterAutumn
  extract_lets s1 season s2
  have h2 : Memory.wf s2.mem = true := by
    change Memory.wf (s.clearPend.toSeason .autumn j).mem = true
    simpa
  clear_value s2
  split
  · refine State.wf_foldl (fun u p hu => ?_) _ h2
    split
    · simpa
    · exact hu
  · exact h2
  · split
    · refine State.wf_foldl (fun u p hu => ?_) _ h2
      split
      · simpa
      · exact hu
    · exact h2
  · simp
  · simpa
  · simpa
  · exact h2

@[simp] theorem State.wf_request {s : State} (h : Memory.wf s.mem = true) (on : Bool) :
    Memory.wf (s.request on).mem = true := by
  unfold State.request
  dsimp only
  split
  · split <;> simp [h]
  · split
    · simp [h]
    · split <;> simp [h]
  · split <;> simp [h]
  · split
    · simp [h]
    · split <;> simp [h]
  · exact h

@[simp] theorem State.wf_enterFault {s : State} (h : Memory.wf s.mem = true) (cause sensor : Nat) (reading : Int) :
    Memory.wf (s.enterFault cause sensor reading).mem = true := by
  unfold State.enterFault
  dsimp only
  split
  · exact h
  · simp

/-! ### Writes to the dictionary -/

/-- A write that leaves memory in its canonical form where it is not refused. -/
structure WriteSafe (r : WR) : Prop where
  wf : ∀ t, r = .ok t → Memory.wf t.mem = true

theorem WriteSafe.ok {t : State} (h : Memory.wf t.mem = true) : WriteSafe (.ok t) := ⟨fun _ ht => Except.ok.inj ht ▸ h⟩

theorem WriteSafe.error (e : Nat) : WriteSafe (.error e) := ⟨fun _ ht => by simp at ht⟩

theorem WriteSafe.ite {c : Prop} [Decidable c] {a b : WR} (ha : WriteSafe a) (hb : WriteSafe b) :
    WriteSafe (if c then a else b) := by
  split
  · exact ha
  · exact hb

theorem WriteSafe.refuseIf {b : Bool} {status : Nat} {k : WR} (h : WriteSafe k) : WriteSafe (refuseIf b status k) :=
  .ite (.error _) h

theorem WriteSafe.whenStopped {s : State} {p : Nat} {k : WR} (h : WriteSafe k) : WriteSafe (s.whenStopped p k) := .refuseIf h

section
variable {s : State} (h : Memory.wf s.mem = true)
include h

theorem State.writePort_safe (k sub v : Nat) : WriteSafe (s.writePort k sub v) := by
  unfold State.writePort
  split <;> exact .ok (by simpa)

theorem State.writeFabric_safe (sub v : Nat) : WriteSafe (s.writeFabric sub v) :=
  .ite (.refuseIf (.ok (by simpa))) (.ite (.refuseIf (.ok (by simpa))) (.ite (.ok h) (.ok (by simpa))))

theorem State.writeTable_safe (p t v : Nat) : WriteSafe (s.writeTable p t v) :=
  .ite (.ok (by simpa)) (.refuseIf (.ok (by simpa)))

theorem State.writeUnit_safe (idx sub v : Nat) : WriteSafe (s.writeUnit idx sub v) := by
  have hset : ∀ k, WriteSafe (.ok (s.setObj k v)) := fun k => .ok (by simpa)
  exact .ite (s.writePort_safe h ..) <| .ite (s.writeFabric_safe h ..) <|
    .ite (.ite (.refuseIf (.refuseIf (hset _))) (hset _)) <| .ite (.ite (.ok (by simpa)) (hset _)) <|
    .ite (.refuseIf (hset _)) <| .ite (s.writeTable_safe h ..) <| .ite (.ok (by simpa)) <| .ite (.ok (by simpa)) (.ok h)

theorem State.startPart_safe (p : Nat) : WriteSafe (s.startPart p) := by
  unfold State.startPart
  split
  · exact .error _
  · exact .refuseIf (.ok (by simpa))
  · exact .error _

theorem State.writePartCtrl_safe (p v : Nat) : WriteSafe (s.writePartCtrl p v) :=
  .ite (.error _) (.ite (s.startPart_safe h p) (.ite (.ok (by simpa)) (.ok h)))

theorem State.writeAck_safe (w v : Nat) : WriteSafe (s.writeAck w v) := .refuseIf (.ok (by simpa))

theorem State.writePart_safe (p sub v : Nat) : WriteSafe (s.writePart p sub v) := by
  have hset : ∀ k, WriteSafe (.ok (s.setObj k v)) := fun k => .ok (by simpa)
  refine .ite (.ok (by simpa)) ?_
  split
  · exact .ok (by simpa)
  · exact s.writePartCtrl_safe h p v
  · refine .whenStopped (.refuseIf ?_)
    split
    · next hset => exact .ok (by rwa [State.mem_of_setSheds hset])
    · exact .error _
  · exact .whenStopped (.refuseIf (hset _))
  · exact .whenStopped (.refuseIf (hset _))
  · exact .whenStopped (hset _)
  · exact .whenStopped (.refuseIf (.ok (by simpa)))
  · exact .whenStopped (.refuseIf (.ok (by simpa)))
  · exact .whenStopped (.refuseIf (.ok (by simpa)))
  · exact .whenStopped (.refuseIf (.ok (by simpa)))
  · exact .refuseIf (hset _)
  · exact .ok (by simpa)
  · refine .ok ?_
    split <;> simpa
  · exact .ok (by simpa)
  · refine .whenStopped (.refuseIf ?_)
    split
    · next hset => exact .ok (by rwa [State.mem_of_setStaging hset])
    · exact .error _
  · exact .refuseIf (hset _)
  · exact .refuseIf (hset _)
  · exact .ok (by simpa)
  · refine .whenStopped (.refuseIf ?_)
    split
    · next hset => exact .ok (by rwa [State.mem_of_setLayout hset])
    · exact .error _
  · exact s.writeAck_safe h ..
  · exact .ok (by simpa)
  · exact hset _

theorem State.writeTrain_safe (p sub v : Nat) : WriteSafe (s.writeTrain p sub v) := by
  have hset : ∀ k, WriteSafe (.ok (s.setObj k v)) := fun k => .ok (by simpa)
  refine .ite (.whenStopped (.ok (by simpa))) ?_
  split
  · exact .whenStopped (.refuseIf (hset _))
  · exact .refuseIf (hset _)
  · exact .whenStopped (.refuseIf (hset _))
  · exact .whenStopped (.refuseIf (hset _))
  · exact .whenStopped (hset _)
  · exact .whenStopped (hset _)
  · exact .ok (by simpa)
  · exact .whenStopped (.refuseIf (hset _))
  · exact .whenStopped (.refuseIf (hset _))
  · refine .ok ?_
    split <;> simpa
  · exact .ok (by simpa)
  · exact hset _

theorem State.writeSeason_safe (v : Nat) : WriteSafe (s.writeSeason v) := by
  refine .ite (.error _) ?_
  extract_lets season u
  have hu : Memory.wf u.mem = true := by
    unfold u
    split <;> exact h
  refine .ok ?_
  split
  · exact State.wf_request hu _
  · split
    · exact State.wf_request hu _
    · exact hu

theorem State.writeModule_safe (idx sub v : Nat) : WriteSafe (s.writeModule idx sub v) := by
  unfold State.writeModule
  dsimp only
  split
  · exact .refuseIf (.ok (by simpa))
  · exact .ite (s.writeSeason_safe h v) (.refuseIf (.ok (by simpa)))
  · exact .ite (.ok (by simpa)) (.refuseIf (.ok (by simpa)))
  · refine .ok ?_
    split <;> simpa
  · exact .refuseIf (.ok (by simpa))
  · split
    · exact s.writeAck_safe h ..
    · exact .ok (by simpa)
    · exact .ok (by simpa)
  · refine .ite (.ok ?_) (.ok (by simpa))
    split <;> split <;> simpa
  · exact .ite (.refuseIf (.ok (by simpa))) (.ok (by simpa))

theorem State.writeObj_safe (idx sub v : Nat) : WriteSafe (s.writeObj idx sub v) :=
  .ite (s.writeModule_safe h ..) <| .ite (s.writePart_safe h ..) <| .ite (s.writeTrain_safe h ..) (s.writeUnit_safe h ..)

theorem State.writeLong_safe (idx off : Nat) (bs : List Byte) : WriteSafe (s.writeLong idx off bs) :=
  .ite (.ok h) (.refuseIf (.ok (by simpa)))

theorem State.writeChecked_safe (who : Requester) (m : List Byte) (d : ObjDef) : WriteSafe (s.writeChecked who m d) :=
  .refuseIf <| .refuseIf <| .refuseIf <| .refuseIf <| .refuseIf <| .ite (s.writeLong_safe h ..) (s.writeObj_safe h ..)

/-! ### Requests -/

theorem State.wf_writeReq (who : Requester) (m : List Byte) : Memory.wf (s.writeReq who m).2.2.mem = true := by
  unfold State.writeReq
  split
  · exact h
  · split
    · exact h
    · next hok => exact (s.writeChecked_safe h ..).wf _ hok

theorem State.wf_perform (who : Requester) (m : List Byte) : Memory.wf (s.perform who m).2.2.mem = true := by
  unfold State.perform
  split
  · exact h
  · split
    · exact h
    · split
      · simpa
      · split
        · exact s.wf_writeReq h ..
        · simpa

/-! ### The loader's objects -/

theorem State.wf_of_loadObject {p : Nat} {r : ObjRec} {t : State} (ht : s.loadObject p r = some t) :
    Memory.wf t.mem = true := by
  unfold State.loadObject at ht
  split at ht
  · cases ht
  · extract_lets v old im ro k u at ht
    have hu : Memory.wf u.mem = true := by
      unfold u
      split
      · exact h
      · simpa
    clear_value u
    split at ht
    · cases ht
    · exact (u.writeObj_safe hu ..).wf t (by
        cases hw : u.writeObj r.idx r.sub v with
        | error e => rw [hw] at ht; cases ht
        | ok w => rw [hw] at ht; cases ht; rfl)

end

/-- A fold of steps that may fail keeps the form when each does. -/
theorem State.wf_of_foldlM {β ε : Type} {f : State → β → Except ε State}
    (hf : ∀ s b t, Memory.wf s.mem = true → f s b = .ok t → Memory.wf t.mem = true) (l : List β) :
    ∀ {s t : State}, Memory.wf s.mem = true → l.foldlM f s = .ok t → Memory.wf t.mem = true := by
  induction l with
  | nil => intro s t hs ht; cases ht; exact hs
  | cons b l ih =>
    intro s t hs ht
    rw [List.foldlM_cons] at ht
    cases hb : f s b with
    | error e => rw [hb] at ht; cases ht
    | ok u => rw [hb] at ht; exact ih (hf _ _ _ hs hb) ht

theorem State.wf_of_loadObjects {s t : State} {p : Nat} {img : List Byte} {xs : List Sect} (hs : Memory.wf s.mem = true)
    (ht : s.loadObjects p img xs = .ok t) : Memory.wf t.mem = true := by
  refine State.wf_of_foldlM (fun u x w hu hw => State.wf_of_foldlM (fun u i w hu hw => ?_) _ hu hw) _ hs ht
  split at hw
  · next hload =>
    obtain ⟨r, -, hr⟩ := Option.bind_eq_some_iff.mp hload
    cases hw
    exact State.wf_of_loadObject hu hr
  · cases hw

/-- A check that is passed in a load. -/
theorem LM.bind_eq_ok {α β : Type} {m : LM α} {f : α → LM β} {b : β} (h : (m >>= f) = .ok b) :
    ∃ a, m = .ok a ∧ f a = .ok b := by
  cases m with
  | error e => cases h
  | ok a => exact ⟨a, rfl, h⟩

theorem State.wf_of_load {s : State} {p : Nat} {r : List Byte × State} (hs : Memory.wf s.mem = true)
    (h : s.load p = .ok r) : Memory.wf r.2.mem = true := by
  unfold State.load at h
  obtain ⟨img, -, h⟩ := LM.bind_eq_ok h
  obtain ⟨_, -, h⟩ := LM.bind_eq_ok h
  obtain ⟨xs, -, h⟩ := LM.bind_eq_ok h
  obtain ⟨_, -, h⟩ := LM.bind_eq_ok h
  obtain ⟨_, -, h⟩ := LM.bind_eq_ok h
  obtain ⟨_, -, h⟩ := LM.bind_eq_ok h
  obtain ⟨ps, -, h⟩ := LM.bind_eq_ok h
  obtain ⟨_, -, h⟩ := LM.bind_eq_ok h
  obtain ⟨_, -, h⟩ := LM.bind_eq_ok h
  obtain ⟨t, hplans, h⟩ := LM.bind_eq_ok h
  obtain ⟨u, hobjects, h⟩ := LM.bind_eq_ok h
  obtain ⟨_, -, h⟩ := LM.bind_eq_ok h
  obtain ⟨w, hpipes, h⟩ := LM.bind_eq_ok h
  obtain ⟨_, -, h⟩ := LM.bind_eq_ok h
  cases h
  have ht : Memory.wf t.mem = true := by
    rw [State.mem_of_loadPlans hplans]
    exact State.wf_tentative hs ..
  have hu := State.wf_of_loadObjects ht hobjects
  rwa [State.mem_of_loadPipes hpipes]

/-! ### The host port -/

@[simp] theorem State.wf_bar4Read {s : State} (h : Memory.wf s.mem = true) (fn : Nat) (ks : List Nat) :
    Memory.wf (s.bar4Read fn ks).mem = true := State.wf_readThrough _ _ _ (by rwa [State.mem_countHost])

@[simp] theorem State.wf_bar4Write {s : State} (h : Memory.wf s.mem = true) (fn : Nat) (ks : List Nat) (data : List Byte) :
    Memory.wf (s.bar4Write fn ks data).mem = true := State.wf_writeThrough _ _ _ (by rwa [State.mem_countHost])

end Sys2Proof.Machine
end
section
/-!
SUPPORT, for MemoryStaysCanonical: outcomes whose next state has memory in its canonical form, and the instructions of stalls.
-/

namespace Sys2Proof.Machine

/-- An outcome whose next state, if it is one, has memory in its canonical form. -/
structure Canonical (o : Out1) : Prop where
  wf : ∀ t, o = .next t → Memory.wf t.mem = true

/-! ### Outcomes put together -/

theorem Canonical.next {t : State} (h : Memory.wf t.mem = true) : Canonical (.next t) :=
  ⟨fun _ ht => Host.Outcome.next.inj ht ▸ h⟩

theorem Canonical.fault (f : Fault) : Canonical (.fault f) := ⟨fun _ ht => by simp at ht⟩

theorem Canonical.ite {c : Prop} [Decidable c] {a b : Out1} (ha : Canonical a) (hb : Canonical b) :
    Canonical (if c then a else b) := by
  split
  · exact ha
  · exact hb

/-- The guard of a meaning that names units. -/
theorem Canonical.guard {c : Prop} [Decidable c] {f : Fault} {o : Out1} (h : Canonical o) :
    Canonical (if c then .fault f else o) := .ite (.fault f) h

section
variable {s : State} (hs : Memory.wf s.mem = true)
include hs

/-! ### Forms shared by instructions -/

/-- A stall that changes is no part of memory. -/
theorem Canonical.setStall (t : Nat) (x : Stall) : Canonical (.next (s.setStall t x)) := .next hs

theorem issue_canonical {t : Nat} {rs : List Nat} {k : Nat → Stall → Out1} (h : ∀ p x, Canonical (k p x)) :
    Canonical (issue t rs s k) := .guard <| by
  split
  · exact .next hs
  · exact .ite (h _ _) (.next hs)

theorem illegal_canonical (p t : Nat) : Canonical (illegal p t s) := .next (by simpa)

theorem issue_illegal_canonical (t : Nat) (rs : List Nat) : Canonical (issue t rs s fun p _ => illegal p t s) :=
  issue_canonical hs fun _ _ => illegal_canonical hs _ _

theorem execG_canonical (t : Nat) (d : BitVec 5) (rs : List Nat) (f : Stall → GRes) : Canonical (execG t d rs f s) :=
  issue_canonical hs fun _ _ => .setStall hs _ _

theorem execGG_canonical (t : Nat) (d a b : BitVec 5) (f : BitVec 64 → BitVec 64 → GRes) : Canonical (execGG t d a b f s) :=
  execG_canonical hs ..

theorem execGA_canonical (t : Nat) (d a : BitVec 5) (f : BitVec 64 → GRes) : Canonical (execGA t d a f s) :=
  execG_canonical hs ..

theorem execGI_canonical (t : Nat) (d a : BitVec 5) (imm : BitVec 15) (f : BitVec 64 → BitVec 64 → GRes) :
    Canonical (execGI t d a imm f s) := execG_canonical hs ..

theorem execShiftI_canonical (t : Nat) (d a : BitVec 5) (imm : BitVec 15) (f : BitVec 64 → BitVec 64 → GRes) :
    Canonical (execShiftI t d a imm f s) := .ite (execGI_canonical hs ..) (issue_illegal_canonical hs ..)

theorem execF_canonical (t : Nat) (d : BitVec 5) (rs : List Nat) (f : Stall → ERes) : Canonical (execF t d rs f s) :=
  issue_canonical hs fun _ _ => .next (by simpa)

theorem execFF_canonical (strict : Bool) (t : Nat) (d a b : BitVec 5) (f : FVal → FVal → FVal) :
    Canonical (execFF strict t d a b f s) := execF_canonical hs ..

theorem execFCmp_canonical (t : Nat) (d a b : BitVec 5) (f : FVal → FVal → Bool) : Canonical (execFCmp t d a b f s) :=
  execGG_canonical hs ..

theorem execV_canonical (t : Nat) (d : BitVec 5) (p : BitVec 3) (w : Nat) (ok : Bool) (rs : List Nat) (op : Nat)
    (f : Stall → Nat → ERes) : Canonical (execV t d p w ok rs op f s) :=
  issue_canonical hs fun _ _ => .ite (.next (by simpa)) (illegal_canonical hs _ _)

theorem execVV_canonical (k : EtSet) (t : Nat) (d a b : BitVec 5) (p et : BitVec 3) (f : Nat → Nat → Nat → ERes) :
    Canonical (execVV k t d a b p et f s) := execV_canonical hs ..

theorem execVA_canonical (k : EtSet) (t : Nat) (d a : BitVec 5) (p et : BitVec 3) (f : Nat → Nat → ERes) :
    Canonical (execVA k t d a p et f s) := execV_canonical hs ..

theorem execVVV_canonical (t : Nat) (d a b c : BitVec 5) (p : BitVec 3) (ft : BitVec 2)
    (f : Fmt → Nat → Nat → Nat → ERes) : Canonical (execVVV t d a b c p ft f s) := execV_canonical hs ..

theorem execCmp_canonical (k : EtSet) (t : Nat) (d : BitVec 5) (p et : BitVec 3) (rs : List Nat)
    (f : Nat → Stall → Nat → Bool) : Canonical (execCmp k t d p et rs f s) := by
  unfold execCmp
  exact issue_canonical hs fun _ _ => .ite (.setStall hs _ _) (illegal_canonical hs _ _)

theorem execCmpVV_canonical (k : EtSet) (t : Nat) (d a b : BitVec 5) (p et : BitVec 3) (f : Nat → Nat → Nat → Bool) :
    Canonical (execCmpVV k t d a b p et f s) := execCmp_canonical hs ..

theorem execCmpVA_canonical (t : Nat) (d a : BitVec 5) (p et : BitVec 3) (f : FVal → Bool) :
    Canonical (execCmpVA t d a p et f s) := execCmp_canonical hs ..

theorem execRed_canonical (o : RedOp) (t : Nat) (d a : BitVec 5) (p et : BitVec 3) : Canonical (execRed o t d a p et s) :=
  .ite (issue_canonical hs fun _ _ => .next (by simpa)) (issue_illegal_canonical hs ..)

theorem execP_canonical (ok : Bool) (t : Nat) (d : BitVec 5) (rs : List Nat) (f : Stall → BitVec 128) :
    Canonical (execP ok t d rs f s) := issue_canonical hs fun _ _ => .ite (.setStall hs _ _) (illegal_canonical hs _ _)

theorem execBranch_canonical (t : Nat) (a b : BitVec 5) (off : BitVec 15) (c : BitVec 64 → BitVec 64 → Bool) :
    Canonical (execBranch t a b off c s) := issue_canonical hs fun _ _ => .setStall hs _ _

/-! ### Loads, stores and atomics -/

theorem launch_canonical (t : Nat) (a : Access) (now : Stall → Stall) (x : Stall) : Canonical (launch t a now s x) := by
  refine .ite (.next ?_) (.ite (.next hs) (.setStall hs _ _))
  rw [State.setStall_mem]
  split
  · exact s.wf_writeAll _ hs
  · exact hs

theorem execLoad_canonical (t : Nat) (a : BitVec 5) (imm : BitVec 15) (n al : Nat) (signed : Bool) (dst : Option Nat) :
    Canonical (execLoad t a imm n al signed dst s) :=
  issue_canonical hs fun _ _ => .ite (.next (by simpa)) (launch_canonical hs ..)

theorem execStore_canonical (t : Nat) (rs : List Nat) (addr : Stall → Nat) (v : Stall → BitVec 1024)
    (mask : Stall → BitVec 128) (n al : Nat) : Canonical (execStore t rs addr v mask n al s) :=
  issue_canonical hs fun _ _ => .ite (.next (by simpa)) (launch_canonical hs ..)

theorem execStoreG_canonical (t : Nat) (d a : BitVec 5) (imm : BitVec 15) (n : Nat) :
    Canonical (execStoreG t d a imm n s) := execStore_canonical hs ..

theorem execAadd_canonical (st : Nat) (a b fn : BitVec 5) : Canonical (execAadd st a b fn s) := by
  unfold execAadd
  split
  · exact issue_illegal_canonical hs ..
  · exact issue_canonical hs fun _ _ => .ite (.next (by simpa)) (launch_canonical hs ..)

theorem execAcas_canonical (st : Nat) (d a b c : BitVec 5) : Canonical (execAcas st d a b c s) :=
  issue_canonical hs fun _ _ => .ite (.next (by simpa)) (launch_canonical hs ..)

theorem execLoadValueReturn_canonical (st k : Nat) : Canonical (execLoadValueReturn st k s) := .guard <| by
  have hnear : ∀ a, Memory.wf (s.performNear st k a).mem = true := State.wf_performNear hs st k
  dsimp only
  split
  · exact .next hs
  · refine .ite (.next hs) ?_
    split
    · exact .next (hnear _)
    · exact .ite (.ite (.setStall (hnear _) _ _) (.next (by simp [hs]))) (.setStall (hnear _) _ _)

theorem execAtomicAtHome_canonical (st k : Nat) : Canonical (execAtomicAtHome st k s) := .guard <| by
  dsimp only
  split
  · exact .next hs
  · split
    · exact .next hs
    · refine .ite (.ite (.next (by simp [hs])) ?_) (.next hs)
      split
      · exact .next hs
      · refine .ite (.next ?_) (.next hs)
        rw [State.mem_pass]
        exact State.wf_performAtomic (State.wf_decodeSector _ _ _ (by simpa)) ..

/-! ### Control operations and registers of a stall -/

theorem execCtl_canonical (t : Nat) (rs : List Nat) (m : Nat → Stall → Mesh) : Canonical (execCtl t rs m s) :=
  issue_canonical hs fun _ _ => .ite (.next hs) (.setStall hs _ _)

theorem execCtlG_canonical (t : Nat) (d : BitVec 5) (acquire : Stall → Bool) (rs : List Nat) (m : Nat → Stall → Mesh) :
    Canonical (execCtlG t d acquire rs m s) := issue_canonical hs fun _ _ => .ite (.next hs) (.next (by simpa))

theorem execSrd_canonical (st : Nat) (d : BitVec 5) (idx : BitVec 8) : Canonical (execSrd st d idx s) :=
  issue_canonical hs fun _ _ => by
  split
  · exact .next (by simpa)
  · exact illegal_canonical hs ..

theorem execSwr_canonical (st : Nat) (a : BitVec 5) (idx : BitVec 8) : Canonical (execSwr st a idx s) :=
  issue_canonical hs fun _ _ => by
  split
  · exact .next (by simpa)
  · exact illegal_canonical hs ..

theorem execEvdone_canonical (st : Nat) : Canonical (execEvdone st s) := issue_canonical hs fun _ _ => by
  split <;> exact .next (by simpa)

theorem execGetWork_canonical (st : Nat) (d c : BitVec 5) : Canonical (execGetWork st d c s) :=
  issue_canonical hs fun _ _ => .ite (.next hs) (.next (by simpa))

theorem execUcmd_canonical (st : Nat) (a b fn : BitVec 5) : Canonical (execUcmd st a b fn s) :=
  .ite (issue_illegal_canonical hs ..) (issue_canonical hs fun _ _ => .ite (.next hs) (.next (by simpa)))

theorem execVcvt_canonical (st : Nat) (d a b : BitVec 5) (p et : BitVec 3) (fn : BitVec 4) :
    Canonical (execVcvt st d a b p et fn s) := by
  unfold execVcvt
  split
  · exact issue_illegal_canonical hs ..
  · exact issue_canonical hs fun _ _ => .next (by simpa)

theorem execInvalidEncoding_canonical (st : Nat) (w : BitVec 32) : Canonical (execInvalidEncoding st w s) := by
  unfold execInvalidEncoding
  split
  · exact .guard (.next hs)
  · exact issue_illegal_canonical hs ..

theorem execFetchOutsideLocalMemory_canonical (st : Nat) : Canonical (execFetchOutsideLocalMemory st s) := .guard <| by
  split
  · exact .ite (.next (by simpa)) (.next hs)
  · exact .next hs

theorem execRequestEnterWindow_canonical (st k j : Nat) : Canonical (execRequestEnterWindow st k j s) := .guard <| by
  dsimp only
  split
  · exact .next hs
  · split
    · exact .next hs
    · exact .ite (.next hs) (.ite (.next (by simpa)) (.next (by simpa)))

theorem execSectorAccess_canonical (e k : Nat) (errs : List (Nat × BitVec 8)) : Canonical (execSectorAccess e k errs s) :=
  .guard <| by
  split
  · exact .next hs
  · refine .ite (.next hs) ?_
    split
    · exact .next (by simpa)
    · split
      · exact .next hs
      · split
        · exact .next (by simpa)
        · refine .ite (.next hs) (.next (State.wf_performPart ?_ ..))
          split
          · simpa
          · exact State.wf_decodeSector _ _ _ (by simpa)

end

end Sys2Proof.Machine
end
section
/-!
SUPPORT, for MemoryStaysCanonical: operations of the control mesh and the commands of sheds, matrix arrays, samplers, DMA
engines, row engines and HBM.
-/

namespace Sys2Proof.Machine

/-! ### Pushes -/

theorem Accept.KeepsMem.wf_ok {s t : State} {o : Accept} (h : o.KeepsMem s) (ho : o = .ok t) (hs : Memory.wf s.mem = true) :
    Memory.wf t.mem = true := by
  subst ho
  rwa [SameMem.mem h]

theorem Accept.KeepsMem.wf_wait {s t : State} {o : Accept} (h : o.KeepsMem s) (ho : o = .wait t)
    (hs : Memory.wf s.mem = true) : Memory.wf t.mem = true := by
  subst ho
  rwa [SameMem.mem h]

theorem State.keepsMem_pushPlain (s : State) (m : Mesh) (i : Nat) : (s.pushPlain m i).KeepsMem s := by
  unfold State.pushPlain
  split
  · exact s.keepsMem_pushMail ..
  · exact s.keepsMem_pushQueue ..
  · exact s.keepsMem_pushQueue ..

theorem State.keepsMem_offerDelayed (s : State) (sh : Nat) (d : Delayed) : (s.offerDelayed sh d).KeepsMem s := by
  unfold State.offerDelayed
  split
  · exact s.keepsMem_enqueue ..
  · exact s.keepsMem_enmail ..

theorem State.keepsMem_signal (s : State) (d : Desc) (handle : Nat) : (s.signal d handle).KeepsMem s := by
  have hpush := s.keepsMem_pushQueue (dIndex d.bits.toNat) kindHandle d.stall d.part (BitVec.ofNat 256 handle)
  unfold State.signal
  dsimp only
  split
  · exact ⟨s.mem_writeFlag ..⟩
  · split
    · exact ⟨s.mem_reportError ..⟩
    · exact hpush
  · exact .refl s

section
variable {s : State} (hs : Memory.wf s.mem = true)
include hs

theorem execControlIssue_canonical (st : Nat) : Canonical (execControlIssue st s) := .guard <| by
  have hpop : Memory.wf (s.popCtl st).mem = true := by simpa
  dsimp only
  split
  · exact .next hs
  · refine .ite (.next hs) (.ite (.next hpop) (.ite (.next (by simpa)) ?_))
    split
    · exact .next (by simpa)
    · refine .ite (.next (by simpa)) ?_
      split
      · next hsend => exact .next (by rwa [State.mem_of_sendOp hsend])
      · exact .next hs
    · exact .next hpop
    · refine .ite (.next hpop) ?_
      split
      · next hpush => exact .next ((State.keepsMem_pushPlain _ _ _).wf_ok hpush hpop)
      · exact .next (by simpa)
      · split
        · next hpush => exact .next ((State.keepsMem_pushPlain _ _ _).wf_wait hpush hs)
        · exact .next hs

/-! ### Operations on the control mesh -/

theorem onMesh_canonical {k : Nat} {ok : Mesh → Bool} {f : State → Mesh → Out1}
    (h : ∀ u m, Memory.wf u.mem = true → Canonical (f u m)) : Canonical (onMesh k ok s f) := by
  unfold onMesh
  split
  · exact .next hs
  · exact .ite (h _ _ hs) (.next hs)

theorem execWatchArm_canonical (k : Nat) : Canonical (execWatchArm k s) := onMesh_canonical hs fun u m hu => by
  refine .ite (.ite (.next (by simpa)) ?_) ?_
  · dsimp only
    split
    · exact .next (by simpa)
    · next t harm =>
      have ht : Memory.wf t.mem = true := by rwa [State.mem_of_arm _ _ _ harm, State.mem_giveWid]
      refine .next ?_
      rw [State.mem_reply]
      split
      · simpa
      · exact ht
  · dsimp only
    split
    · exact .next (by simpa)
    · next harm => exact .next (by simpa [State.mem_of_arm _ _ _ harm])

theorem execWatchCancel_canonical (k : Nat) : Canonical (execWatchCancel k s) := by
  unfold execWatchCancel
  split
  · exact .next hs
  · next m _ =>
    refine .ite (.next hs) ?_
    extract_lets u fabric r
    have hr : ∀ t, r = some t → t.mem = u.mem := by
      intro t ht
      unfold r at ht
      split at ht
      · exact State.mem_of_undoWatch ht
      · split at ht
        · exact State.mem_of_disarm ht
        · split at ht
          · have hsend := State.mem_of_sendOp ht
            exact hsend
          · cases ht
            exact State.mem_reply ..
    clear_value r
    cases r with
    | none => exact .next hs
    | some t => exact .next (by rwa [hr t rfl])

theorem execPenOperation_canonical (k : Nat) : Canonical (execPenOperation k s) := by
  unfold execPenOperation
  split
  · exact .next hs
  · refine .ite (.next hs) (.ite (.next (by simpa)) (.ite (.next (by simpa)) (.ite ?_ ?_)))
    · split
      · next hwatch => exact .next (by rwa [State.mem_of_penWatch hwatch])
      · exact .next hs
    · dsimp only
      split
      · next hall =>
        refine .next ?_
        rw [State.mem_giveTag, State.mem_of_forwardAll hall]
        exact hs
      · exact .next hs

theorem execPenSubwatchReport_canonical (k : Nat) : Canonical (execPenSubwatchReport k s) :=
  onMesh_canonical hs fun u m hu => by
  split
  · exact .next hu
  · dsimp only
    split
    · exact .ite (.next (by simpa)) (.next (by simpa))
    · exact .ite (.next hu) (.ite (.next (by simpa)) (.next (by simpa)))
    · exact .next hu

theorem arrive_canonical {k : Nat} {ok : Mesh → Bool} {full : State → Mesh → Bool} {enter : State → Mesh → State}
    (h : ∀ u m, (enter u m).mem = u.mem) : Canonical (arrive k ok full enter s) := by
  unfold arrive
  split
  · exact .next hs
  · exact .ite (.next hs) (.next (by rwa [State.mem_reply, h]))

theorem mxArrive_canonical (op k : Nat) : Canonical (mxArrive op k s) := arrive_canonical hs fun u m => by
  dsimp only
  split
  · rfl
  · split <;> simp

theorem saArrive_canonical (ok : Nat → Bool) (k : Nat) : Canonical (saArrive ok k s) := arrive_canonical hs fun u m => by
  dsimp only
  split <;> simp

theorem reArrive_canonical (ok : Nat → Bool) (k : Nat) : Canonical (reArrive ok k s) := arrive_canonical hs fun u m => by
  dsimp only
  split <;> simp

theorem dmArrive_canonical (ok : Nat → Bool) (k : Nat) : Canonical (dmArrive ok k s) := arrive_canonical hs fun u m => by
  dsimp only
  split <;> simp

/-! ### Sheds -/

theorem execDelayEntryDue_canonical (sh k : Nat) : Canonical (execDelayEntryDue sh k s) := .guard <| by
  dsimp only
  split
  · exact .next hs
  · refine .ite (.next hs) ?_
    split
    · next hoffer =>
      refine .next ?_
      rw [State.mem_modShed]
      exact (s.keepsMem_offerDelayed ..).wf_ok hoffer hs
    · next hoffer => exact .next ((s.keepsMem_offerDelayed ..).wf_wait hoffer hs)
    · exact .next hs

theorem execDispatch_canonical (sh : Nat) : Canonical (execDispatch sh s) := .guard <| .ite (.next hs) <| by
  dsimp only
  split
  · exact .next (by simpa)
  · exact .next hs

/-! ### Matrix arrays -/

theorem execMxaCommandStart_canonical (sh : Nat) : Canonical (execMxaCommandStart sh s) := .guard <| by
  dsimp only
  split
  · exact .next hs
  · next d rest _ =>
    refine .ite (.next hs) ?_
    have hu : Memory.wf ((s.modMxa sh (fun m => { m with queue := rest })).touch sh).mem = true := by simpa
    generalize (s.modMxa sh (fun m => { m with queue := rest })).touch sh = u at hu ⊢
    split
    · exact .ite (.next (by simpa)) (.next (by simpa))
    · split
      · exact .ite (.next (by simpa)) (.next (by simpa using State.wf_runDrain hu ..))
      · exact .next (by simpa)
    · exact .next (by simpa)
    · split
      · exact .next (by simpa using State.wf_runStream hu ..)
      · exact .next (by simpa)

theorem execStreamRowFinal_canonical (sh : Nat) (tileB : Bool) : Canonical (execStreamRowFinal sh tileB s) := .guard <| by
  split
  · exact .ite (.next (by simpa)) (.next hs)
  · exact .next hs

theorem execMxaCommandComplete_canonical (sh eng : Nat) : Canonical (execMxaCommandComplete sh eng s) := .guard <| by
  dsimp only
  split
  · exact .next hs
  · refine .ite (.next hs) ?_
    split
    · next hsignal =>
      have ht := (s.keepsMem_signal ..).wf_wait hsignal hs
      exact .next (by simpa)
    · exact .next hs
    · next hsignal =>
      have ht := (s.keepsMem_signal ..).wf_ok hsignal hs
      refine .next ?_
      rw [State.mem_touch]
      split <;> simpa

/-! ### Samplers -/

theorem execSamplerDescriptorStart_canonical (sh : Nat) : Canonical (execSamplerDescriptorStart sh s) := .guard <| by
  dsimp only
  split
  · exact .next hs
  · next d rest _ =>
    have hu : Memory.wf ((s.modSampler sh (fun x => { x with queue := rest })).touch sh).mem = true := by simpa
    generalize (s.modSampler sh (fun x => { x with queue := rest })).touch sh = u at hu ⊢
    refine .ite (.next hs) (.ite ?_ ?_)
    · split
      · exact .next hs
      · next hrun =>
        have hdone := (safe_saWork _ _ (safe_scoreWork ..)).run hrun hu
        exact .next (by simpa using hdone)
      · next hrun =>
        have hdone := (safe_saWork _ _ (safe_scoreWork ..)).run hrun hu
        exact .next (by simpa using hdone)
    · split
      · refine .ite ?_ (.next (by simpa))
        split
        · exact .next hs
        · next hrun =>
          have hdone := (safe_saWork _ _ (.pure _)).run hrun (by simpa)
          exact .next (by simpa using hdone)
        · next hrun =>
          have hdone := (safe_saWork _ _ (.pure _)).run hrun (by simpa)
          exact .next (by simpa using hdone)
      · split
        · exact .next hs
        · next hrun =>
          have hdone := (safe_saWork _ _ (safe_sampleWork ..)).run hrun (by simpa)
          exact .next (by simpa using hdone)
        · next hrun =>
          have hdone := (safe_saWork _ _ (safe_sampleWork ..)).run hrun (by simpa)
          exact .next (by simpa using hdone)

theorem execSamplerDescriptorComplete_canonical (sh : Nat) : Canonical (execSamplerDescriptorComplete sh s) := .guard <| by
  split
  · exact .next hs
  · dsimp only
    split
    · next hsignal => exact .next ((s.keepsMem_signal ..).wf_wait hsignal hs)
    · exact .next hs
    · next hsignal =>
      have ht := (s.keepsMem_signal ..).wf_ok hsignal hs
      exact .next (by simpa)

theorem execRunaheadCompute_canonical (sh : Nat) : Canonical (execRunaheadCompute sh s) := .guard <| by
  split
  · exact .next hs
  · dsimp only
    split
    · exact .next hs
    · next hrun =>
      have hdone := (safe_sampleWork ..).run hrun hs
      exact .next (by simpa using hdone)
    · next hrun =>
      have hdone := (safe_sampleWork ..).run hrun hs
      exact .ite (.next (by simpa using hdone)) (.next (by simpa using hdone))

/-! ### DMA engines -/

omit hs in
/-- The packets of a transaction are sent. -/
theorem State.mem_emitAll (u : State) (t : Nat) (ps : List Packet) :
    (ps.foldl (fun s k => s.emit (withTag t k)) u).mem = u.mem :=
  (SameMem.foldl (fun v k => ⟨v.mem_emit (withTag t k)⟩) ps u).mem

theorem execDmaDescriptorStart_canonical (sh : Nat) : Canonical (execDmaDescriptorStart sh s) := .guard <| by
  dsimp only
  split
  · exact .next hs
  · next d rest _ =>
    have hu : Memory.wf ((s.modDma sh (fun x => { x with queue := rest })).touch sh).mem = true := by simpa
    generalize (s.modDma sh (fun x => { x with queue := rest })).touch sh = u at hu ⊢
    refine .ite (.next hs) (.ite ?_ ?_)
    · split
      · next hrun =>
        have hdone := (safe_copyPackets ..).run hrun hu
        refine .ite (.next (by simpa using hdone)) (.ite (.next (by simpa using hdone)) (.next ?_))
        rwa [State.mem_modDma, State.mem_emitAll, State.mem_holdTag]
      · next hrun =>
        have hdone := (safe_copyPackets ..).run hrun hu
        exact .next (by simpa using hdone)
      · exact .next hs
    · split
      · next hrun =>
        have hdone := UM.Safe.run (by
          split
          · exact safe_copyWork ..
          · exact safe_compressWork ..
          · exact safe_expandWork ..) hrun hu
        exact .next (by simpa using hdone)
      · next hrun =>
        have hdone := UM.Safe.run (by
          split
          · exact safe_copyWork ..
          · exact safe_compressWork ..
          · exact safe_expandWork ..) hrun hu
        exact .next (by simpa using hdone)
      · exact .next hs

theorem execDmaDescriptorComplete_canonical (sh : Nat) : Canonical (execDmaDescriptorComplete sh s) := .guard <| by
  split
  · exact .next hs
  · refine .ite (.next hs) (.ite (.next (by simpa)) ?_)
    dsimp only
    split
    · next hsignal =>
      have ht := (State.keepsMem_signal ..).wf_ok hsignal (by simpa)
      exact .next (by simpa)
    · next hsignal =>
      have ht := (State.keepsMem_signal ..).wf_wait hsignal (by simpa)
      exact .next (by simpa)
    · exact .next hs

/-! ### Row engines -/

theorem execRowDescriptorStart_canonical (e p : Nat) : Canonical (execRowDescriptorStart e p s) := .guard <| by
  split
  · exact .next (by simp [hs])
  · split
    · exact .next hs
    · next d rest _ =>
      refine .next ?_
      cases hstart : (s.setRowQueue e p rest).rowStart e p d with
      | none => exact hs
      | some t => exact State.wf_of_rowStart hstart (by simpa)

theorem execRowDescriptorComplete_canonical (e p : Nat) : Canonical (execRowDescriptorComplete e p s) := .guard <| by
  split
  · exact .next hs
  · refine .ite (.next (by simpa)) (.ite (.next (by simpa)) ?_)
    dsimp only
    split
    · next hsignal => exact .next ((s.keepsMem_signal ..).wf_wait hsignal hs)
    · exact .next hs
    · next hsignal =>
      have ht := (s.keepsMem_signal ..).wf_ok hsignal hs
      exact .next (by simpa [State.mem_setRcur])

theorem execMigrateCopy_canonical (e p : Nat) : Canonical (execMigrateCopy e p s) := .guard <| by
  split
  · exact .next hs
  · refine .ite (.next hs) ?_
    split
    · exact .next hs
    · next hrun =>
      have hdone := (safe_migrateEntry ..).run hrun hs
      refine .next ?_
      rw [State.mem_rowEnd, State.mem_rowSend]
      split <;> simpa using hdone

/-! ### HBM -/

theorem execPrefetchHint_canonical (k : Nat) : Canonical (execPrefetchHint k s) := by
  unfold execPrefetchHint
  split
  · exact .next hs
  · refine .ite (.next hs) (.ite (.next hs) (.ite (.next hs) (.next ?_)))
    rw [State.mem_modEngine, State.mem_pass]
    exact State.wf_decodeSector _ _ _ hs

theorem execRefresh_canonical (k ch pc : Nat) (postpone : Bool) : Canonical (execRefresh k ch pc postpone s) :=
  .guard <| .ite (.next hs) <| .ite (.ite (.next (by simpa)) (.next hs)) <|
    .ite (.next (by simpa)) (.ite (.next (by simpa)) (.next hs))

theorem execRecalibration_canonical (k ch : Nat) : Canonical (execRecalibration k ch s) := .guard <| .ite (.next hs) <|
  .next <| by
  rw [State.mem_modHbm]
  split <;> simpa

theorem execPatrolScrub_canonical (k : Nat) (errs : List (Nat × BitVec 8)) : Canonical (execPatrolScrub k errs s) :=
  .guard <| .ite (.next hs) <| .next <| by
  rw [State.mem_modHbm]
  exact State.wf_decodeSector _ _ _ (by simpa)

theorem execFrameClearing_canonical (y f : Nat) : Canonical (execFrameClearing y f s) :=
  .guard <| .ite (.next hs) <| .next <| by
  rw [State.setFrame_mem]
  exact State.wf_wipe _ _ _ (State.wf_foldl (fun u c hu => by rwa [State.mem_useSlot]) _ hs)

end

end Sys2Proof.Machine
end
section
/-!
SUPPORT, for MemoryStaysCanonical: Llyn ports, packets, collectives, training steps and mirrors.
-/

namespace Sys2Proof.Machine

/-! ### Meanings that may have to wait -/

/-- A state whose memory is in its canonical form, or none. -/
structure MaybeCanonical (o : Option State) : Prop where
  wf : ∀ t, o = some t → Memory.wf t.mem = true

theorem MaybeCanonical.some {t : State} (h : Memory.wf t.mem = true) : MaybeCanonical (.some t) :=
  ⟨fun _ ht => Option.some.inj ht ▸ h⟩

theorem MaybeCanonical.none : MaybeCanonical .none := ⟨fun _ ht => by simp at ht⟩

theorem MaybeCanonical.ite {c : Prop} [Decidable c] {a b : Option State} (ha : MaybeCanonical a) (hb : MaybeCanonical b) :
    MaybeCanonical (if c then a else b) := by
  split
  · exact ha
  · exact hb

theorem MaybeCanonical.ifOpen (s : State) {t : State} (h : Memory.wf t.mem = true) : MaybeCanonical (s.ifOpen t) :=
  .ite (.some h) .none

theorem MaybeCanonical.getD {o : Option State} (h : MaybeCanonical o) {s : State} (hs : Memory.wf s.mem = true) :
    Memory.wf (o.getD s).mem = true := by
  cases o with
  | none => exact hs
  | some t => exact h.wf t rfl

section
variable {s : State} (hs : Memory.wf s.mem = true)
include hs

/-! ### Llyn ports -/

theorem execFlitSend_canonical (k : Nat) : Canonical (execFlitSend k s) := .guard <| .ite (.next hs) (.next (by simpa))

theorem execFlitReceive_canonical (k : Nat) (flit : BitVec 2048 × Nat × Nat) : Canonical (execFlitReceive k flit s) := by
  refine .guard (.ite (.next hs) ?_)
  extract_lets u b l v w x
  have hv : Memory.wf v.mem = true := by simpa [v, u]
  clear_value v
  have hw : Memory.wf w.mem = true := by
    unfold w
    split
    · exact hv
    · split <;> simpa
  clear_value w
  have hx : Memory.wf x.mem = true := by
    unfold x
    split <;> simpa
  refine .ite (.next (by simpa [u])) (.ite (.next (by simpa [u])) (.next ?_))
  split <;> simpa

theorem execReplayTimeout_canonical (k : Nat) : Canonical (execReplayTimeout k s) := .guard <| by
  dsimp only
  split
  · exact .next hs
  · exact .ite (.next (by simpa)) (.next hs)

theorem execTrainingAttempt_canonical (k : Nat) (ok : Bool) (partner pport : Nat) :
    Canonical (execTrainingAttempt k ok partner pport s) :=
  .guard <| .ite (.next hs) <| .ite (.next (by simpa)) (.next (by simpa))

theorem execFlowMoveBack_canonical (k : Nat) : Canonical (execFlowMoveBack k s) :=
  .guard <| .ite (.next hs) <| .next (State.wf_foldl (fun u j hu => by rwa [State.mem_reroute]) _ (by simpa))

theorem execTimeExchange_canonical (k sent : Nat) (far : Nat × Nat) : Canonical (execTimeExchange k sent far s) :=
  .guard <| .ite (.next hs) <| .ite (.next (by simpa)) (.next (by simpa))

/-! ### Packets -/

theorem onPacket_canonical {k j : Nat} {ok : Nat → Bool} {f : State → Arrived → Option State}
    (h : ∀ u e, Memory.wf u.mem = true → MaybeCanonical (f u e)) : Canonical (onPacket k j ok s f) := .guard <| by
  split
  · exact .next hs
  · exact .next ((h _ _ (by simpa)).getD hs)

theorem onPush_canonical {k j : Nat} {ok : Nat → Bool} {f : State → Arrived → Accept}
    (h : ∀ u e, (f u e).KeepsMem u) : Canonical (onPush k j ok s f) := .guard <| by
  split
  · exact .next hs
  · split
    · next hok =>
      have ht := (h _ _).wf_ok hok hs
      refine .next ?_
      split <;> simpa
    · exact .next hs
    · exact .next hs

theorem onResponse_canonical {k j : Nat} {ok : Nat → Bool} {f : State → Packet → State}
    (h : ∀ u p, Memory.wf u.mem = true → Memory.wf (f u p).mem = true) : Canonical (onResponse k j ok s f) :=
  onPacket_canonical hs fun u e hu => .some <| by
  split
  · simpa
  · exact h u _ hu

theorem execPktWrite_canonical (k j : Nat) : Canonical (execPktWrite k j s) := onPacket_canonical hs fun u e hu => by
  refine .ite (.some (by simpa)) (.ite (.some (by simpa)) ?_)
  split
  · exact .ite (.some (by simpa)) .none
  · have hland := State.wf_landData hu
    refine .ifOpen u ?_
    split <;> simp [hland]

theorem execPktRead_canonical (k j : Nat) : Canonical (execPktRead k j s) := onPacket_canonical hs fun u e hu => by
  refine .ite (.some (by simpa)) ?_
  split
  · exact .ite (.some (by simpa)) .none
  · split
    · exact .none
    · next hrun =>
      have hdone := (safe_servedRead ..).run hrun hu
      exact .some (by simpa using hdone)
    · next hrun =>
      have hdone := (safe_servedRead ..).run hrun hu
      exact .some (by simpa using hdone)

theorem execPktRowAtomic_canonical (k j : Nat) : Canonical (execPktRowAtomic k j s) := onPacket_canonical hs fun u e hu => by
  refine .ite (.some (by simpa)) ?_
  split
  · exact .ite (.some (by simpa)) .none
  · split
    · exact .none
    · next hrun =>
      have hdone := (safe_servedAdd ..).run hrun hu
      exact .some (by simpa using hdone)
    · next hrun => exact .some ((safe_servedAdd ..).run hrun hu)
    · next hrun =>
      have hdone := (safe_servedAdd ..).run hrun hu
      exact .some (by simpa using hdone)

theorem execFlagSetPacket_canonical (k j : Nat) : Canonical (execFlagSetPacket k j s) :=
  onPacket_canonical hs fun u e hu => .ite (.some (by simpa)) (.ite (.some (by simpa)) (.ite .none (.some hu)))

omit hs in
theorem State.keepsMem_pushRemote (s : State) (h : Nat) (m : Mesh) (i : Nat) : (s.pushRemote h m i).KeepsMem s := by
  unfold State.pushRemote
  dsimp only
  split
  · exact s.keepsMem_pushQueue ..
  · exact s.keepsMem_pushPlain ..

omit hs in
theorem State.keepsMem_remotePush (s : State) (k : Nat) (e : Arrived) (m : Mesh) : (s.remotePush k e m).KeepsMem s := by
  unfold State.remotePush
  dsimp only
  split
  · exact ⟨s.mem_nack ..⟩
  · split
    · next i _ =>
      have hpush := s.keepsMem_pushRemote e.pkt.h m i
      split
      · exact .refl s
      · split
        · exact ⟨s.mem_nack ..⟩
        · next heq =>
          rw [heq] at hpush
          exact SameMem.trans hpush ⟨State.mem_accepted ..⟩
        · exact hpush
    · exact ⟨rfl⟩

theorem execMessageEvpush_canonical (k j : Nat) : Canonical (execMessageEvpush k j s) := onPush_canonical hs fun u e => by
  dsimp only
  split
  · exact ⟨u.mem_nack ..⟩
  · split
    · exact ⟨rfl⟩
    · exact u.keepsMem_remotePush ..

theorem execMessageHpush_canonical (k j : Nat) : Canonical (execMessageHpush k j s) := onPush_canonical hs fun u e => by
  dsimp only
  split
  · exact ⟨u.mem_nack ..⟩
  · exact u.keepsMem_remotePush ..

theorem execMessageSend_canonical (k j : Nat) : Canonical (execMessageSend k j s) := onPush_canonical hs fun u e => by
  dsimp only
  split
  · exact ⟨u.mem_nack ..⟩
  · exact u.keepsMem_remotePush ..

theorem execPktReadResp_canonical (k j : Nat) : Canonical (execPktReadResp k j s) := onResponse_canonical hs fun u p hu => by
  dsimp only
  split
  · simpa
  · split
    · exact State.wf_failTag hu ..
    · split
      · split
        · exact hu
        · exact State.wf_endRow (by simpa) ..
      · simpa

theorem execMessageResult_canonical (k j : Nat) : Canonical (execMessageResult k j s) :=
  onResponse_canonical hs fun u p hu => by
  dsimp only
  split
  · simpa
  · split
    · simpa
    · split
      · rw [State.mem_reply]
        split
        · split <;> simpa
        · simpa
      · simpa

theorem execMessageAck_canonical (k j : Nat) : Canonical (execMessageAck k j s) := onResponse_canonical hs fun u p hu => by
  dsimp only
  split
  · simpa
  · split
    · exact State.wf_endRow (by simpa) ..
    · simpa
    · split
      · split <;> simpa
      · simpa
    · simpa

theorem execMessageNack_canonical (k j : Nat) : Canonical (execMessageNack k j s) := onResponse_canonical hs fun u p hu => by
  dsimp only
  split
  · simpa
  · split
    · exact State.wf_failTag hu ..
    · split <;> simpa

theorem execMgmtRequest_canonical (k j : Nat) : Canonical (execMgmtRequest k j s) := .guard <| by
  split
  · exact .next hs
  · exact .ite (.next (by simpa)) (.ite (.next (by simpa)) (.next (by simpa)))

theorem execFlagOnLastTrailer_canonical (k : Nat) : Canonical (execFlagOnLastTrailer k s) := by
  unfold execFlagOnLastTrailer
  split
  · exact .next hs
  · split
    · exact .next hs
    · refine .ite (.next hs) ?_
      dsimp only
      split
      · exact .next (by simpa)
      · exact .next (by simpa)
      · split
        · next hpush =>
          have ht := (State.keepsMem_pushQueue ..).wf_ok hpush hs
          exact .next (by simpa)
        · next hpush =>
          have ht := (State.keepsMem_pushQueue ..).wf_wait hpush hs
          exact .next (by simpa)
        · exact .next (by simpa)
      · exact .next (by simpa)

theorem execTransactionTimeout_canonical (tag : Nat) : Canonical (execTransactionTimeout tag s) := by
  unfold execTransactionTimeout
  split
  · exact .next hs
  · exact .ite (.next hs) (.next (State.wf_failTag hs ..))

/-! ### Collectives -/

theorem execCollectiveStart_canonical (p n : Nat) : Canonical (execCollectiveStart p n s) :=
  .guard <| .ite (.next hs) <|
    .next ((MaybeCanonical.ifOpen s (State.wf_beginInstance (by rwa [State.mem_writeFlag]) ..)).getD hs)

theorem execCollectiveContribution_canonical (k j : Nat) : Canonical (execCollectiveContribution k j s) :=
  onPacket_canonical hs fun u e hu =>
    .ite (.some (by simpa)) <| .ite (.some (by simpa)) <| .ite (.some (by simpa)) <|
      .ite (.ifOpen u (State.wf_bufferContrib hu ..))
        (.ifOpen u (State.wf_endShard (State.wf_drainTurns _ (State.wf_takeContrib hu ..) ..) ..))

theorem execCollectiveResult_canonical (k j : Nat) : Canonical (execCollectiveResult k j s) :=
  onPacket_canonical hs fun u e hu =>
    .ite (.some (by simpa)) <| .ite (.some (by simpa)) <| .ite (.some (by simpa)) <|
      .ite (.ifOpen u (State.wf_endInstance (State.wf_chainResult hu ..) ..))
        (.ifOpen u (State.wf_endInstance (by simp [hu]) ..))

theorem execCollectiveChainSum_canonical (k j : Nat) : Canonical (execCollectiveChainSum k j s) :=
  onPacket_canonical hs fun u e hu =>
    .ite (.some (by simpa)) <| .ite (.some (by simpa)) <| .ite (.some (by simpa)) <|
      .ite (.ifOpen u (State.wf_endInstance (State.wf_takeChain hu ..) ..)) <|
      .ite (.ifOpen u (State.wf_bufferChain hu ..)) (.some (by simpa))

theorem execCollectiveSidecar_canonical (k j : Nat) : Canonical (execCollectiveSidecar k j s) :=
  onPacket_canonical hs fun u e hu =>
    .ite (.some (by simpa)) <| .ite (.ifOpen u (State.wf_endInstance (State.wf_takeSide hu ..) ..)) <|
      .ite (.some (by simpa)) (.some (by simpa))

/-! ### Training -/

theorem execVstartDetected_canonical (p : Nat) : Canonical (execVstartDetected p s) := .guard <| by
  dsimp only
  split
  · exact .next hs
  · exact .ite (.next hs) (.next (by simpa))

theorem execRegionScan_canonical (p : Nat) : Canonical (execRegionScan p s) := by
  refine .guard ?_
  extract_lets c t others r u1 u2 c0 u3 d u4 u5 u6
  have h2 : Memory.wf u2.mem = true := by
    unfold u2
    split
    · rw [State.mem_reportError]
      exact State.wf_scan hs p
    · exact State.wf_scan hs p
  clear_value u2
  have h3 : Memory.wf u3.mem = true := State.wf_foldl (fun v n hv => by rwa [State.mem_modPlan]) _ h2
  clear_value u3
  have h5 : Memory.wf u5.mem = true := by
    rw [show u5.mem = u4.mem from State.mem_modTrain ..]
    exact State.wf_poke _ _ _ _ h3
  clear_value u5
  have h6 : Memory.wf u6.mem = true := by
    unfold u6
    split <;> simpa
  exact .ite (.next hs) (.ite (.next (by simpa)) (.next (MaybeCanonical.getD (.ifOpen s h6) hs)))

theorem execVerdict_canonical (p : Nat) : Canonical (execVerdict p s) := by
  refine .guard ?_
  extract_lets c x step
  split
  · exact .next hs
  · next t rest _ =>
    extract_lets u1
    have h1 : Memory.wf u1.mem = true := by simpa [u1]
    clear_value u1
    refine .ite (.next hs) ?_
    split
    extract_lets ls opt u2 u3 u4 u5 u6 u7
    have h4 : Memory.wf u4.mem = true := by
      rwa [show u4.mem = u3.mem from State.mem_modTrain .., show u3.mem = u2.mem from State.setObj_mem ..,
        show u2.mem = u1.mem from State.setObj_mem ..]
    clear_value u4
    have h5 : Memory.wf u5.mem = true := by
      unfold u5
      split <;> simpa
    clear_value u5
    have h6 : Memory.wf u6.mem = true := by
      unfold u6
      split <;> simpa
    clear_value u6
    exact .next (by simpa [u7])

theorem execStepBoundary_canonical (p : Nat) : Canonical (execStepBoundary p s) := by
  refine .guard ?_
  extract_lets c x done commit ts step moves u1 u2 u3 flips u4 u5 u6 u7 u8 u9
  have h1 : Memory.wf u1.mem = true := by
    unfold u1
    split <;> simpa
  clear_value u1
  have h2 : Memory.wf u2.mem = true := by
    unfold u2
    split <;> simpa
  clear_value u2
  have h3 : Memory.wf u3.mem = true := by
    unfold u3
    split <;> simpa
  clear_value u3
  have h4 : Memory.wf u4.mem = true := State.wf_foldl (fun v t hv => by rwa [State.mem_requestSwitch]) _ h3
  clear_value u4
  have h5 : Memory.wf u5.mem = true := by
    unfold u5
    split <;> simpa
  clear_value u5
  have h6 : Memory.wf u6.mem = true := by
    unfold u6
    split <;> simpa
  clear_value u6
  have h8 : Memory.wf u8.mem = true := by
    unfold u8
    split <;> simpa [u7]
  clear_value u8
  exact .ite (.next hs) (.ite (.next (by simpa)) (.next (by simpa [u9])))

theorem execAltFreeSet_canonical (p : Nat) : Canonical (execAltFreeSet p s) := .guard <| by
  dsimp only
  split
  · exact .next hs
  · exact .ite (.next hs) (.next (by simpa))

theorem execMirrorStart_canonical (p : Nat) : Canonical (execMirrorStart p s) := .guard <| by
  refine .ite (.ite (.next hs) ?_) (.ite (.next hs) ?_)
  · dsimp only
    split
    · next hsend =>
      refine .next ?_
      rw [State.mem_of_mirrorSend hsend]
      simpa
    · exact .next hs
  · split
    · exact .next hs
    · next d _ =>
      dsimp only
      split
      · next t hsend =>
        obtain ⟨w, hzero, hopen⟩ := Option.bind_eq_some_iff.mp hsend
        have hw : Memory.wf w.mem = true := by
          rw [State.mem_of_mirrorZero hzero, State.mem_modMirror]
          exact State.wf_foldl (fun u r hu => State.wf_peek hu ..) _ hs
        exact .next ((MaybeCanonical.ifOpen s hw).wf t hopen)
      · exact .next hs

theorem execMirrorCommit_canonical (p : Nat) : Canonical (execMirrorCommit p s) := by
  refine .guard (.ite (.next hs) (.ite ?_ (.ite (.next (by simpa)) (.next hs))))
  split
  · next hsend =>
    refine .next ?_
    rw [State.mem_of_mirrorSend hsend]
    simpa
  · exact .next hs

theorem execMirrorFailed_canonical (p : Nat) : Canonical (execMirrorFailed p s) := .guard <| .ite (.next hs) <| by
  dsimp only
  split
  · next hzero =>
    refine .next ?_
    rw [State.mem_of_mirrorZero hzero]
    simpa
  · exact .next hs

end

end Sys2Proof.Machine
end
section
/-!
SUPPORT, for MemoryStaysCanonical: the dictionary, the host port, seasons, power and clocks.
-/

namespace Sys2Proof.Machine

section
variable {s : State} (hs : Memory.wf s.mem = true)
include hs

/-! ### The dictionary -/

theorem State.serve_canonical (k : Service) : Canonical (s.serve k) := by
  unfold State.serve
  split
  · exact .next hs
  · refine .ite (.next hs) ?_
    extract_lets u
    have hu : Memory.wf u.mem = true := by rwa [State.expireLeases_mem, State.taken_mem]
    clear_value u
    split
    · exact .next (by simpa)
    · refine .next ?_
      rw [State.mem_answer]
      exact u.wf_perform hu ..

theorem execMgmtDatagram_canonical (src port : Nat) (data : List (BitVec 8)) :
    Canonical (execMgmtDatagram src port data s) := by
  refine .ite (.next hs) (.ite (.next (by simpa)) ?_)
  split
  · exact .next (by simpa)
  · exact .ite (.next (by simpa)) (.next hs)

/-! ### The host port -/

theorem execMmioRegisterWrite_canonical (fn off : Nat) (val : List (BitVec 8)) :
    Canonical (execMmioRegisterWrite fn off val s) :=
  .guard <| .ite (.next hs) <| .next <|
    State.wf_foldl (fun _ _ hu => by rwa [State.mem_writeBar0Byte]) _
      (State.wf_foldl (fun _ _ hu => by rwa [State.mem_writeBell]) _ hs)

theorem execBar4Access_canonical (fn : Nat) (write : Bool) (off len : Nat) (data : List (BitVec 8)) :
    Canonical (execBar4Access fn write off len data s) := .guard <| .ite (.next hs) <| by
  split
  · exact .next (by simpa)
  · refine .ite (.next hs) (.next ((MaybeCanonical.ifOpen s ?_).getD hs))
    split
    · exact State.wf_bar4Write hs ..
    · exact State.wf_bar4Read hs ..

theorem execEntryFetch_canonical (p : Nat) (entry : BitVec 512) : Canonical (execEntryFetch p entry s) := .guard <| by
  dsimp only
  split
  · exact .ite (.next (by simpa)) (.next hs)
  · exact .ite (.next (by simpa)) (.next hs)

theorem execCompletionWrite_canonical (p : Nat) : Canonical (execCompletionWrite p s) :=
  .guard <| .ite (.next hs) <| by
  split
  · exact .next (by simpa)
  · exact .next (by simpa)
  · split
    · exact .next (by simpa)
    · exact .next hs

theorem execMsixRaise_canonical (p : Nat) : Canonical (execMsixRaise p s) := .guard <| .ite (.next hs) <| .next <| by
  split <;> simpa

/-! ### Loads and partitions -/

/-- What the loader reads of memory after the checks may fill caches and correct errors, but leaves the form. -/
theorem State.wf_readAll (p : Nat) (l : List (Nat × Nat)) :
    Memory.wf (l.foldl (fun u a => (u.peek p a.1 a.2).2) s).mem = true :=
  State.wf_foldl (fun _ _ hu => State.wf_peek hu ..) _ hs

theorem execLoadEnd_canonical (p : Nat) : Canonical (execLoadEnd p s) := by
  refine .guard (.ite (.next hs) ?_)
  extract_lets u
  have hu : Memory.wf u.mem = true := State.wf_fetchImage hs p
  clear_value u
  refine .next ((MaybeCanonical.ifOpen s ?_).getD hs)
  split
  · next hload => exact State.wf_loadDone (State.wf_readAll (State.wf_of_load hu hload) ..) ..
  · rwa [State.mem_loadFailed]

theorem execPartitionStopped_canonical (p : Nat) : Canonical (execPartitionStopped p s) :=
  .guard <| .ite (.next hs) <| .next (by simpa)

/-! ### Flash and seasons -/

theorem execPersistCommit_canonical : Canonical (execPersistCommit s) := by
  unfold execPersistCommit
  split
  · exact .ite (.next (by simpa)) (.next hs)
  · exact .next hs

theorem execSafeEnd_canonical (endOfStep ok : Bool) (mask : Nat) : Canonical (execSafeEnd endOfStep ok mask s) := by
  unfold execSafeEnd
  extract_lets x failed u1 u2
  have h1 : Memory.wf u1.mem = true := by
    unfold u1
    split <;> simpa
  clear_value u1
  have h2 : Memory.wf u2.mem = true := by
    unfold u2
    split <;> simpa
  clear_value u2
  split
  · exact .ite (.ite (.next (State.wf_enterAutumn hs _)) (.next hs)) <| .ite (.next hs) <|
      .ite (.next (State.wf_enterAutumn h1 _)) <| .ite (.next h1) <| .ite (.next (by simpa)) <|
      .ite (.next (by simpa)) (.next (by simpa))
  · exact .ite (.ite (.next (State.wf_enterAutumn hs _)) (.next hs)) <|
      .ite (.ite (.next hs) (.ite (.next (by simpa)) (.next (State.wf_enterAutumn hs _)))) <| .ite (.next hs) <|
      .ite (.next (by simpa)) <| .ite (.next (by simpa)) (.next (State.wf_enterAutumn h2 _))
  · exact .next hs

/-- Power good begins from the memory of a module without power, which is empty. -/
theorem execPowerGood_canonical (modEn recoveryN flashWpN : Bool) : Canonical (execPowerGood modEn recoveryN flashWpN s) :=
  .ite (.next hs) (.next (by simp))

omit hs in
theorem execPowerLoss_canonical (s : State) : Canonical (execPowerLoss s) := .next (by simp)

theorem execModEnEdge_canonical (rising : Bool) : Canonical (execModEnEdge rising s) :=
  .ite (.next (State.wf_request (by exact hs) _)) (.next hs)

theorem execRetryBackoffExpiry_canonical : Canonical (execRetryBackoffExpiry s) :=
  .ite (.next hs) (.ite (.next (by simpa)) (.next (by simpa)))

/-- A stack that is trained again loses its bytes: what is left of memory is still listed in order. -/
theorem execBackgroundRetry_canonical (stack : Bool) (k : Nat) (ok : Bool) :
    Canonical (execBackgroundRetry stack k ok s) := by
  refine .guard (.ite (.next hs) (.ite (.ite (.next hs) ?_) (.ite (.next hs) ?_)))
  · extract_lets u
    have hu : Memory.wf u.mem = true := by simpa [u]
    clear_value u
    exact .ite (.next (FMap.wf_filter memReset _ u.mem hu)) (.next hu)
  · exact .ite (.next (by simpa)) (.next (by simpa))

/-! ### Temperatures, power and counts -/

theorem execStackTemperatureRead_canonical (k : Nat) (reading : Int) : Canonical (execStackTemperatureRead k reading s) :=
  .guard <| .ite (.next hs) <| .ite (.next (State.wf_enterFault (by simpa) ..)) <|
    .ite (.next (by simpa)) (.next (by simpa))

theorem execSensorRead_canonical (yards : List Int) (other : Int) (regFault : Bool) :
    Canonical (execSensorRead yards other regFault s) := by
  refine .ite (.next hs) ?_
  extract_lets t u1 power u2
  have h1 : Memory.wf u1.mem = true := State.wf_foldl (fun _ _ hu => by rwa [State.mem_modYard]) _ hs
  have h2 : Memory.wf u2.mem = true := h1
  clear_value u2
  split
  · exact .next (State.wf_enterFault h2 ..)
  · exact .ite (.next (State.wf_enterFault h2 ..)) (.ite (.next (State.wf_enterFault h2 ..)) (.next h2))

theorem execPowerSample_canonical (vin iin : Nat) : Canonical (execPowerSample vin iin s) := by
  refine .ite (.next hs) ?_
  extract_lets w xs u1 cap exceeded power u2
  have h1 : Memory.wf u1.mem = true := hs
  clear_value exceeded u1
  have h2 : Memory.wf u2.mem = true := by
    unfold u2
    split
    · rwa [State.logModule_mem]
    · exact h1
  clear_value u2
  refine .next ?_
  split
  · rwa [State.mem_applyBrake, State.mem_capLoop]
  · exact h2

theorem execThermalCeilingUpdate_canonical (y : Nat) : Canonical (execThermalCeilingUpdate y s) :=
  .guard <| .ite (.ite (.next hs) (.next (by simpa))) (.ite (.next (by simpa)) (.next hs))

theorem execPwrBrake_canonical (low : Bool) : Canonical (execPwrBrake low s) := .next <| by
  split <;> simpa

theorem execPerstN_canonical (asserted : Bool) : Canonical (execPerstN asserted s) := .next <| by
  cases asserted <;> simpa

theorem execShedParity_canonical (k : Nat) : Canonical (execShedParity k s) := .guard <| by
  dsimp only
  split
  · exact .next (by simpa)
  · refine .next ?_
    split <;> simpa

theorem execCounterWrap_canonical (kind k : Nat) : Canonical (execCounterWrap kind k s) := by
  unfold execCounterWrap
  split
  · exact .guard (.next (by simpa))
  · exact .guard (.next (by simpa))
  · exact .fault _

theorem execNumvfsWrite_canonical (n : Nat) (cfg : Nat × List (Nat × Nat)) : Canonical (execNumvfsWrite n cfg s) :=
  .ite (.next hs) <| .next <| State.wf_foldl (fun _ _ hu => by rwa [State.mem_sizeBar]) _ hs

end

end Sys2Proof.Machine
end
section
/-!
PROOF of MemoryStaysCanonical: every command, and then every step, leaves memory in its canonical form.
-/

namespace Sys2Proof.Machine

/-! ### Every command -/

/-- The arms are grouped by the form of the meaning.  Where a meaning is a guard and a tree of `if`s whose leaves keep memory,
the arm writes that tree. -/
theorem exec_canonical (i : Instr) {s : State} (hs : Memory.wf s.mem = true) : Canonical (exec i s) := by
  delta exec
  cases i with
  | add | sub | mul | mulh | mulhu | div | divu | rem | remu | and | or | xor | shl | shr | sra | slt | sltu | min |
    max | addw | subw | mulw | divw | divuw | remw | remuw | shlw | shrw | sraw => exact execGG_canonical hs ..
  | neg | abs | negw | absw | fcvtFI | fcvtIF => exact execGA_canonical hs ..
  | addi | addiw | andi | ori | xori | slti => exact execGI_canonical hs ..
  | shli | shri | srai => exact execShiftI_canonical hs ..
  | lui => exact execG_canonical hs ..
  | ldB | ldH | ldW | ldD | ldBu | ldHu | ldWu | vld => exact execLoad_canonical hs ..
  | stB | stH | stW | stD => exact execStoreG_canonical hs ..
  | vst | vstp => exact execStore_canonical hs ..
  | beq | bne | blt | bge | bltu | bgeu => exact execBranch_canonical hs ..
  | jal | jalr => exact issue_canonical hs fun _ _ => .setStall hs _ _
  | fence => exact issue_canonical hs fun _ _ => .ite (.next hs) (.setStall hs _ _)
  | getWork => exact execGetWork_canonical hs ..
  | srd => exact execSrd_canonical hs ..
  | swr => exact execSwr_canonical hs ..
  | fadd | fsub | fmul | fdiv | fmin | fmax => exact execFF_canonical hs ..
  | feq | flt | fle => exact execFCmp_canonical hs ..
  | fmadd | fsqrt => exact execF_canonical hs ..
  | aadd => exact execAadd_canonical hs ..
  | acas => exact execAcas_canonical hs ..
  | evdone => exact execEvdone_canonical hs ..
  | evpush | send | hpush | fset | fclr => exact execCtl_canonical hs ..
  | ftest | wcancel => exact execCtlG_canonical hs ..
  | watch => exact .ite (issue_illegal_canonical hs ..) (execCtlG_canonical hs ..)
  | ucmd => exact execUcmd_canonical hs ..
  | mxInstruction => exact .ite (issue_illegal_canonical hs ..) (execCtl_canonical hs ..)
  | vadd | vsub | vmul | vmin | vmax | vadds | vsubs | vmuls | vand | vor | vxor | vshl | vshr | vsra | vdiv |
    vexpd => exact execVV_canonical hs ..
  | vcmpEq | vcmpNe | vcmpLt | vcmpLe | vcmpLtu | vcmpLeu => exact execCmpVV_canonical hs ..
  | vperm | vbcast => exact execV_canonical hs ..
  | vabs | vneg | vabss | vnegs | vmov | vsqrt | vrcp | vrsqrt | vexp2 | vexpe | vlog2 | vln =>
    exact execVA_canonical hs ..
  | vcmpIsnan | vcmpIsinf => exact execCmpVA_canonical hs ..
  | vredRsum | vredRmax | vredRmin => exact execRed_canonical hs ..
  | vcvt => exact execVcvt_canonical hs ..
  | vfma | vfms | vclamp => exact execVVV_canonical hs ..
  | vrand | vrandc => exact issue_canonical hs fun _ _ => .ite (illegal_canonical hs _ _) (.setStall hs _ _)
  | vcvtmx =>
    refine .ite (issue_illegal_canonical hs ..) (issue_canonical hs fun _ _ => .next ?_)
    rwa [State.mem_nanEvents, State.setStall_mem]
  | pand | por | pxor | pnot | pcnt => exact execP_canonical hs ..
  | vget => exact .ite (execG_canonical hs ..) (issue_illegal_canonical hs ..)
  | loadValueReturn => exact execLoadValueReturn_canonical hs ..
  | controlIssue => exact execControlIssue_canonical hs ..
  | flagSet | flagClear | flagTest => exact onMesh_canonical hs fun _ _ hu => .next (by simpa)
  | watchArm => exact execWatchArm_canonical hs ..
  | watchCancel => exact execWatchCancel_canonical hs ..
  | penOperation => exact execPenOperation_canonical hs ..
  | penSubwatchReport => exact execPenSubwatchReport_canonical hs ..
  | eventPush | mailboxDelivery => exact .next (by simpa)
  | perstN => exact execPerstN_canonical hs ..
  | vinLow | unownedStateError => exact .next (State.wf_enterFault hs ..)
  | powerLoss => exact execPowerLoss_canonical s
  | pwrBrake => exact execPwrBrake_canonical hs ..
  | delayEntryDue => exact execDelayEntryDue_canonical hs ..
  | dispatch => exact execDispatch_canonical hs ..
  | shedSleep | shedWake | cacheCounterHalve | nrdyRetry | linkDown | failover | mboxGo | sqTail | cqHead | droop |
    droopRestore => exact .guard (.ite (.next (by simpa)) (.next (by simpa)))
  | patrolScrub => exact execPatrolScrub_canonical hs ..
  | flitSend => exact execFlitSend_canonical hs ..
  | flowMoveBack => exact execFlowMoveBack_canonical hs ..
  | msixRaise => exact execMsixRaise_canonical hs ..
  | mmioRegisterWrite => exact execMmioRegisterWrite_canonical hs ..
  | loadEnd => exact execLoadEnd_canonical hs ..
  | partitionStopped => exact execPartitionStopped_canonical hs ..
  | mxLoadw | mxStream | mxSpstream | mxDrain | mxReset => exact mxArrive_canonical hs ..
  | mxaCommandStart => exact execMxaCommandStart_canonical hs ..
  | streamRowFinal => exact execStreamRowFinal_canonical hs ..
  | mxaCommandComplete => exact execMxaCommandComplete_canonical hs ..
  | sample | score => exact saArrive_canonical hs ..
  | samplerDescriptorStart => exact execSamplerDescriptorStart_canonical hs ..
  | samplerDescriptorComplete => exact execSamplerDescriptorComplete_canonical hs ..
  | runaheadCompute => exact execRunaheadCompute_canonical hs ..
  | prefetchHint => exact execPrefetchHint_canonical hs ..
  | gather | pool | replay | scatter | flush | applyOrdered | opt8 | tswitch | replicate | migrate =>
    exact reArrive_canonical hs ..
  | rowDescriptorStart => exact execRowDescriptorStart_canonical hs ..
  | rowDescriptorComplete => exact execRowDescriptorComplete_canonical hs ..
  | migrateCopy => exact execMigrateCopy_canonical hs ..
  | requestEnterWindow => exact execRequestEnterWindow_canonical hs ..
  | sectorAccess => exact execSectorAccess_canonical hs ..
  | atomicAtHome => exact execAtomicAtHome_canonical hs ..
  | hotRowsRead | tableDescPend | hbmLayoutWrite | mirrorCtrlNow | odRead | odWrite | blobRead | blobWrite | acquire |
    renew | release | shedsWrite | ringConfigWrite | start | stop | nanTrapRearm | stallFaultRearm | seasonOn |
    seasonOff | faultClear | perfSelWrite | commit | restart | fwSlotWrite => exact State.serve_canonical hs ..
  | copy | compress | expand => exact dmArrive_canonical hs ..
  | dmaDescriptorStart => exact execDmaDescriptorStart_canonical hs ..
  | dmaDescriptorComplete => exact execDmaDescriptorComplete_canonical hs ..
  | refresh => exact execRefresh_canonical hs ..
  | stackTemperatureRead => exact execStackTemperatureRead_canonical hs ..
  | flitReceive => exact execFlitReceive_canonical hs ..
  | recalibration => exact execRecalibration_canonical hs ..
  | frameClearing => exact execFrameClearing_canonical hs ..
  | collectiveStart => exact execCollectiveStart_canonical hs ..
  | replayTimeout => exact execReplayTimeout_canonical hs ..
  | trainingAttempt => exact execTrainingAttempt_canonical hs ..
  | timeExchange => exact execTimeExchange_canonical hs ..
  | regionScan => exact execRegionScan_canonical hs ..
  | stepBoundary => exact execStepBoundary_canonical hs ..
  | pktWrite => exact execPktWrite_canonical hs ..
  | pktRead => exact execPktRead_canonical hs ..
  | pktRowAtomic => exact execPktRowAtomic_canonical hs ..
  | flagSetPacket => exact execFlagSetPacket_canonical hs ..
  | collectiveContribution => exact execCollectiveContribution_canonical hs ..
  | collectiveResult => exact execCollectiveResult_canonical hs ..
  | collectiveChainSum => exact execCollectiveChainSum_canonical hs ..
  | collectiveSidecar => exact execCollectiveSidecar_canonical hs ..
  | pktReadResp => exact execPktReadResp_canonical hs ..
  | messageResult => exact execMessageResult_canonical hs ..
  | messageAck => exact execMessageAck_canonical hs ..
  | messageNack => exact execMessageNack_canonical hs ..
  | messageEvpush => exact execMessageEvpush_canonical hs ..
  | messageHpush => exact execMessageHpush_canonical hs ..
  | messageSend => exact execMessageSend_canonical hs ..
  | mgmtRequest => exact execMgmtRequest_canonical hs ..
  | flagOnLastTrailer => exact execFlagOnLastTrailer_canonical hs ..
  | transactionTimeout => exact execTransactionTimeout_canonical hs ..
  | vstartDetected => exact execVstartDetected_canonical hs ..
  | verdict => exact execVerdict_canonical hs ..
  | altFreeSet => exact execAltFreeSet_canonical hs ..
  | mirrorStart => exact execMirrorStart_canonical hs ..
  | mirrorCommit => exact execMirrorCommit_canonical hs ..
  | mirrorFailed => exact execMirrorFailed_canonical hs ..
  | leaseExpiry => exact .guard (.next (by simpa))
  | mgmtDatagram => exact execMgmtDatagram_canonical hs ..
  | entryFetch => exact execEntryFetch_canonical hs ..
  | completionWrite => exact execCompletionWrite_canonical hs ..
  | bar4Access => exact execBar4Access_canonical hs ..
  | powerGood => exact execPowerGood_canonical hs ..
  | modEnEdge => exact execModEnEdge_canonical hs ..
  | faultEnter => exact .ite (.next (State.wf_enterFault hs ..)) (.next hs)
  | faultExit => exact .ite (.next hs) (.next (by simpa))
  | powerSample => exact execPowerSample_canonical hs ..
  | mgmtLinkChange => exact .ite (.next hs) (.next hs)
  | numvfsWrite => exact execNumvfsWrite_canonical hs ..
  | safeEnd => exact execSafeEnd_canonical hs ..
  | retryBackoffExpiry => exact execRetryBackoffExpiry_canonical hs
  | hostLinkChange => exact .ite (.next hs) (.ite (.next (by simpa)) (.next hs))
  | backgroundRetry => exact execBackgroundRetry_canonical hs ..
  | sensorRead => exact execSensorRead_canonical hs ..
  | thermalCeilingUpdate => exact execThermalCeilingUpdate_canonical hs ..
  | persistCommit => exact execPersistCommit_canonical hs
  | shedParity => exact execShedParity_canonical hs ..
  | invalidEncoding => exact execInvalidEncoding_canonical hs ..
  | fetchOutsideLocalMemory => exact execFetchOutsideLocalMemory_canonical hs ..
  | counterWrap => exact execCounterWrap_canonical hs ..

/-- Settles O59: every command, and the passing of a microsecond, leaves memory in its canonical form. -/
theorem memoryStaysCanonical : Obligations.MemoryStaysCanonical := by
  unfold Obligations.MemoryStaysCanonical
  intro s t hs hstep
  unfold step at hstep
  split at hstep
  · cases hstep
    rwa [State.mem_tick]
  · next c rest _ => exact (exec_canonical c (s := { s with pending := rest }) hs).wf t hstep

end Sys2Proof.Machine
end

section
/-!
SUPPORT and O27. Watches of stalls that are armed, that fire at once, that find no slot, and that are cancelled (R138-R141, R144).
-/

namespace Sys2Proof.Machine

/-! ### Fresh identifiers (R140, R388) -/

/-- One number more than are listed holds one that is not listed. -/
theorem find?_not_listed (l : List Nat) : ∃ n, ((List.range (l.length + 1)).map (· + 1)).find? (fun n => !(l.contains n)) = some n ∧
    n ≠ 0 ∧ n ≤ l.length + 1 ∧ n ∉ l := by
  cases hfind : ((List.range (l.length + 1)).map (· + 1)).find? (fun n => !(l.contains n)) with
  | none =>
    have hlisted : ∀ n ∈ (List.range (l.length + 1)).map (· + 1), n ∈ l := by simpa using List.find?_eq_none.mp hfind
    have hnodup : ((List.range (l.length + 1)).map (· + 1)).Nodup := List.nodup_range.map (add_left_injective 1)
    have hlength := (hnodup.subperm hlisted).length_le
    simp at hlength
  | some n =>
    have hfresh := List.find?_some hfind
    obtain ⟨i, hi, rfl⟩ := List.mem_map.mp (List.mem_of_find?_eq_some hfind)
    have hi := List.mem_range.mp hi
    exact ⟨i + 1, rfl, by omega, by omega, by simpa using hfresh⟩

/-- While fewer identifiers than there are numbers of 64 bits have been given, the next is one, not 0 and not given before. -/
theorem State.newWid_fresh (s : State) (h : s.wids.length < 2 ^ 64 - 1) :
    s.newWid < 2 ^ 64 ∧ s.newWid ≠ 0 ∧ s.newWid ∉ s.wids := by
  unfold State.newWid
  extract_lets c
  split
  · next hc => exact ⟨Nat.mod_lt _ (by norm_num), hc.1, hc.2⟩
  · obtain ⟨n, hfind, h0, hle, hn⟩ := find?_not_listed s.wids
    rw [hfind, Option.getD_some]
    exact ⟨by omega, h0, hn⟩

/-! ### A slot that is taken (R138) -/

/-- Watch `w` holds a slot of shed `k`, with a fresh identity. -/
def State.armed (s : State) (k : Nat) (w : Watch) : State :=
  (s.modShed k (fun x => { x with watches := x.watches ++ [{ w with id := s.ctr }] })).tick1

section
variable {s : State} {k : Nat}

theorem State.armed_of_room (h : (s.shed k).watches.length < 2048) (w : Watch) : s.arm k w = some (s.armed k w) :=
  if_neg (Nat.not_le.mpr h)

theorem State.notArmed_of_full (h : 2048 ≤ (s.shed k).watches.length) (w : Watch) : s.arm k w = none := if_pos h

variable (s k) (w : Watch)

theorem State.watches_armed : ((s.armed k w).shed k).watches = (s.shed k).watches ++ [{ w with id := s.ctr }] :=
  congrArg Shed.watches (s.setShed_same k _)

theorem State.still_armed : (s.armed k w).still = s.still := by
  refine s.still_modShed k (f := fun x => { x with watches := x.watches ++ [{ w with id := s.ctr }] }) ?_
  exact fun _ => rfl

/-- Arming spares every watch. -/
theorem Spares.armed (id : Nat) : Spares k id s (s.armed k w) := by
  have happend := Spares.modShed k id s k (f := fun x => { x with watches := x.watches ++ [{ w with id := s.ctr }] })
    (fun _ => rfl) fun _ _ _ hmem => List.mem_append_left _ hmem
  exact happend.trans (Spares.of_eq rfl rfl fun _ h => h)

/-- A watch that fires as it is armed is the only one marked, as its identity is fresh. -/
theorem State.watches_markFired_armed (hfresh : ∀ u ∈ (s.shed k).watches, u.id ≠ s.ctr) :
    (((s.armed k w).markFired k { w with id := s.ctr }).shed k).watches =
      (s.shed k).watches ++ [{ w with id := s.ctr, fired := true }] := by
  have hmark : (((s.armed k w).markFired k { w with id := s.ctr }).shed k).watches =
      ((s.armed k w).shed k).watches.map (fun u => if u.id = s.ctr then { u with fired := true } else u) :=
    congrArg Shed.watches ((s.armed k w).setShed_same k _)
  have hold : (s.shed k).watches.map (fun u => if u.id = s.ctr then { u with fired := true } else u) = (s.shed k).watches :=
    (List.map_congr_left fun u hu => if_neg (hfresh u hu)).trans (List.map_id _)
  rw [hmark, State.watches_armed, List.map_append, hold]
  simp

end

/-! ### WATCH of a stall (R138, R140, R141) -/

/-- Whoever awaits the result of a control operation: nobody, or stall `u` at place `q` for its register `r`. -/
def State.Awaits (s : State) (a : Reply) (u q : Nat) (z : Wait) (r : BitVec 5) : Prop :=
  a = .none ∨ a = .stall u q ∧ (s.stall u).waits.find? (fun w => decide (w.seq = q)) = some z ∧ z.dst = some r.toNat ∧ r ≠ 31

section
variable {s : State} {a : Reply} {u q : Nat} {z : Wait} {r : BitVec 5} (h : s.Awaits a u q z r)
include h

/-- A result that returns changes stalls alone. -/
theorem State.Awaits.leaves (t : State) (v : BitVec 64) : (t.reply a v).sheds = t.sheds ∧ (t.reply a v).pushes = t.pushes ∧
    (t.reply a v).logs = t.logs ∧ (t.reply a v).wids = t.wids := by
  rcases h with rfl | ⟨rfl, -⟩ <;> exact ⟨rfl, rfl, rfl, rfl⟩

theorem State.Awaits.shed (t : State) (v : BitVec 64) (j : Nat) : (t.reply a v).shed j = t.shed j := by
  obtain ⟨hsheds, -⟩ := h.leaves t v
  rw [State.shed, hsheds, State.shed]

theorem State.Awaits.pushes (t : State) (v : BitVec 64) : (t.reply a v).pushes = t.pushes := by
  obtain ⟨-, hpushes, -⟩ := h.leaves t v
  exact hpushes

/-- It reaches the register that awaits it. -/
theorem State.Awaits.getG {t : State} (ht : t.stalls = s.stalls) (v : BitVec 64) (ha : a = .stall u q) :
    ((t.reply a v).stall u).getG r = v := by
  rcases h with rfl | ⟨rfl, hfind, hdst, hr⟩
  · cases ha
  · have hstall : t.stall u = s.stall u := congrArg (fun x => FMap.get (fun _ => Stall.reset) x u) ht
    exact State.replyStall_getG (by rwa [hstall]) hdst hr v

end

/-- The watch that operation `m` arms on its flag, with identity `s.ctr`. -/
def State.watchOf (s : State) (m : Mesh) : Watch := { mkWatch m s.newWid (.plain (m.idx % 4096)) with id := s.ctr }

/-- The state after operation `m` at place `k` of the mesh has taken a slot for it. -/
def State.watchArmed (s : State) (k : Nat) (m : Mesh) : State :=
  ((s.offMesh k).giveWid s.newWid).armed (m.idx / 4096) (mkWatch m s.newWid (.plain (m.idx % 4096)))

section
variable {s : State} {k : Nat} {m : Mesh} (hm : s.mesh[k]? = some m) (hkind : m.kind = 2) (hturn : s.leafTurn k m = true)
  (hop : m.op = .watch) (hdev : m.dev = none)
include hm hkind hturn hop hdev

/-- A WATCH of a stall on a flag asks the flag's home for a slot. -/
theorem exec_watchArm_asks : exec (.watchArm k) s =
    match ((s.offMesh k).giveWid s.newWid).arm (m.idx / 4096) (mkWatch m s.newWid (.plain (m.idx % 4096))) with
    | none => .next ((s.offMesh k).watchFull (m.idx / 4096) m)
    | some t => .next ((if s.flag m.idx = decide (m.n % 2 = 1) then t.fire (m.idx / 4096) (s.watchOf m) else t).reply m.reply
        (BitVec.ofNat 64 s.newWid)) := by
  show execWatchArm k s = _
  simp only [execWatchArm, onMesh, hm, hop, hkind, hturn, hdev, removeAt_eq_eraseIdx, true_or, and_self, decide_true, if_true,
    Option.isSome_none, Bool.false_eq_true, false_and, if_false] <;> rfl

theorem exec_watchArm_room (hroom : (s.shed (m.idx / 4096)).watches.length < 2048) :
    exec (.watchArm k) s = .next ((if s.flag m.idx = decide (m.n % 2 = 1)
      then (s.watchArmed k m).fire (m.idx / 4096) (s.watchOf m) else s.watchArmed k m).reply m.reply (BitVec.ofNat 64 s.newWid)) := by
  rw [exec_watchArm_asks hm hkind hturn hop hdev, State.armed_of_room (s := (s.offMesh k).giveWid s.newWid) hroom]
  rfl

theorem exec_watchArm_full (hfull : 2048 ≤ (s.shed (m.idx / 4096)).watches.length)
    (hreply : m.reply = .none ∨ ∃ u q, m.reply = .stall u q) : exec (.watchArm k) s =
      .next (((s.offMesh k).reportError m.part 0x0503 m.stall m.kind m.idx m.target.toNat 0 0).reply m.reply 0) := by
  rw [exec_watchArm_asks hm hkind hturn hop hdev, State.notArmed_of_full (s := (s.offMesh k).giveWid s.newWid) hfull]
  rcases hreply with h | ⟨u, q, h⟩ <;> simp only [State.watchFull, h]

end

/-! ### A WATCH without a slot (R141, R160) -/

theorem State.watches_modShed (s : State) (k : Nat) {f : Shed → Shed} (hf : ∀ x, (f x).watches = x.watches) (j : Nat) :
    ((s.modShed k f).shed j).watches = (s.shed j).watches := by
  rw [State.modShed, State.setShed_shed]
  split
  · next h => rw [hf, h]
  · rfl

/-- An error event leaves every watch. -/
theorem State.watches_pushError (s : State) (p : Nat) (ev : BitVec 256) (j : Nat) :
    ((s.pushError p ev).shed j).watches = (s.shed j).watches := by
  unfold State.pushError
  extract_lets qi k
  split
  · rfl
  · split
    · next h =>
      rw [State.eq_of_enqueue h]
      refine (State.watches_modShed _ k ?_ j).trans (s.watches_modShed k (f := fun x => x.setQueue (qi % 1024)
        { x.queue (qi % 1024) with items := (x.queue (qi % 1024)).items ++
            [eventOf (x.queue (qi % 1024)) kindError ev s.ctr] }) ?_ j)
      · exact fun _ => rfl
      · exact fun _ => rfl
    · refine s.watches_modShed k ?_ j
      exact fun _ => rfl

/-- The report of a failure leaves the held pushes and every watch. -/
theorem State.reportError_leaves (s : State) (p code stall kind idx target entry fcode j : Nat) :
    (s.reportError p code stall kind idx target entry fcode).pushes = s.pushes ∧
      ((s.reportError p code stall kind idx target entry fcode).shed j).watches = (s.shed j).watches := by
  obtain ⟨x, c, hpush, -⟩ := s.pushError_eq p (errorEvent code stall target entry fcode)
  have hlog : ∀ kd i, let t := (s.pushError p (errorEvent code stall target entry fcode)).logPart p code 2 kd i target
      t.pushes = s.pushes ∧ (t.shed j).watches = (s.shed j).watches := fun kd i => by
    refine ⟨by rw [State.logPart_pushes, hpush], ?_⟩
    rw [State.shed, State.logPart_sheds]
    exact s.watches_pushError ..
  unfold State.reportError
  extract_lets s1
  split <;> exact hlog _ _

/-! ### CANCEL (R135, R140, R142) -/

/-- What a sparse array reads is listed or the default. -/
theorem FMap.get_mem {α : Type} (d : Nat → α) (m : FMap α) (k : Nat) : (k, FMap.get d m k) ∈ m ∨ FMap.get d m k = d k := by
  induction m with
  | nil => exact .inr rfl
  | cons e m ih =>
    obtain ⟨i, x⟩ := e
    by_cases h : k = i
    · subst h
      simp [FMap.get]
    · simp only [FMap.get, if_neg h]
      exact ih.imp_left (.tail _)

theorem State.mem_allWatches {s : State} {j : Nat} {w : Watch} (h : w ∈ (s.shed j).watches) : (j, w) ∈ s.allWatches := by
  rcases FMap.get_mem (fun _ => Shed.reset) s.sheds j with hlisted | hreset
  · exact List.mem_flatMap.mpr ⟨_, hlisted, List.mem_map.mpr ⟨w, h, rfl⟩⟩
  · rw [State.shed, hreset] at h
    cases h

/-- Freeing slots changes no shed that holds none of them. -/
theorem State.freeWatches_shed_same (s : State) (ids : List Nat) {j : Nat} (h : ∀ w ∈ (s.shed j).watches, w.id ∉ ids) :
    (s.freeWatches ids).shed j = s.shed j := by
  have hone : ∀ (u : State) (c : Nat), u.shed j = s.shed j →
      (if (u.shed c).watches.any (fun w => ids.contains w.id) then
        u.modShed c (fun x => { x with watches := x.watches.filter (fun w => !(ids.contains w.id)) }) else u).shed j = u.shed j := by
    intro u c hu
    split
    · next hany =>
      refine State.setShed_ne _ _ _ fun hj => ?_
      obtain ⟨w, hw, hid⟩ := List.any_eq_true.mp hany
      exact h w (by rwa [← hj, hu] at hw) (List.contains_iff_mem.mp hid)
    · rfl
  exact foldl_keep (R := fun u : State => u.shed j) (P := fun u => u.shed j = s.shed j) (fun u c hu => (hone u c hu).trans hu)
    (fun u c hu _ => hone u c hu) rfl

/-- Freeing slots takes them from the sheds that hold them. -/
theorem State.freeWatches_watches (s : State) (ids : List Nat) {j : Nat} (hj : j < 32) :
    ((s.freeWatches ids).shed j).watches = (s.shed j).watches.filter (fun w => !(ids.contains w.id)) := by
  refine foldl_once (R := fun u : State => (u.shed j).watches) (P := fun _ => True) (e := j) (fun _ _ _ => trivial) ?_ ?_
    List.nodup_range (List.mem_range.mpr hj) trivial
  · intro u _ hu
    split
    · rw [State.modShed, State.setShed_same]
      exact congrArg _ hu
    · next hany =>
      rw [hu] at hany ⊢
      refine (List.filter_eq_self.mpr fun w hw => ?_).symm
      simp only [List.any_eq_true, not_exists, not_and] at hany
      simpa using hany w hw
  · intro u c _ _ hc
    split
    · rw [State.modShed, State.setShed_ne _ _ _ (Ne.symm hc)]
    · rfl

theorem State.freeWatches_stalls (s : State) (ids : List Nat) : (s.freeWatches ids).stalls = s.stalls := by
  refine foldl_keep (R := State.stalls) (P := fun _ => True) (fun _ _ _ => trivial) (fun u c _ _ => ?_) trivial
  split <;> rfl

/-- A watch that no sub-watch reports to stands alone (R142). -/
theorem State.subtree_alone (s : State) (n : Nat) {id : Nat}
    (h : ∀ e ∈ s.allWatches, ∀ y, e.2.kind.up = some y → y.dev = none → y.id ≠ id) : s.subtree n [id] = [id] := by
  induction n with
  | zero => rfl
  | succ n ih =>
    rw [State.subtree]
    have hnone : s.allWatches.filterMap (fun e => match e.2.kind.up with
        | some u => if u.dev = none ∧ u.id ∈ [id] ∧ e.2.id ∉ [id] then some e.2.id else none
        | none => none) = [] := by
      refine List.filterMap_eq_nil_iff.mpr fun e he => ?_
      split
      · next u hu =>
        refine if_neg ?_
        rintro ⟨hdev, hid, -⟩
        exact h e he u hu hdev (List.mem_singleton.mp hid)
      · rfl
    refine Eq.trans ?_ ih
    exact congrArg (s.subtree n) (congrArg ([id] ++ ·) hnone)

/-- A plain watch has no members on other modules. -/
theorem State.farMembers_plain (s : State) {id f : Nat} (h : ∀ e ∈ s.allWatches, e.2.id = id → e.2.kind = .plain f) :
    s.farMembers [id] = [] := by
  refine List.flatMap_eq_nil_iff.mpr fun e he => ?_
  dsimp only
  split
  · next hid =>
    have hid : e.2.id = id := by simpa using hid
    rw [h e he hid]
  · rfl

/-- Disarming a plain watch frees its slot, and `v` returns at once. -/
theorem State.disarm_plain {s : State} {id f : Nat} (v : Nat) (r : Reply)
    (hplain : ∀ e ∈ s.allWatches, e.2.id = id → e.2.kind = .plain f)
    (halone : ∀ e ∈ s.allWatches, ∀ y, e.2.kind.up = some y → y.dev = none → y.id ≠ id) :
    s.disarm id v r = some ((s.freeWatches [id]).reply r (BitVec.ofNat 64 v)) := by
  rw [State.disarm, s.subtree_alone 9 halone]
  exact if_pos (s.farMembers_plain hplain)

section
variable {s : State} {k : Nat} {m : Mesh} (hm : s.mesh[k]? = some m) (hop : m.op = .cancel) (hturn : s.leafTurn k m = true)
include hm hop hturn

theorem exec_watchCancel_finds {e : Nat × Watch} {t : State}
    (hfind : s.allWatches.find? (fun e => cancels m e.1 e.2) = some e)
    (hdisarm : (s.offMesh k).disarm e.2.id 1 m.reply = some t) : exec (.watchCancel k) s = .next t := by
  have hdisarm' : State.disarm { s with mesh := s.mesh.eraseIdx k } e.2.id 1 m.reply = some t := hdisarm
  show execWatchCancel k s = _
  simp only [execWatchCancel, hm, hop, hturn, hfind, hdisarm', removeAt_eq_eraseIdx, ne_eq, not_true_eq_false, false_and,
    Bool.true_eq_false, or_self, if_false, reduceCtorEq]

theorem exec_watchCancel_unknown (hnone : s.allWatches.find? (fun e => cancels m e.1 e.2) = none)
    (hhome : ∀ h ∈ s.fabric.homes, h.1 = m.part → h.2.1 ≠ m.a2.toNat) :
    exec (.watchCancel k) s = .next ((s.offMesh k).reply m.reply 0) := by
  have hhomes : s.fabric.homes.find? (fun h => decide (m.dev = none ∧ h.1 = m.part ∧ h.2.1 = m.a2.toNat)) = none := by
    refine List.find?_eq_none.mpr fun h hh => ?_
    rw [decide_eq_true_eq]
    rintro ⟨-, hpart, hid⟩
    exact hhome h hh hpart hid
  show execWatchCancel k s = _
  simp only [execWatchCancel, hm, hop, hturn, hnone, hhomes, removeAt_eq_eraseIdx, ne_eq, not_true_eq_false, false_and,
    Bool.true_eq_false, or_self, if_false, reduceCtorEq]
  rfl

end

/-- A CANCEL of a stall names plain watches and barriers that have not fired, by an identifier of its partition (R140). -/
theorem cancels_iff {m : Mesh} (hdev : m.dev = none) (sh : Nat) (w : Watch) : cancels m sh w = true ↔
    w.fired = false ∧ (w.wid = m.a2 ∧ m.a2 ≠ 0 ∧ w.part = m.part) ∧ ((∃ f, w.kind = .plain f) ∨ ∃ i n, w.kind = .top i n) := by
  cases hw : w.kind <;> simp [cancels, hdev, partKey, hw]

section
variable {s : State} {m : Mesh} (hdev : m.dev = none)
include hdev

/-- A plain watch that CANCEL names, and that alone has the identifier, is found. -/
theorem find?_cancels_only {e : Nat × Watch} {f : Nat} (he : e ∈ s.allWatches) (hplain : e.2.kind = .plain f)
    (hfired : e.2.fired = false) (hwid : e.2.wid = m.a2) (h0 : m.a2 ≠ 0) (hpart : e.2.part = m.part)
    (honly : ∀ a ∈ s.allWatches, a.2.wid = m.a2 → a = e) : s.allWatches.find? (fun a => cancels m a.1 a.2) = some e := by
  have hcancels : cancels m e.1 e.2 = true := (cancels_iff hdev _ _).mpr ⟨hfired, ⟨hwid, h0, hpart⟩, .inl ⟨f, hplain⟩⟩
  cases hfind : s.allWatches.find? (fun a => cancels m a.1 a.2) with
  | none => exact absurd hcancels (List.find?_eq_none.mp hfind e he)
  | some a =>
    have ha : cancels m a.1 a.2 = true := List.find?_some (p := fun a : Nat × Watch => cancels m a.1 a.2) hfind
    obtain ⟨-, ⟨hid, -⟩, -⟩ := (cancels_iff hdev _ _).mp ha
    rw [honly a (List.mem_of_find?_eq_some hfind) hid]

/-- An identifier that every watch of the partition which has it has fired with names none. -/
theorem find?_cancels_none (h : m.a2 = 0 ∨ ∀ e ∈ s.allWatches, e.2.wid = m.a2 → e.2.part = m.part → e.2.fired = true) :
    s.allWatches.find? (fun a => cancels m a.1 a.2) = none := by
  refine List.find?_eq_none.mpr fun e he hcancels => ?_
  obtain ⟨hfired, ⟨hid, h0, hpart⟩, -⟩ := (cancels_iff hdev _ _).mp hcancels
  rcases h with h | h
  · exact h0 h
  · exact Bool.false_ne_true (hfired.symm.trans (h e he hid hpart))

end

/-! ### A WATCH with a slot -/

section
variable (s : State) (k : Nat) (m : Mesh)

/-- The slot holds the watch of the operation, and nothing else changes but the identifiers given. -/
theorem State.watchArmed_frame : ((s.watchArmed k m).shed (m.idx / 4096)).watches =
      (s.shed (m.idx / 4096)).watches ++ [s.watchOf m] ∧ (s.watchArmed k m).still = s.still ∧
    (s.watchArmed k m).pushes = s.pushes ∧ (s.watchArmed k m).wids = s.newWid :: s.wids :=
  ⟨State.watches_armed .., State.still_armed .., rfl, rfl⟩

/-- Where the flag has the value the watch fires, and its event is on its way to its queue (R138, R139). -/
theorem State.watchArmed_fire {kd i : Nat} (hplain : s.resolve ((s.watchOf m).part % 32) m.a2.toNat [3] = .plain kd i)
    (hids : ∀ w ∈ (s.shed (m.idx / 4096)).watches, w.id ≠ s.ctr) :
    let t := (s.watchArmed k m).fire (m.idx / 4096) (s.watchOf m)
    (t.shed (m.idx / 4096)).watches = (s.shed (m.idx / 4096)).watches ++ [{ s.watchOf m with fired := true }] ∧
      t.stalls = s.stalls ∧ t.wids = s.newWid :: s.wids ∧
      ∃ e, t.pushes = s.pushes ++ [e] ∧ e.queue = i ∧ e.kind = 1 ∧ e.ev = m.data.setWidth 256 := by
  have hspares : Spares (m.idx / 4096) (s.watchOf m).id s ((s.watchArmed k m).markFired (m.idx / 4096) (s.watchOf m)) :=
    .trans (t := (s.offMesh k).giveWid s.newWid) (.of_eq rfl rfl fun _ h => h)
      ((Spares.armed _ _ _ _).trans (Spares.markFired _ _ (s.watchOf m)))
  intro t
  have ht : t = _ := State.fire_plain ((hspares.resolve ..).trans hplain)
  rw [ht]
  exact ⟨State.watches_markFired_armed ((s.offMesh k).giveWid s.newWid) _ _ hids, rfl, rfl, _, rfl, rfl, rfl, rfl⟩

end

/-- Settles O27: a WATCH by whether its home has a slot and its flag the value, a CANCEL by the watch it finds. -/
theorem watches : Obligations.Watches := by
  unfold Obligations.Watches
  refine ⟨fun s k u q m z r hm hkind hturn hop hdev hawaits => ?_, fun s k u q m w r hm hop hturn hdev hreply hfind hdst hr => ?_⟩
  · have hawaits : s.Awaits m.reply u q z r := hawaits
    intro sh v gave
    have hgave : ∀ (t : State) (w : Watch), t.stalls = s.stalls → t.wids = s.newWid :: s.wids → w.wid = (s.watchOf m).wid →
        gave (t.reply m.reply (BitVec.ofNat 64 s.newWid)) w := by
      intro t w hstalls hwids hw
      refine ⟨fun hroom => ?_, fun ha => (hawaits.getG hstalls _ ha).trans hw.symm⟩
      obtain ⟨hlt, h0, hnew⟩ := s.newWid_fresh hroom
      have hwid : w.wid.toNat = s.newWid := (congrArg BitVec.toNat hw).trans (Nat.mod_eq_of_lt hlt)
      obtain ⟨-, -, -, hgiven⟩ := hawaits.leaves t (BitVec.ofNat 64 s.newWid)
      rw [hwid, hgiven]
      exact ⟨fun h => h0 (hwid.symm.trans (congrArg BitVec.toNat h)), hnew, hwids⟩
    refine ⟨fun hroom hflag => ?_, fun hroom hids hflag kd i hplain => ?_, fun hfull => ?_⟩
    · obtain ⟨hwatches, hstill, hpushes, hwids⟩ := s.watchArmed_frame k m
      have hexec := exec_watchArm_room hm hkind hturn hop hdev hroom
      rw [if_neg hflag] at hexec
      refine ⟨_, hexec, s.watchOf m, ?_, rfl, rfl, rfl, rfl, rfl, ?_, hgave _ _ (State.stalls_of_still hstill) hwids rfl, ?_,
        fun f => ?_⟩
      · rw [hawaits.shed]
        exact hwatches
      · exact congrFun (congrArg (fun d => partKey d) hdev) m.part
      · exact (hawaits.pushes ..).trans hpushes
      · rw [State.flag_reply]
        exact congrFun (congrArg Still.flag hstill) f
    · have hpart : (s.watchOf m).part = m.part := congrFun (congrArg (fun d => partKey d) hdev) m.part
      rw [← hpart] at hplain
      obtain ⟨hwatches, hstalls, hwids, e, hpushes, hevent⟩ := s.watchArmed_fire k m hplain hids
      have hexec := exec_watchArm_room hm hkind hturn hop hdev hroom
      rw [if_pos hflag] at hexec
      refine ⟨_, hexec, ⟨{ s.watchOf m with fired := true }, ?_, rfl, hgave _ _ hstalls hwids rfl⟩, e, ?_, hevent⟩
      · rw [hawaits.shed]
        exact hwatches
      · exact (hawaits.pushes ..).trans hpushes
    · have hreported := (s.offMesh k).reportError_reported m.part 0x0503 m.stall m.kind m.idx m.target.toNat 0 0
      obtain ⟨hpushes, hwatches⟩ := (s.offMesh k).reportError_leaves m.part 0x0503 m.stall m.kind m.idx m.target.toNat 0 0 sh
      refine ⟨_, exec_watchArm_full hm hkind hturn hop hdev hfull (hawaits.imp_right fun h => ⟨u, q, h.1⟩), ?_, ?_, ?_,
        hawaits.getG (State.stalls_of_still hreported.still) 0⟩
      · exact (hawaits.pushes ..).trans hpushes
      · rw [hawaits.shed]
        exact hwatches
      · obtain ⟨-, -, hlogs, -⟩ := hawaits.leaves
          ((s.offMesh k).reportError m.part 0x0503 m.stall m.kind m.idx m.target.toNat 0 0) 0
        rw [State.log, hlogs]
        exact (hreported.log _).trans (if_pos rfl)
  · have hawaits : s.Awaits m.reply u q w r := .inr ⟨hreply, hfind, hdst, hr⟩
    refine ⟨fun sh x f hsh hx hplain hfired hwid h0 hpart honly halone => ?_, fun hno hhome => ?_⟩
    · have hfound := find?_cancels_only hdev hx hplain hfired hwid h0 hpart fun e he hid => honly e he (.inl hid)
      have hkind : ∀ e ∈ (s.offMesh k).allWatches, e.2.id = x.id → e.2.kind = .plain f := fun e he hid => by
        rw [honly e he (.inr hid)]
        exact hplain
      refine ⟨_, exec_watchCancel_finds hm hop hturn hfound (State.disarm_plain 1 m.reply hkind halone),
        hawaits.getG ((s.offMesh k).freeWatches_stalls [x.id]) _ hreply, ?_, fun j hj => ?_⟩
      · rw [hawaits.shed, State.freeWatches_watches _ _ hsh]
        refine List.filter_congr fun y _ => ?_
        simp
      · rw [hawaits.shed]
        refine (s.offMesh k).freeWatches_shed_same [x.id] fun v hv hid => hj ?_
        exact congrArg Prod.fst (honly (j, v) (State.mem_allWatches hv) (.inr (List.mem_singleton.mp hid)))
    · obtain ⟨hsheds, -⟩ := hawaits.leaves (s.offMesh k) 0
      exact ⟨_, exec_watchCancel_unknown hm hop hturn (find?_cancels_none hdev hno) hhome, hsheds,
        hawaits.getG (t := s.offMesh k) rfl 0 hreply⟩

end Sys2Proof.Machine
end

section
/-!
SUPPORT and O37. Samplers: what a descriptor finds, gives and leaves; the frontier of a hop; run-ahead and completion
(R145, R167, R169-R171, R182, R185-R187, R190, R192).
-/

namespace Sys2Proof.Machine

/-! ### Lists in rising order (R170) -/

theorem perm_insertBy {α : Type} (le : α → α → Bool) (x : α) (l : List α) : (insertBy le x l).Perm (x :: l) := by
  induction l with
  | nil => exact .refl _
  | cons y ys ih =>
    rw [insertBy]
    split
    · exact (ih.cons y).trans (.swap x y ys)
    · exact .refl _

theorem perm_sortBy {α : Type} (le : α → α → Bool) (l : List α) : (sortBy le l).Perm l := by
  have hfold : ∀ acc : List α, (l.foldl (fun acc x => insertBy le x acc) acc).Perm (l ++ acc) := by
    induction l with
    | nil => exact fun acc => .refl _
    | cons x xs ih => exact fun acc => (ih _).trans (((perm_insertBy le x acc).append_left xs).trans List.perm_middle)
  exact (hfold []).trans (by rw [List.append_nil])

theorem rising_insertBy (x : Nat) {l : List Nat} (h : l.Pairwise (· ≤ ·)) :
    (insertBy (fun a b => decide (a ≤ b)) x l).Pairwise (· ≤ ·) := by
  induction l with
  | nil => exact List.pairwise_singleton _ _
  | cons y ys ih =>
    obtain ⟨hy, hys⟩ := List.pairwise_cons.mp h
    rw [insertBy]
    split
    · next hle =>
      refine List.pairwise_cons.mpr ⟨fun z hz => ?_, ih hys⟩
      rcases List.mem_cons.mp ((perm_insertBy _ x ys).mem_iff.mp hz) with rfl | hz
      · exact of_decide_eq_true hle
      · exact hy z hz
    · next hlt =>
      have hlt : x ≤ y := Nat.le_of_not_le fun hle => hlt (decide_eq_true hle)
      exact List.pairwise_cons.mpr ⟨fun z hz => (List.mem_cons.mp hz).elim (fun h => h ▸ hlt) fun hz => hlt.trans (hy z hz), h⟩

theorem rising_sortBy (l : List Nat) : (sortBy (fun a b => decide (a ≤ b)) l).Pairwise (· ≤ ·) :=
  List.foldlRecOn l _ List.Pairwise.nil fun _ h x _ => rising_insertBy x h

theorem mem_dedup {α : Type} [DecidableEq α] (l : List α) (v : α) : v ∈ dedup l ↔ v ∈ l := by
  induction l with
  | nil => rfl
  | cons x xs ih =>
    rw [List.mem_cons, ← ih, dedup]
    split
    · next h => simp [h]
    · next y ys h =>
      rw [h]
      split
      · next hxy => simp [hxy]
      · simp

theorem dedup_rises {l : List Nat} (h : l.Pairwise (· ≤ ·)) : (dedup l).Pairwise (· < ·) := by
  induction l with
  | nil => exact List.Pairwise.nil
  | cons x xs ih =>
    obtain ⟨hx, hxs⟩ := List.pairwise_cons.mp h
    have ih := ih hxs
    have hle : ∀ z ∈ dedup xs, x ≤ z := fun z hz => hx z ((mem_dedup xs z).mp hz)
    rw [dedup]
    split
    · exact List.pairwise_singleton _ _
    · next y ys heq =>
      rw [heq] at ih hle
      split
      · exact ih
      · next hne =>
        have hxy : x < y := lt_of_le_of_ne (hle y (.head _)) hne
        refine List.pairwise_cons.mpr ⟨fun z hz => ?_, ih⟩
        rcases List.mem_cons.mp hz with rfl | hz
        · exact hxy
        · exact hxy.trans ((List.pairwise_cons.mp ih).1 z hz)

theorem sortUniq_rises (l : List Nat) : (sortUniq l).Pairwise (· < ·) := dedup_rises (rising_sortBy l)

theorem mem_sortUniq (l : List Nat) (v : Nat) : v ∈ sortUniq l ↔ v ∈ l :=
  (mem_dedup _ v).trans (perm_sortBy _ l).mem_iff

/-! ### What work gives, whatever state it begins in -/

/-- Work that does not stop gives a value of which `P` holds. -/
def Yields {α : Type} (m : UM α) (P : α → Prop) : Prop := ∀ s, Leads m s (fun a _ => P a)

namespace Yields
variable {α β : Type} {P : α → Prop} {Q : β → Prop}

theorem pure {a : α} (h : P a) : Yields (Pure.pure a : UM α) P := fun _ => .pure h

theorem bind {m : UM α} {f : α → UM β} (h : Yields m P) (hf : ∀ a, P a → Yields (f a) Q) : Yields (m >>= f) Q :=
  fun s => (h s).bind fun a t ha => hf a ha t

theorem any (m : UM α) : Yields m (fun _ => True) := fun _ _ _ _ _ _ => trivial

theorem after {m : UM α} {f : α → UM β} (hf : ∀ a, Yields (f a) Q) : Yields (m >>= f) Q :=
  bind (any m) fun a _ => hf a

/-- A check that may stop the work, and what follows where it does not. -/
theorem check {c : Prop} [Decidable c] {e : Nat} {f : β → UM α} {m : UM α} (h : ¬c → Yields m P) :
    Yields (if c then MonadExcept.throw e >>= f else m) P := fun s => .ite (fun _ => .throw_bind e) fun hc => h hc s

theorem mapM {R : β → α → Prop} {f : β → UM α} (h : ∀ b, Yields (f b) (R b)) : ∀ l : List β, Yields (l.mapM f) (List.Forall₂ R l)
  | [] => .pure .nil
  | b :: l => by
    rw [List.mapM_cons]
    exact bind (h b) fun a ha => bind (mapM h l) fun as has => .pure (.cons ha has)

theorem on {m : UM α} (h : Yields m P) {how : How} {s : State} {a : α} {w : Work} (hon : m.on how s = (.ok a, w)) : P a :=
  h s { st := s, how := how, touched := [] } rfl a w hon

theorem run {m : UM α} (h : Yields m P) {how : How} {s u : State} {a : α} (hrun : m.run how s = some (.ok a, u)) : P a := by
  obtain ⟨_, ha, -⟩ := (h s).run hrun
  exact ha

end Yields

/-! ### A hop (R170) -/

theorem expandEntry_entry (p : Nat) (mode : Reading) (d : Nat) (g : Graph) (scb h e : Nat) :
    Yields (expandEntry p mode d g scb h e) (fun r => r.1.entry = e) := by
  unfold expandEntry
  refine .after fun seg => ?_
  split
  · exact .pure rfl
  · exact .after fun _ => .after fun _ => .pure rfl

theorem hopOf_frontier (p : Nat) (mode : Reading) (d : Nat) (g : Graph) (scb h : Nat) (fr : List Nat) :
    Yields (hopOf p mode d g scb h fr) (fun r => r.2.1.map Expand.entry = fr ∧
      r.1 = sortUniq (r.2.1.flatMap (fun x => x.picks.map Prod.fst) ++ (if saSelf d then fr else []))) := by
  unfold hopOf
  refine (Yields.mapM (expandEntry_entry p mode d g scb h) fr).bind fun rs hrs => .pure ⟨?_, rfl⟩
  rw [List.map_map]
  induction hrs with
  | nil => rfl
  | cons h _ ih => rw [List.map_cons, ih, Function.comp, h]

theorem mem_frontier (fr : List Nat) (xs : List Expand) (self : Bool) (v : Nat) :
    v ∈ sortUniq (xs.flatMap (fun x => x.picks.map Prod.fst) ++ (if self then fr else [])) ↔
      (∃ x ∈ xs, ∃ k ∈ x.picks, k.1 = v) ∨ (self = true ∧ v ∈ fr) := by
  rw [mem_sortUniq, List.mem_append, List.mem_flatMap]
  refine or_congr (exists_congr fun x => and_congr_right fun _ => List.mem_map) ?_
  cases self <;> simp

/-! ### What the work of a descriptor gives (R177, R182, R192) -/

/-- A SAMPLE that is not stopped fits its capacities. -/
theorem saWork_yields (p c : Nat) {m : UM SRes} {P : SRes → Prop} (h : Yields m P) :
    Yields (saWork p c m) (fun r => P r ∧ (bits c 0 8 = 1 → r.fits c = true)) := by
  unfold saWork
  refine h.bind fun r hr => .check fun hfits => .after fun _ => .pure ⟨hr, fun hop => ?_⟩
  exact Bool.not_eq_false _ |>.mp fun hno => hfits ⟨hop, hno⟩

/-- Each row and draw of a SCORE has one index of 4 bytes. -/
theorem scoreWork_nTrail (p c : Nat) : Yields (scoreWork p c) (fun r => r.nTrail = 4 * (scRows c * scDraws c)) := by
  have hlength : ∀ (ns : List Nat) (rows : List (List (Nat × Nat) × List (Nat × Nat × Nat))),
      List.Forall₂ (fun _ x => x.1.length = scDraws c) ns rows → (rows.flatMap Prod.fst).length = ns.length * scDraws c := by
    intro ns rows h
    induction h with
    | nil => simp
    | cons h _ ih => rw [List.flatMap_cons, List.length_append, h, ih, List.length_cons, Nat.succ_mul, Nat.add_comm]
  unfold scoreWork
  refine .check fun _ => ?_
  refine (Yields.mapM (R := fun _ x => x.1.length = scDraws c) (fun r => .after fun bs => .pure ?_) _).bind fun rows hrows =>
    .pure ?_
  · simp
  · simpa using hlength _ rows hrows

theorem gives_saWork_error {p c e : Nat} {m : UM SRes} {s t : State} (h : Gives m s (.error e) t) :
    Gives (saWork p c m) s (.error e) t := h.bind_error _

theorem gives_scoreWork_bad {p c : Nat} (s : State) (h : badScore (scTemp c) (scTopp c) (scTopk c) (scLen c) = true) :
    Gives (scoreWork p c) s (.error 0x0608) s := by
  unfold scoreWork
  rw [if_pos h]
  exact Gives.bind_error _ (.throw _ _)

theorem gives_sampleWork_noTables {me p c : Nat} (mode : Reading) {s : State} (h : s.saTables p c = false) :
    Gives (sampleWork me p mode c) s (.error 0x0602) s := by
  unfold sampleWork
  refine Gives.bind (.now s) ?_
  rw [if_pos h]
  exact Gives.bind_error _ (.throw _ _)

/-! ### What a descriptor finds (R169, R186) -/

/-- The next descriptor has left the queue of sampler `k`. -/
def State.saTaken (s : State) (k : Nat) (rest : List Desc) : State :=
  (s.modSampler k (fun x => { x with queue := rest })).touch k

section
variable (s : State) (k : Nat)

theorem State.sampler_touch (j : Nat) : (s.touch k).sampler j = s.sampler j := State.sampler_of_units (s.units_touch k) j

theorem State.sampler_saTaken (rest : List Desc) : (s.saTaken k rest).sampler k = { s.sampler k with queue := rest } :=
  (State.sampler_touch ..).trans (s.sampler_modSampler_same k _)

theorem State.adopts_saTaken (rest : List Desc) (d : Desc) : (s.saTaken k rest).adopts k d = s.adopts k d := by
  unfold State.adopts
  rw [State.sampler_saTaken]
  rfl

/-- What a SAMPLE discards is counted, but no table changes by it. -/
theorem State.saTables_discardFor (d : Desc) (c : Nat) : (s.discardFor k d).saTables d.part c = s.saTables d.part c := by
  have hobj : ∀ t, (s.discardFor k d).obj (kTable d.part t) = s.obj (kTable d.part t) := fun t => by
    have hkey : kTable d.part t ≠ kRaDiscarded d.part := by
      simp only [kTable, kRaDiscarded, pkey, objKey]
      omega
    exact (State.obj_bumpObj ..).trans (if_neg hkey)
  simp only [State.saTables, hobj]

theorem State.sampler_discardFor (d : Desc) : ∃ h, (s.discardFor k d).sampler k = { s.sampler k with held := h } :=
  ⟨_, State.sampler_modSampler_same ..⟩

end

/-! ### Start (R169, R182, R186, R190) -/

/-- The outcome of work `m` of descriptor `d` of sampler `k` from state `u`: the state stays `s` while it waits. -/
def State.saOutcome (s u : State) (k : Nat) (d : Desc) (caps : List (Nat × Nat)) (m : UM SRes) : Out1 :=
  match (saWork d.part d.bits.toNat m).run plainly u with
  | none => .next s
  | some (.ok r, u) => .next (u.saRunning k d caps r)
  | some (.error e, u) => .next (u.saFail k d e)

section
variable {s u v : State} {k : Nat} {d : Desc} {caps : List (Nat × Nat)} {m : UM SRes}

theorem State.saOutcome_waits (h : (saWork d.part d.bits.toNat m).run plainly u = none) : s.saOutcome u k d caps m = .next s := by
  rw [State.saOutcome, h]

theorem State.saOutcome_ok {r : SRes} (h : (saWork d.part d.bits.toNat m).run plainly u = some (.ok r, v)) :
    s.saOutcome u k d caps m = .next (v.saRunning k d caps r) := by
  rw [State.saOutcome, h]

theorem State.saOutcome_error {e : Nat} (h : Gives m u (.error e) v) (he : e ≠ ePause) :
    s.saOutcome u k d caps m = .next (v.saFail k d e) := by
  rw [State.saOutcome, (gives_saWork_error h).run plainly (by simpa using he)]

end

section
variable {s : State} {sh : Nat} {d : Desc} {rest : List Desc} (hsh : sh < 32) (hawake : (s.shed sh).asleep = false)
  (hidle : (s.sampler sh).cur = none) (hq : (s.sampler sh).queue = d :: rest)
include hsh hawake hidle hq

theorem exec_saStart_score (hop : bits d.bits.toNat 0 8 = 2) : exec (.samplerDescriptorStart sh) s =
    s.saOutcome (s.saTaken sh rest) sh d [] (scoreWork d.part d.bits.toNat) := by
  show execSamplerDescriptorStart sh s = _
  simp only [execSamplerDescriptorStart, Nat.not_le.mpr hsh, hq, hidle, hawake, hop, Option.isSome_none, Bool.false_eq_true,
    or_self, if_false, if_true] <;> rfl

theorem exec_saStart_sample (hop : bits d.bits.toNat 0 8 = 1) : exec (.samplerDescriptorStart sh) s =
    match s.adopts sh d with
    | some a =>
      if a.res.fits d.bits.toNat then
        s.saOutcome (((s.saTaken sh rest).bumpObj (kRaAdopted d.part) 1).modSampler sh
          (fun x => { x with held := x.held.filter (fun b => decide (b ≠ a)) })) sh d (s.capture d.part (saCaps d.bits.toNat))
          (pure a.res)
      else .next ((s.saTaken sh rest).saFail sh d 0x0605)
    | none => s.saOutcome ((s.saTaken sh rest).discardFor sh d) sh d (s.capture d.part (saCaps d.bits.toNat))
        (sampleWork s.device d.part .fore d.bits.toNat) := by
  rw [← s.adopts_saTaken sh rest d]
  show execSamplerDescriptorStart sh s = _
  simp only [execSamplerDescriptorStart, Nat.not_le.mpr hsh, hq, hidle, hawake, hop, Option.isSome_none, Bool.false_eq_true,
    or_self, if_false, OfNat.one_ne_ofNat] <;> rfl

section
variable (hop : bits d.bits.toNat 0 8 = 1)
include hop

theorem exec_saStart_fresh (hnone : s.adopts sh d = none) : exec (.samplerDescriptorStart sh) s =
    s.saOutcome ((s.saTaken sh rest).discardFor sh d) sh d (s.capture d.part (saCaps d.bits.toNat))
      (sampleWork s.device d.part .fore d.bits.toNat) := by
  rw [exec_saStart_sample hsh hawake hidle hq hop, hnone]

variable {a : Ahead} (ha : s.adopts sh d = some a)
include ha

theorem exec_saStart_adopts (hfits : a.res.fits d.bits.toNat = true) : exec (.samplerDescriptorStart sh) s =
    s.saOutcome (((s.saTaken sh rest).bumpObj (kRaAdopted d.part) 1).modSampler sh
      (fun x => { x with held := x.held.filter (fun b => decide (b ≠ a)) })) sh d (s.capture d.part (saCaps d.bits.toNat))
      (pure a.res) := by
  rw [exec_saStart_sample hsh hawake hidle hq hop, ha]
  exact if_pos hfits

theorem exec_saStart_misfit (hfits : a.res.fits d.bits.toNat = false) : exec (.samplerDescriptorStart sh) s =
    .next ((s.saTaken sh rest).saFail sh d 0x0605) := by
  rw [exec_saStart_sample hsh hawake hidle hq hop, ha]
  exact if_neg (by rw [hfits]; exact Bool.false_ne_true)

end

end

/-! ### What first-NaN events leave of samplers (R65, R187) -/

/-- From `s` to `t` samplers have lost held results at most. -/
def SparesSamplers (s t : State) : Prop :=
  ∀ k, ∃ h, t.sampler k = { s.sampler k with held := h } ∧ ∀ a ∈ h, a ∈ (s.sampler k).held

namespace SparesSamplers
variable {s t u : State}

theorem of_sheds (h : t.sheds = s.sheds) : SparesSamplers s t := fun k =>
  ⟨(s.sampler k).held, congrArg (fun x => (FMap.get (fun _ => Shed.reset) x k).sampler) h, fun _ ha => ha⟩

theorem refl (s : State) : SparesSamplers s s := of_sheds rfl

theorem trans (h : SparesSamplers s t) (h' : SparesSamplers t u) : SparesSamplers s u := fun k => by
  obtain ⟨x, hx, hsub⟩ := h k
  obtain ⟨y, hy, hsub'⟩ := h' k
  rw [hx] at hy hsub'
  exact ⟨y, hy, fun a ha => hsub a (hsub' a ha)⟩

theorem discardAhead (s : State) (p k : Nat) : SparesSamplers s (s.discardAhead p k) := fun j => by
  have hshed : ((s.discardAhead p k).shed j).sampler =
      if j = k then { s.sampler k with held := [] } else s.sampler j := by
    rw [State.discardAhead]
    dsimp only
    rw [State.modShed, State.setShed_shed]
    split <;> rfl
  by_cases hj : j = k
  · subst hj
    exact ⟨[], hshed.trans (if_pos rfl), by simp⟩
  · exact ⟨_, hshed.trans (if_neg hj), fun _ ha => ha⟩

theorem beginStop (s : State) (p : Nat) (halted : Bool) : SparesSamplers s (s.beginStop p halted) :=
  List.foldlRecOn (State.shedsOf _ p) _ (of_sheds rfl : SparesSamplers s _) fun u hu k _ => hu.trans (discardAhead u p k)

theorem nanEvent (s : State) (p : Nat) (src : NanSrc) (cause elem : Nat) : SparesSamplers s (s.nanEvent p src cause elem) := by
  have hset : ∀ (u : State) (k v : Nat), SparesSamplers u (u.setObj k v) := fun _ _ _ => of_sheds rfl
  unfold State.nanEvent
  extract_lets s1 ctl halt noSt shed loc w s2
  have hs1 : SparesSamplers s s1 := hset s _ _
  have hs2 : SparesSamplers s s2 := hs1.trans (hset s1 _ _)
  clear_value s1 w s2
  split
  · exact hs1
  · split
    · exact (hs2.trans (of_sheds (State.logPart_sheds ..))).trans (beginStop _ p true)
    · exact hs2

end SparesSamplers

/-- A descriptor in execution: the bits of STATUS are set, its NaNs are noted, and the sampler holds it (R172, R190). -/
theorem State.saRunning_frame (s : State) (k : Nat) (d : Desc) (caps : List (Nat × Nat)) (r : SRes) :
    let t := s.saRunning k d caps r
    t.mem = s.mem ∧ ∃ h, (∀ a ∈ h, a ∈ (s.sampler k).held) ∧ t.sampler k =
      { s.sampler k with
        adjMiss := (s.sampler k).adjMiss || bit r.status 0, trunc := (s.sampler k).trunc || bit r.status 1,
        nanScore := (s.sampler k).nanScore || bit r.status 2, held := h,
        cur := some { desc := d, caps := caps, res := { r with writes := [] } } } := by
  have hnans : ∀ u : State, let t := r.nans.foldl (fun s e => s.nanEvent d.part ⟨4, e.1, d.stall, d.pc.toNat⟩ e.2.2 e.2.1) u
      t.mem = u.mem ∧ SparesSamplers u t := by
    intro u
    refine List.foldlRecOn r.nans _ (motive := fun t => t.mem = u.mem ∧ SparesSamplers u t) ⟨rfl, .refl u⟩ ?_
    rintro t ⟨hmem, hspares⟩ e -
    exact ⟨(State.mem_nanEvent ..).trans hmem, hspares.trans (.nanEvent t _ _ _ _)⟩
  obtain ⟨hmem, hspares⟩ := hnans (s.modSampler k (fun x => { x with
    adjMiss := x.adjMiss || bit r.status 0, trunc := x.trunc || bit r.status 1, nanScore := x.nanScore || bit r.status 2 }))
  obtain ⟨h, hsampler, hsub⟩ := hspares k
  rw [State.sampler_modSampler_same] at hsampler hsub
  refine ⟨hmem, h, hsub, (State.sampler_modSampler_same ..).trans ?_⟩
  exact congrArg (fun x : Sampler => { x with cur := some { desc := d, caps := caps, res := { r with writes := [] } } }) hsampler

/-! ### Run-ahead (R185) -/

/-- With nothing queued and nothing held, run-ahead is due for the step after the template's. -/
theorem State.raDue_next {s : State} {sh : Nat} {g : Desc} (htmpl : (s.sampler sh).tmpl = some g)
    (hqueue : (s.sampler sh).queue = []) (hidle : (s.sampler sh).cur = none) (hheld : (s.sampler sh).held = [])
    (hawake : (s.shed sh).asleep = false) (hrun : s.partRuns g.part = true) (hdepth : 1 ≤ s.raDepth g.part) :
    s.raDue sh = some (g, (saStep g.bits.toNat + 1) % 2 ^ 64) := by
  obtain ⟨n, hn⟩ := Nat.exists_eq_add_of_le' hdepth
  simp only [State.raDue, htmpl, hqueue, hidle, hheld, hawake, hrun, hn, List.range_succ_eq_map, List.map_cons, List.any_nil,
    Bool.not_false, List.find?_cons_of_pos, Option.map_some]
  simp

/-- Sampler `k` holds one result more. -/
def State.holding (s : State) (k : Nat) (a : Ahead) : State := s.modSampler k (fun x => { x with held := x.held ++ [a] })

theorem State.sampler_holding (s : State) (k : Nat) (a : Ahead) :
    (s.holding k a).sampler k = { s.sampler k with held := (s.sampler k).held ++ [a] } := s.sampler_modSampler_same k _

theorem exec_runahead {s u : State} {sh n : Nat} {g : Desc} {r : SRes} (hsh : sh < 32) (hdue : s.raDue sh = some (g, n))
    (hwork : (sampleWork s.device g.part .ahead (setBits g.bits.toNat 128 64 n)).run plainly s = some (.ok r, u))
    (hsize : r.size ≤ u.raSlot g.part) : ∃ hs, exec (.runaheadCompute sh) s = .next { u.holding sh
      { step := n, caps := s.capture g.part (saCaps (setBits g.bits.toNat 128 64 n)), res := r } with hints := hs } := by
  refine ⟨u.hints ++ if saPrefetch (setBits g.bits.toNat 128 64 n) && bit (u.obj (kRunahead g.part)) 2 then
    (u.holding sh { step := n, caps := s.capture g.part (saCaps (setBits g.bits.toNat 128 64 n)), res := r }).hintsOf g.part
      (saFeat (setBits g.bits.toNat 128 64 n)) r else [], ?_⟩
  show execRunaheadCompute sh s = _
  simp only [execRunaheadCompute, Nat.not_le.mpr hsh, if_false, hdue, hwork, Nat.not_lt.mpr hsize]
  rfl

/-! ### Completion (R145, R185, R190) -/

/-- The state after descriptor `d` of sampler `k` has completed without a handle push. -/
def State.saCompleted (s : State) (k : Nat) (d : Desc) : State :=
  ((s.signalled d.bits.toNat).modSampler k (fun x => { x with
    cur := none, tmpl := if bits d.bits.toNat 0 8 ≠ 2 ∧ saRa d.bits.toNat = true then some d else x.tmpl })).touch k

theorem exec_saComplete {s : State} {sh : Nat} {c : SCur} (hsh : sh < 32) (hc : (s.sampler sh).cur = some c)
    (hcmpl : dCmpl c.desc.bits.toNat < 2) : exec (.samplerDescriptorComplete sh) s = .next (s.saCompleted sh c.desc) := by
  show execSamplerDescriptorComplete sh s = _
  simp only [execSamplerDescriptorComplete, Nat.not_le.mpr hsh, hc, if_false, State.signal_signalled _ _ _ hcmpl,
    State.saCompleted, Bool.and_eq_true, Bool.not_eq_true', decide_eq_false_iff_not, ne_eq]

theorem State.saCompleted_frame (s : State) (k : Nat) (d : Desc) :
    (s.saCompleted k d).still = (s.signalled d.bits.toNat).still ∧
      (s.saCompleted k d).sampler k = { s.sampler k with
        cur := none, tmpl := if bits d.bits.toNat 0 8 ≠ 2 ∧ saRa d.bits.toNat = true then some d else (s.sampler k).tmpl } := by
  unfold State.saCompleted
  constructor
  · refine (State.still_modShed _ k (f := fun x => { x with busyAt := _ }) ?_).trans
      (State.still_modShed _ k (f := fun x => { x with sampler := _ }) ?_)
    · exact fun _ => rfl
    · exact fun _ => rfl
  · rw [State.sampler_touch, State.sampler_modSampler_same, State.sampler_of_units (s.signalled_keepsUnits _).units]

/-- What the statement says of a descriptor that has started: `u` is the state its work left, `r` its result. -/
def State.Started (u t : State) (k : Nat) (r : SRes) : Prop :=
  t.mem = u.mem ∧ (t.sampler k).queue = (u.sampler k).queue ∧ (∀ a ∈ (t.sampler k).held, a ∈ (u.sampler k).held) ∧
    (bit r.status 0 = true → (t.sampler k).adjMiss = true) ∧ (bit r.status 1 = true → (t.sampler k).trunc = true) ∧
    (bit r.status 2 = true → (t.sampler k).nanScore = true)

theorem State.started_saRunning (u : State) (k : Nat) (d : Desc) (caps : List (Nat × Nat)) (r : SRes) :
    u.Started (u.saRunning k d caps r) k r ∧
      ((u.saRunning k d caps r).sampler k).cur = some { desc := d, caps := caps, res := { r with writes := [] } } := by
  obtain ⟨hmem, h, hsub, hsampler⟩ := u.saRunning_frame k d caps r
  refine ⟨⟨hmem, ?_⟩, ?_⟩
  · rw [hsampler]
    exact ⟨rfl, hsub, fun h => by simp [h], fun h => by simp [h], fun h => by simp [h]⟩
  · rw [hsampler]

/-- Settles O37: a start by where its result comes from and whether it fits, a hop by what its frontier is made of, run-ahead
by the step that is due, and a completion by what a signal leaves. -/
theorem samplers : Obligations.Samplers := by
  unfold Obligations.Samplers
  refine ⟨fun s sh hsh hawake hidle => ⟨fun d rest hq => ?_, fun g r u htmpl hq hheld hrun hdepth => ?_⟩, ?_, ?_⟩
  · intro c s0 done fresh score
    have hscore := exec_saStart_score hsh hawake hidle hq
    have hfresh := exec_saStart_fresh hsh hawake hidle hq
    have hs0 := s.sampler_saTaken sh rest
    refine ⟨fun hop hbad => ?_, fun hop htables hnone => ?_, fun hop hwaits => (hscore hop).trans (State.saOutcome_waits hwaits),
      fun r u hop hok => ?_, fun hop hnone hwaits => (hfresh hop hnone).trans (State.saOutcome_waits hwaits),
      fun r u hop hnone hok => ?_, fun a u hop ha hfits hok => ?_, fun a hop ha hfits => ?_⟩
    · obtain ⟨hmem, -, -, hsampler⟩ := (s.saTaken sh rest).saFail_frame sh d 0x0608
      rw [hs0] at hsampler
      exact ⟨_, (hscore hop).trans (State.saOutcome_error (gives_scoreWork_bad _ hbad) (by decide)),
        (congrArg Sampler.cur hsampler).trans hidle, congrArg Sampler.queue hsampler, congrArg Sampler.errCode hsampler,
        congrArg Sampler.errStall hsampler, hmem⟩
    · have hgives := gives_sampleWork_noTables (me := s.device) .fore
        (((s.saTaken sh rest).saTables_discardFor sh d c).trans htables)
      obtain ⟨hmem, -, -, hsampler⟩ := ((s.saTaken sh rest).discardFor sh d).saFail_frame sh d 0x0602
      obtain ⟨held, hdiscard⟩ := (s.saTaken sh rest).sampler_discardFor sh d
      rw [hdiscard, hs0] at hsampler
      exact ⟨_, (hfresh hop hnone).trans (State.saOutcome_error hgives (by decide)), congrArg Sampler.errCode hsampler,
        (congrArg Sampler.cur hsampler).trans hidle, hmem⟩
    · obtain ⟨hstarted, hcur⟩ := u.started_saRunning sh d [] r
      exact ⟨_, (hscore hop).trans (State.saOutcome_ok hok), hstarted, hcur,
        ((saWork_yields _ _ (scoreWork_nTrail _ _)).run hok).1⟩
    · obtain ⟨hstarted, hcur⟩ := u.started_saRunning sh d (s.capture d.part (saCaps c)) r
      exact ⟨_, (hfresh hop hnone).trans (State.saOutcome_ok hok), hstarted, ((saWork_yields _ _ (.any _)).run hok).2 hop, hcur⟩
    · obtain ⟨hstarted, hcur⟩ := u.started_saRunning sh d (s.capture d.part (saCaps c)) a.res
      exact ⟨_, (exec_saStart_adopts hsh hawake hidle hq hop ha hfits).trans (State.saOutcome_ok hok), hstarted, hcur⟩
    · obtain ⟨hmem, -, -, hsampler⟩ := (s.saTaken sh rest).saFail_frame sh d 0x0605
      rw [hs0] at hsampler
      exact ⟨_, exec_saStart_misfit hsh hawake hidle hq hop ha hfits, congrArg Sampler.errCode hsampler,
        (congrArg Sampler.cur hsampler).trans hidle, (congrArg Sampler.held hsampler :), hmem⟩
  · intro n d hwork hsize
    obtain ⟨hs, hexec⟩ := exec_runahead hsh (State.raDue_next htmpl hq hidle hheld hawake hrun hdepth) hwork hsize
    have hsampler := u.sampler_holding sh { step := n, caps := s.capture g.part (saCaps d), res := r }
    exact ⟨_, hexec, rfl, (congrArg Sampler.cur hsampler :), (congrArg Sampler.held hsampler :)⟩
  · intro p d scb h mode g fr next xs st ns how s w hon
    obtain ⟨hentries, hnext⟩ := (hopOf_frontier p mode d g scb h fr).on hon
    dsimp only at hentries hnext
    subst hnext
    exact ⟨sortUniq_rises _, hentries, mem_frontier fr xs (saSelf d)⟩
  · intro s sh c hsh hc d hcmpl
    obtain ⟨hstill, hsampler⟩ := s.saCompleted_frame sh c.desc
    have hstill := hstill.trans (s.signalled_still d)
    exact ⟨_, exec_saComplete hsh hc hcmpl, congrArg Sampler.cur hsampler, (congrArg Sampler.queue hsampler :),
      congrArg Still.mem hstill, congrArg Still.stalls hstill, fun _ => congrArg Still.objs hstill,
      congrArg Sampler.tmpl hsampler, fun f => congrFun (congrArg Still.flag hstill) f⟩

end Sys2Proof.Machine
end
